-- ==== Sys2Proof/Word.lean ====
section
/-! DEFINITION. The word types of the chiplet: set-up words, bytes, site and port numbers (R9, R16, R18, R21). -/

namespace Sys2Proof

/-- A 32-bit set-up word, command word or register entry (R9). -/
abbrev Word := BitVec 32

/-- One byte of a memory, a record or a packet. -/
abbrev Byte := BitVec 8

/-- A site index, `Y * 48 + X` (R18). -/
abbrev Site := Fin 2400

/-- A port index (R21). -/
abbrev PortIx := Fin 96

/-- A stream number (R429). -/
abbrev StreamNo := Fin 16384

/-- A reticle field (R17). -/
abbrev FieldNo := Fin 4

/-- A 60-bit global address (R402). -/
abbrev GAddr := BitVec 60

end Sys2Proof
end

