-- ==== Sys2Proof/Syntax.lean ====
section
/-! DEFINITION. The commands of the chiplet, whole: one constructor per row of spec/opcode_table.json, with the operands
that its rule gives it. -/

namespace Sys2Proof

/-- The two outcomes of a check-bit check that finds an error (R133, R193, R238, R416). -/
inductive EccKind where
  | ce | ue
deriving DecidableEq, Repr

/-- An error that a stored word has come to hold: scratchpad word `row * 64 + word` (R229), or LA element word. -/
structure Upset where
  word : Nat
  kind : EccKind
deriving DecidableEq, Repr

/-- A conflict on a scratchpad bank port, as SP_CONF_LAST records it (R234, R235, R257). -/
structure Conflict where
  held : BitVec 3
  served : BitVec 3
  wport : Bool
  bank : BitVec 4
  slot : BitVec 4
deriving DecidableEq, Repr

/-- The physical events that fall together with a command's work: scratchpad words and LA words (10 * element + limb)
whose stored bits have gone bad, port conflicts, and edge words whose residue check fails (edge word number, change of SUM). -/
structure Phys where
  sp : List Upset := []
  la : List Upset := []
  conf : List Conflict := []
  resid : List (Nat × Int) := []
deriving DecidableEq, Repr

/-- A check-bit error met by the tile core on a fetch, a load or a command read (R193): one that is corrected; one that is not,
in the fetch (its word, or the word of its second half) or in a data word (of a command read, which word). -/
inductive CoreEcc where
  | none | ce | ueFetch (second : Bool) | ueData (word : Nat)
deriving DecidableEq, Repr

/-- The units that take commands (R199). -/
inductive UnitC where
  | mu | la | vc | sp | sh
deriving DecidableEq, Repr

/-- Who performs a set-up write (R10, R522, R535). -/
inductive WriteSrc where
  | boot | firmware | core (s : Site) | roleD | mailbox
deriving DecidableEq, Repr

/-- The producer of a token, to which its credit returns (R265, R266, R444): a port, the path its token took, and the number
of the destination among those the port has had (assumption 13); or the loom at an attachment, with P mod 4. -/
inductive TokSrc where
  | seq (site : Site) (unit : BitVec 4) (port : BitVec 2) (path : BitVec 2) (gen : Nat)
  | loom (att : FieldNo) (port : BitVec 2)
deriving DecidableEq, Repr

/-- One scratchpad row of a transfer as it reaches its destination (R221, R337): bytes `data` from byte `off` of `row`;
`rem` rows of the transfer follow; `tag` names the transfer at its sender. A row that a GATHER skips carries no data (R218, R244,
assumption 70). -/
structure DataRow where
  src : Site
  tag : Nat
  row : BitVec 12
  rem : BitVec 12
  off : BitVec 9
  data : List Byte
  poison : Bool
  skip : Bool := false
deriving DecidableEq, Repr

/-- An incoming TILE or WARP transfer as its first row names it (R244). -/
structure Transfer where
  src : Site
  tag : Nat
  row : BitVec 12
  n : BitVec 13
deriving DecidableEq, Repr

/-- What the wires of a warp link bring back to a sender (R267, R275). -/
inductive WarpAck where
  | row (src : Site) (row : BitVec 12) (status : BitVec 2)
  | credit (src : Site) (unit : BitVec 4) (port : BitVec 2) (gen : Nat)
deriving DecidableEq, Repr

/-- What a warp link carries forward (R275). -/
inductive WarpBody where
  | data (d : DataRow)
  | token (unit : BitVec 4) (queue : BitVec 3) (tok : BitVec 64) (src : TokSrc)
deriving DecidableEq, Repr

/-- A warp word on its way: the side it was sent on (R215) and the pass registers crossed since its last hold (R277). -/
structure WarpWord where
  side : BitVec 2
  crossed : Nat
  body : WarpBody
deriving DecidableEq, Repr

/-- The measurements of a tile over the last 10 us (R547, R558). -/
structure TileMeasure where
  temp : BitVec 8
  vmon : BitVec 8
  freq : BitVec 12
deriving DecidableEq, Repr

/-- A mailbox slot whose request is ATTEST (R520); `again` is the boot directory and the certificate read again, where the
directory's CERT fields have been rewritten (R518). -/
structure AttestReq where
  slot : Fin 4
  again : Option (List Byte × List Byte)
deriving DecidableEq, Repr

/-- What the analogue checks of a site measure (R497): the cycles of its oscillator in 2,000 cycles of the reference, and those that
mcycle counted; the sensor's temperature, and the error of its reference point in tenths of a degree; the error of the voltage monitor at
the on-die reference in parts of 10,000. -/
structure AnaTest where
  cycles : Nat
  mcycle : Nat
  temp : BitVec 8
  refErr : Int
  voltErr : Int
deriving DecidableEq, Repr

/-- What the analogue checks of a lane group measure (R497): the bit errors of each of its wires in loop-back and far-end pattern, whether
the port's PLL has locked, and its error against the reference in parts per million. -/
structure LaneCheck where
  errors : List Nat
  locked : Bool
  ppm : Int
deriving DecidableEq, Repr

/-- What the boot ROM and the boot code read from the hub's store and from memory (R502, R511 to R514), and what the ANA item of every
site measures at start-up (R503). -/
structure BootInputs where
  dir : List Byte
  manA : List Byte
  manB : List Byte
  imgA : List Byte
  imgB : List Byte
  cert : List Byte
  record : List Byte
  ana : List (Site × AnaTest)
deriving DecidableEq, Repr

/-- The outcome of a lane group's pattern test: failed wires per direction, the spare being wire 34, and a failed forwarded
clock (R383, R384). -/
structure GroupTest where
  rx : List (Fin 35)
  tx : List (Fin 35)
  clk : Bool
deriving DecidableEq, Repr

/-- What a step of the shutdown test finds (R501): sites and ports whose memories or logic fail, repair entries, sites whose router,
incoming links or pass-through registers fail, what each lane group's wires, spare and clock show, and the analogue checks of sites and
port PLLs (R497). -/
structure ShutResult where
  failed : List Site
  portBad : List PortIx
  repairs : List (BitVec 64)
  routers : List Site
  groups : List (PortIx × Fin 8 × GroupTest)
  ana : List (Site × AnaTest)
  plls : List (PortIx × LaneCheck)
deriving DecidableEq, Repr

/-- Bits of an active image that have gone bad: group, image word, changed bits (R305). -/
structure ImageFlip where
  group : Fin 7
  word : Nat
  bits : Word
deriving DecidableEq, Repr

/-- A weft flit: control word, payload (payload bit b is bit b mod 8 of byte b / 8) and CRC-16 (R335, R336, R338). -/
structure Flit where
  ctl : BitVec 64
  payload : BitVec 512
  crc : BitVec 16
deriving DecidableEq, Repr

/-- A Glitis flit: 64-bit side-band word and 1,024-bit body (R370). -/
structure GlFlit where
  sb : BitVec 64
  body : BitVec 1024
deriving DecidableEq, Repr

/-- The reach header of a weft packet (R407); OFF is ADDR mod 512. -/
structure ReachHdr where
  rtag : BitVec 12
  addr : GAddr
  len : BitVec 9
  stream : BitVec 14
  sv : Bool
  orig : Bool
deriving DecidableEq, Repr

/-- Where packets enter the weft (R353, R357, R361). -/
inductive InjPoint where
  | tile (s : Site) | port (p : PortIx) | attach (a : FieldNo)
deriving DecidableEq, Repr

/-- The payload of a FAULT message and the microsecond within the budget period at which it arrives (R457, R488). -/
structure FaultMsg where
  code : BitVec 8
  unit : BitVec 4
  reg : Word
  us : Fin 10
deriving DecidableEq, Repr

/-- The supply and clock conditions of a slice, as the steward measures them: VCORE at the tile's monitor and VSRAM in tenths of a
millivolt, and the tile clock over the last 10 us in MHz (R493). -/
structure SliceCond where
  vcore : Nat
  vsram : Nat
  clock : Nat
deriving DecidableEq, Repr

/-- The end of a slice: how long it took, and the records read from the save area (R491, R495). -/
structure SliceDone where
  dur : BitVec 12
  recs : List (List Word)
deriving DecidableEq, Repr

/-- A boundary instruction of the TAP: the levels at the pads by cell, and the cells shifted in, a cell not listed being 0 (R553, R554). -/
structure Boundary where
  pads : List (Nat × Bool)
  cells : List (Nat × Bool)
deriving DecidableEq, Repr

/-- The site of SITESEL, and the bits, the first first, that the tester then shifts through the serial port of its wrapper by WSP (R552). -/
structure WrapperSel where
  site : BitVec 12
  wsi : List Bool
deriving DecidableEq, Repr

/-- A TAP instruction code that acts as BYPASS, and the bits shifted in, the first first (R552). -/
structure BypassShift where
  code : BitVec 8
  bits : List Bool
deriving DecidableEq, Repr

/-- What the test of an item finds (R495); of the ANA item and of a lane group, what the analogue checks measure (R497). -/
inductive SliceTest where
  | pass | repaired (entry : BitVec 64) | fail | ana (a : AnaTest) | lanes (c : LaneCheck)
deriving DecidableEq, Repr


/-- The commands of the chiplet: one constructor per row of the table of operations and events. -/
inductive Instr where
  /-- RESET_RELEASE (R539). RSTn rises with PWROK_C, PWROK_S and REFOK high. The steward ROM starts the boot sequence and the ports
  begin start-up. -/
  | resetRelease (fp : Option (BitVec 256))
  /-- RESET_ASSERT (R540). RSTn, PWROK_C, PWROK_S or REFOK falls. The chiplet stops within 100 ns, every port goes DOWN and all state
  except the fuses is lost. -/
  | resetAssert
  /-- FIRMWARE_LOAD (R514). After the discovery COMMIT, the ROM reads the boot directory, checks the manifests and loads and starts the
  firmware image. -/
  | firmwareLoad (b : BootInputs)
  /-- AUTO_LOCK (R516). 30 s after boot step 1 without a lock, hardware sets the protection lock and ST_PROTERR.AUTOLOCK. -/
  | autoLock
  /-- LOCK_WRITE (R522). Boot code writes 1 to ST_LOCK.LOCK and locks every RWL field until power-off. -/
  | lockWrite (src : WriteSrc)
  /-- VACK (R538). The backing toggles VACK of a field, and the new VCORE set point comes into force. -/
  | vack (f : FieldNo)
  /-- VID_TIMEOUT (R538). VACK has not toggled 100 us after VREQ. The field's VIDTMO flag is set and further requests stop. -/
  | vidTimeout (f : FieldNo)
  /-- AVS_LOOP (R544). Every 100 us, the adaptive loop compares a field's lowest unthrottled clock with FTGT and requests one VID code
  up or down. -/
  | avsLoop (f : FieldNo) (mhz : BitVec 12)
  /-- SUSTAINED_LIMIT_TICK (R546). Every 10 ms, the sustained power limiter lowers or raises each field's FTGT by 25 MHz. -/
  | sustainedLimitTick (avg : BitVec 11)
  /-- THERMAL_SAMPLE (R547). Each microsecond, a tile reads its thermal sensor and applies the 103 C throttle and the 115 C trip
  thresholds. -/
  | thermalSample (site : Site) (m : TileMeasure)
  /-- THERMAL_FTGT_TICK (R547). Every 1 ms, the steward lowers a hot field's FTGT by 50 MHz, or raises a cooled field's FTGT by 25 MHz. -/
  | thermalFtgtTick (f : FieldNo)
  /-- REG_WRITE (R10). A set-up write to a register that has no row of its own, applied according to its access code. -/
  | regWrite (src : WriteSrc) (addr : Word) (val : Word)
  /-- CORE_GO (R195). A write of TC_CTL.GO starts the tile core at TC_ENTRY with cleared registers. -/
  | coreGo (site : Site)
  /-- CORE_HALT (R195). A write of TC_CTL.HALT stops the tile core at the end of its current instruction and abandons any stalled
  command-extension instruction. -/
  | coreHalt (site : Site)
  /-- STEWARD_SIGNAL (R224). The steward writes 1 to TC_EVT.STEWARD, which signals the tile core. -/
  | stewardSignal (site : Site)
  /-- COUNTER_SNAP (R285). A write of TC_WV_CTL.SNAP copies every stall and queue counter of the tile into its read copy. -/
  | counterSnap (site : Site)
  /-- COUNTER_CLEAR (R285). A write of TC_WV_CTL.CLEAR zeroes the live stall and queue counters. -/
  | counterClear (site : Site)
  /-- FREEZE (R323). A write of 1 to TC_SCAN_CTL.FREEZE stops the tile's firing and its core once no stitch is open. -/
  | freeze (site : Site)
  /-- TILE_FROZEN (R323). Every accepted command has completed and every emitted token has left the tile, and FROZEN reads 1. -/
  | tileFrozen (site : Site)
  /-- THAW (R327). A write of 0 to FREEZE resumes the sequencers and the tile core in their saved or restored state. -/
  | thaw (site : Site)
  /-- SCAN_OUT (R325). GO with DIR = 0 on a frozen tile writes the selected parts as SCAN records to the scan address. -/
  | scanOut (site : Site) (ctl : Word)
  /-- SCAN_IN (R326). GO with DIR = 1 on a frozen tile reads each selected part twice, checks it, and restores the tile state. -/
  | scanIn (site : Site) (ctl : Word) (recs : List (List Word))
  /-- SCAN_DONE (R325). The last write of a scan is acknowledged and TC_SCAN_STAT.BUSY clears. -/
  | scanDone (site : Site)
  /-- BANK_GATE (R250). A write to SP_PWR.GATE requests that scratchpad banks be gated. -/
  | bankGate (site : Site) (gate : BitVec 16)
  /-- BANK_GATED (R250). No write to a requested bank remains outstanding. The bank is gated and its contents are discarded. -/
  | bankGated (site : Site) (bank : Fin 16)
  /-- BANK_WAKE_END (R251). A bank's wake ends and the held writes are applied. -/
  | bankWakeEnd (site : Site) (bank : Fin 16)
  /-- CACHE_CONFIG_WRITE (R425). A write to GL_RCCFG invalidates the whole reach cache and frees the prefetchers. -/
  | cacheConfigWrite (port : PortIx) (val : Word)
  /-- RANGE_CONFIG_WRITE (R414). A write to a GL_RORNGn field invalidates the whole reach cache. Lookups wait 512 port-tile cycles. -/
  | rangeConfigWrite (port : PortIx) (n : Fin 16) (k : Fin 3) (val : Word)
  /-- PREFETCH_CONFIG_WRITE (R425). A write to GL_PFCFG frees every prefetcher of the port. -/
  | prefetchConfigWrite (port : PortIx) (val : Word)
  /-- SHUTDOWN_TEST (R500). A write of BT_CTL.SHUTTEST starts the shutdown test, or is refused while a stream or a darning is active. -/
  | shutdownTest
  /-- SHUTDOWN_STEP_END (R501). A step of the shutdown test ends, and the next step of the test starts. -/
  | shutdownStepEnd (r : ShutResult)
  /-- SHUTDOWN_RECORD_ACK (R501). The WRACK for the signed result record arrives, and SDSTATE becomes DONE, or NOREC if the write was
  refused. -/
  | shutdownRecordAck (ok : Bool)
  /-- SLEEP (R567). ST_SLEEP with OP sleep scrubs an unclaimed enabled tile and powers its units down, or is refused. -/
  | sleep (site : BitVec 12)
  /-- WAKE (R567). ST_SLEEP with OP wake starts the wake of a sleeping tile, or is refused. -/
  | wake (site : BitVec 12)
  /-- WAKE_DONE (R477). A tile's wake ends, with its scratchpad zeroed and the void pattern in every group. -/
  | wakeDone (site : Site)
  /-- FW_CONFIRM (R529). New firmware sets ST_FW.CONFIRM. ACTIVE is written into the directory and FWSWITCH is answered OK. -/
  | fwConfirm
  /-- RV_INSTRUCTION (R190). The tile core executes a standard RV32IMC or Zicsr instruction, including loads and stores to the set-up
  space. -/
  | rvInstruction (site : Site) (ecc : CoreEcc)
  /-- INTERRUPT_TAKEN (R197). MEIP with MIE set causes the core to take the machine external interrupt, or to halt under HALTTRAP. -/
  | interruptTaken (site : Site)
  /-- WFI (R190). The core executes WFI and waits, taking any pending code switch. -/
  | wfi (site : Site)
  /-- WFI_WAKE (R190). MEIP or a code switch becomes pending, and the core leaves WFI. -/
  | wfiWake (site : Site)
  /-- BK_ISSUE (R201). The core reads a command from data memory and issues it to a unit's queue, waiting for room if needed. -/
  | bkIssue (site : Site) (ecc : CoreEcc)
  /-- BK_TRYISSUE (R202). The core issues a command only if the unit's queue has room, and writes 0 otherwise. -/
  | bkTryIssue (site : Site) (ecc : CoreEcc)
  /-- COMMAND_ACCEPT (R201). A queue entry frees, and a held BK.ISSUE's command is accepted and its ticket written. -/
  | commandAccept (site : Site)
  /-- BK_WAIT (R207). The core classifies a ticket and returns its status, or stalls until it completes. -/
  | bkWait (site : Site)
  /-- WAIT_RETIRE (R207). The awaited ticket completes, and a stalled BK.WAIT retires with its status word. -/
  | waitRetire (site : Site)
  /-- BK_POLL (R207). The core returns a ticket's status, or PENDING, without stalling. -/
  | bkPoll (site : Site)
  /-- BK_WAITU (R208). The core stalls until every core-issued command to the named units completes. -/
  | bkWaitu (site : Site)
  /-- WAITU_RETIRE (R208). The last awaited command completes, and BK.WAITU retires with the error summary, which it clears. -/
  | waituRetire (site : Site)
  /-- BK_YIELD (R196). The core executes BK.YIELD, a point at which a pending code switch is taken. -/
  | bkYield (site : Site)
  /-- UNIT_COMMAND_COMPLETE (R205). A unit command reaches its completion point, and its status word, ticket and error summary are
  updated in issue order. -/
  | unitCommandComplete (site : Site) (unit : UnitC)
  /-- MM (R92). An MM command starts: it stages and loads a weight block and streams input rows through the array on a fixed schedule. -/
  | mm (site : Site) (ph : Phys)
  /-- MMW (R96). An MMW command starts: it runs four 8-deep sub-passes over 128 columns, with fold transfers. -/
  | mmw (site : Site) (ph : Phys)
  /-- DIAG (R100). A DIAG command starts: it multiplies operands element by element on the diagonal cells under DMODE. -/
  | diag (site : Site) (ph : Phys)
  /-- EDGE_WORD_ADD (R114). An edge word presented by the MU is added exactly into its long accumulator element. -/
  | edgeWordAdd (site : Site) (ecc : Option EccKind)
  /-- ZERO (R123). An LA ZERO command clears the selected buffer rows. -/
  | zero (site : Site)
  /-- PRELOAD (R124). An LA PRELOAD command sets or adds exact values from the scratchpad or a tile register into the buffer rows. -/
  | preload (site : Site) (ph : Phys)
  /-- DRAIN (R126). An LA DRAIN command rounds the selected rows, with an optional fused operation, into the scratchpad or a tile
  register. -/
  | drain (site : Site) (ph : Phys)
  /-- EXPORT (R130). An LA EXPORT command rounds the selected rows to FP32 or BF16 and hands them to the shuttle's export queue. -/
  | exportRows (site : Site) (ph : Phys)
  /-- VC_OPERATION (R159). A vector chain operation starts and streams its beats through its function stages to the output. -/
  | vcOperation (site : Site) (ph : Phys)
  /-- TRF_YIELD_CYCLE (R139). After 16 consecutive refused cycles of the MU or LA, a yield cycle holds off the VC's register-port use. -/
  | trfYieldCycle (site : Site)
  /-- SF_FIELDS_APPLY (R181). An operation on the old SF copy completes, and held committed SF fields take effect. -/
  | sfFieldsApply (site : Site)
  /-- FILL (R214). An SP FILL command writes a 32-bit value to every word of the given rows. -/
  | fill (site : Site) (ph : Phys)
  /-- POKE (R214). An SP POKE command writes one 32-bit word of a row under a byte mask. -/
  | poke (site : Site) (ph : Phys)
  /-- SCRUB (R214). An SP SCRUB command zeroes rows with fresh check bits and clears their poison. -/
  | scrub (site : Site) (ph : Phys)
  /-- SPADV (R243). An SP SPADV command advances a spool's head or tail pointer, or is refused. -/
  | spadv (site : Site)
  /-- ECC_WRITEBACK (R238). A corrected word is written back in the next SVC write slot. -/
  | eccWriteback (site : Site)
  /-- PATROL_SCRUB (R240). Once per slot round, the patrol scrub reads and checks the next scratchpad row. -/
  | patrolScrub (site : Site) (ph : Phys)
  /-- PUT (R216). A shuttle PUT moves elements from local rows to a local, tile, warp or global destination, converting if required. -/
  | put (site : Site) (ph : Phys)
  /-- GET (R216). A shuttle GET moves elements from a global address into local rows. -/
  | get (site : Site) (ph : Phys)
  /-- SKEW (R216). A shuttle SKEW writes dense rows as skew lines at the destination. -/
  | skew (site : Site) (ph : Phys)
  /-- GATHER (R218). A shuttle GATHER copies indexed row items to the destination and skips bad items. -/
  | gather (site : Site) (ph : Phys)
  /-- EXPFWD (R219). A shuttle EXPFWD forwards rows from the LA export queue to destination rows, dense. -/
  | expfwd (site : Site) (ph : Phys)
  /-- SPLIT (R219). A shuttle SPLIT writes FP32 elements as 2 or 3 BF16 planes. -/
  | split (site : Site) (ph : Phys)
  /-- EXPFWD_ROW (R219). An exported row arrives in the queue, and the waiting EXPFWD converts and writes it. -/
  | expfwdRow (site : Site) (ph : Phys)
  /-- INCOMING_TRANSFER (R244). The first row of an incoming tile or warp transfer arrives and is accepted or refused against its spool.
  -/
  | incomingTransfer (site : Site) (x : Transfer)
  /-- DATA_ROW_WRITE (R344). An arrived DATA or RWR row is written in an SH-IN slot and acknowledged. -/
  | dataRowWrite (site : Site) (d : DataRow) (ph : Phys)
  /-- ACK (R337). An ACK for a row arrives at the sending tile, which counts the row accepted or refused toward completion. -/
  | ack (site : Site) (src : Site) (row : BitVec 12) (status : BitVec 2)
  /-- WARP_ACK (R275). A warp row acknowledgement or returned credit reaches the sender. -/
  | warpAck (site : Site) (a : WarpAck)
  /-- WARP_WORD_HOLD (R277). A warp word is held at its warp neighbour or at a fifth pass register, and is delivered or sent on. -/
  | warpWordHold (site : Site) (w : WarpWord)
  /-- TOKEN_ARRIVE (R262). A token arrives at a tile queue and is queued or dropped. -/
  | tokenArrive (site : Site) (unit : BitVec 4) (queue : BitVec 3) (tok : BitVec 64) (src : TokSrc)
  /-- HEAD_TOKEN_DROP (R312). A head token whose epoch or marker is unusable is dropped and counted. -/
  | headTokenDrop (site : Site) (unit : BitVec 4) (queue : BitVec 3)
  /-- SEQ_FIRE (R270). A sequencer fires: it pops needed tokens, reserves credits, builds a command and advances its counters. -/
  | seqFire (site : Site) (unit : UnitC)
  /-- DROPPED_FIRING_EMIT (R448). A dropped firing emits its poisoned tokens in firing order. -/
  | droppedFiringEmit (site : Site) (unit : BitVec 4)
  /-- CREDIT_ARRIVE (R265). A returned credit arrives at an output port, which adds it or discards it. -/
  | creditArrive (site : Site) (unit : BitVec 4) (port : BitVec 2) (count : BitVec 5) (gen : Nat)
  /-- STEER_PAIR_FIRE (R280). A PAIR-mode steering unit pops its control and data tokens and forwards them by the selection. -/
  | steerPairFire (site : Site) (su : Fin 4)
  /-- STEER_MERGE_FIRE (R281). A MERGE-mode steering unit forwards the token of the queue that the control token selects. -/
  | steerMergeFire (site : Site) (su : Fin 4)
  /-- PATTERN_RECORD (R304). A pattern record arrives at the pattern port, is checked, and is written to the standby slot or to
  instruction memory. -/
  | patternRecord (site : Site) (rec : List Word)
  /-- PATTERN_END_RECORD (R304). An END record arrives. The tile checks completeness and the epoch, and answers ARMED or FAILED. -/
  | patternEndRecord (site : Site) (rec : List Word)
  /-- ACTIVE_IMAGE_CHECK (R305). Every 2^20 cycles, the active images are rechecked. A failed group loads its void pattern and raises a
  pattern fault. -/
  | activeImageCheck (site : Site) (flips : List ImageFlip)
  /-- STITCH_OPEN (R306). OPEN reaches a tile, which enters LOADING or answers FAILED BUSY. -/
  | stitchOpen (site : Site) (stitch : BitVec 16) (epoch : BitVec 4)
  /-- ARMED (R307). The steward receives ARMED, and sends COMMIT once every participant is armed. -/
  | armed (site : Site) (stitch : BitVec 16)
  /-- FAILED (R307). The steward receives FAILED and aborts the stitch. -/
  | failed (site : Site) (stitch : BitVec 16) (cause : BitVec 8)
  /-- STITCH_COMMIT (R313). COMMIT reaches an armed tile. Its named groups get switch points and the WF group switches. -/
  | stitchCommit (site : Site) (stitch : BitVec 16)
  /-- STITCH_ABORT (R306). ABORT reaches a tile, which rebuilds the named standby slots from the active ones and returns to IDLE. -/
  | stitchAbort (site : Site) (stitch : BitVec 16)
  /-- SWITCHED (R307). The steward receives SWITCHED from a participant. -/
  | switched (site : Site) (stitch : BitVec 16)
  /-- ARM_TIMEOUT (R307). A participant has not answered within ARMTMO, and the steward aborts the stitch. -/
  | armTimeout (stitch : BitVec 16)
  /-- SWITCH_TIMEOUT (R307). A participant has not sent SWITCHED within SWTMO, and a stitch-stalled event is raised. -/
  | switchTimeout (stitch : BitVec 16)
  /-- GROUP_SWITCH (R314). A named group switches at commit, run end or marker: it pops markers, emits EMARKs and activates the standby
  slot. -/
  | groupSwitch (site : Site) (g : Fin 8)
  /-- RE_EPOCH (R316). An unnamed running group with re-epoch markers at its needed queues pops them, forwards EMARKs and adopts NEW. -/
  | reEpoch (site : Site) (g : Fin 8)
  /-- DEADLOCK_WINDOW_END (R318). At each window end, tiles report PROG and BLOCKED, and the steward may declare a weave deadlocked. -/
  | deadlockWindowEnd
  /-- SPILL (R319). SPILL reaches a tile, which writes its full spillable queues to the spill spool, returns credits and reports
  SPILLED. -/
  | spill (site : Site)
  /-- SPILL_TOKEN_READ (R320). A needed spilled token's row is read back in an SVC slot, and the token becomes present. -/
  | spillTokenRead (site : Site) (unit : BitVec 4) (queue : BitVec 3) (ph : Phys)
  /-- BUDGET_PERIOD_START (R356). Every 10 us, a new budget period starts. Buckets refill and per-link counts restart. -/
  | budgetPeriodStart (power : BitVec 11)
  /-- PACKET_INJECT (R358). A packet is injected into the weft once its class bucket holds enough flits. -/
  | packetInject (pt : InjPoint) (cls : Fin 8)
  /-- FLIT_RECEIVE (R342). A weft router receives a flit on a link and buffers, routes, detours or multicasts it. -/
  | flitReceive (site : Site) (side : Fin 4) (flit : Flit)
  /-- FMAP_HOLD_RELEASE (R351). 250 ns after a fault-map change, held VC0 and VC1 packets are injected on their new paths. -/
  | fmapHoldRelease (site : Site)
  /-- PACKET_HEAD_TIMEOUT (R352). A partly received packet sees no flit for 2 us, and is discarded with a DROP to its source. -/
  | packetHeadTimeout (site : Site) (side : Fin 5) (vch : Fin 4)
  /-- DROP (R352). A DROP reaches the source, and the named row counts as refused, or the token or credit is counted lost. -/
  | drop (site : Site) (src : Site) (kind : BitVec 4) (row : BitVec 12)
  /-- GL_FLIT_RECEIVE (R381). A Glitis flit arrives on a lane group and is checked, acknowledged or NAKed, and sorted by type and
  stripe. -/
  | glFlitReceive (port : PortIx) (g : Fin 8) (flit : GlFlit)
  /-- HEADER_RECEIVE (R376). An incoming header is checked, and is discarded and answered REFUSED if it is invalid. -/
  | headerReceive (port : PortIx) (role : BitVec 2) (hdr : BitVec 256)
  /-- RETRAIN (R383). LCTL RETRAIN names a lane group to be retrained. -/
  | retrain (port : PortIx) (g : BitVec 8)
  /-- RETRAINACK (R383). LCTL RETRAINACK confirms the retrain, and phase training of the group starts. -/
  | retrainAck (port : PortIx) (g : BitVec 8)
  /-- GROUP_TEST_END (R384). The group's pattern test ends, and the outcome of spare use or removal is decided. -/
  | groupTestEnd (port : PortIx) (g : Fin 8) (r : GroupTest)
  /-- RESULT (R384). LCTL RESULT exchanges the retrain outcome of a group. -/
  | result (port : PortIx) (g : BitVec 8) (outcome : BitVec 8)
  /-- RESTART (R383). LCTL RESTART returns the group to its stripe, or removes it. -/
  | restart (port : PortIx) (g : BitVec 8)
  /-- STRIPE (R379). LCTL STRIPE closes a role's old stripe and starts the count of the new one. -/
  | stripe (port : PortIx) (role : BitVec 8) (map : BitVec 8)
  /-- ROLES (R525). LCTL ROLES exchanges the role map, and the new stripes start. -/
  | roles (port : PortIx) (map : BitVec 16)
  /-- PLL_LOCK_LOSS (R386). The port PLL loses lock, and the port goes DOWN. -/
  | pllLockLoss (port : PortIx)
  /-- ALIVE_LOSS (R386). ALIVE from the backing stays low for 1 us, and the port goes DOWN. -/
  | aliveLoss (port : PortIx)
  /-- TRN_PULSE (R386). A TRN pulse arrives, and the port goes DOWN. -/
  | trnPulse (port : PortIx)
  /-- PORT_RESTART (R386). A DOWN port restarts from PLL lock, or stays DOWN after three failed restarts and raises a port fault. -/
  | portRestart (port : PortIx)
  /-- PLL_LOCK (R387). The port PLL locks, the port drives ALIVE and moves to TRAIN. -/
  | pllLock (port : PortIx)
  /-- PORT_TRAIN_END (R387). Port training ends. Spares are assigned, and the port enters DISCOVER or stays DOWN. -/
  | portTrainEnd (port : PortIx) (offered : BitVec 8) (tests : List GroupTest)
  /-- ANNOUNCE_RESEND (R388). Every 10 ms until COMMIT, the steward sends ANNOUNCE to the hub. -/
  | announceResend
  /-- ASSIGN (R390). ASSIGN sets the die slot and package number, or is discarded if it would change them. -/
  | assign (port : PortIx) (msgver : BitVec 8) (slot : BitVec 4) (pkg : BitVec 12)
  /-- DISCOVERY_COMMIT (R390). COMMIT sets the feature map and protocol cap, moves the ports to UP and is answered with COMMITACK. -/
  | discoveryCommit (port : PortIx) (msgver : BitVec 8) (cap : BitVec 8) (feat : BitVec 64)
  /-- K2_FLIT (R395). K2 flits arriving at a port are injected as a VC3 packet toward the destination port, or are discarded. -/
  | k2Flit (port : PortIx) (ftarg : BitVec 16) (body : List Byte)
  /-- K2_DELIVER (R395). A K2 weft packet at its destination port is sent to the backing as K2 flits. -/
  | k2Deliver (port : PortIx) (src : PortIx) (arg : BitVec 24) (body : List Byte)
  /-- GREQ (R413). A read request reaches the port, which looks it up as a hit, a waiting or new fill, or an uncached read. -/
  | greq (port : PortIx) (src : Site) (h : ReachHdr) (ecc : Option EccKind)
  /-- PREQ (R414). A write request reaches the port, which invalidates overlapping sectors and sends a WR. -/
  | preq (port : PortIx) (src : Site) (h : ReachHdr) (data : List Byte) (poison : List Bool)
  /-- FILL_RESPONSE (R413). An RDRSP completes, the sector is installed if allowed, and GDATA goes to the waiting requests. -/
  | fillResponse (port : PortIx) (tag : BitVec 12) (status : BitVec 3) (data : List Byte) (bad : List Bool)
  /-- WRACK (R408). A WRACK reaches the port, which sends PDONE to the tile. -/
  | wrack (port : PortIx) (tag : BitVec 12) (status : BitVec 3)
  /-- GDATA (R406). Read data or a refusal reaches the tile and is written to local rows. -/
  | gdata (site : Site) (rtag : BitVec 12) (status : BitVec 3) (data : List Byte) (poison : List Bool)
  /-- PDONE (R406). A write result reaches the tile and counts toward the command's completion. -/
  | pdone (site : Site) (rtag : BitVec 12) (status : BitVec 3)
  /-- PREFETCH_ISSUE (R418). A trained prefetcher sends a prefetch RD when no demand read waits and PFMAX allows. -/
  | prefetchIssue (port : PortIx)
  /-- PREFETCHER_TIMEOUT (R417). A prefetcher that has not advanced for 20 us is freed. -/
  | prefetcherTimeout (port : PortIx) (n : Fin 16)
  /-- INCOMING_RD (R419). An incoming RD for the die is split into RRD packets to the site, or answered UNMAPPED. -/
  | incomingRd (port : PortIx) (tag : BitVec 12) (addr : GAddr) (len : BitVec 10) (orig : Bool)
  /-- INCOMING_WR (R419). An incoming WR for the die is split into RWR packets to the site, or answered UNMAPPED. -/
  | incomingWr (port : PortIx) (tag : BitVec 12) (addr : GAddr) (orig : Bool) (data : List Byte) (bad : List Bool)
  /-- RRD (R419). A tile checks an incoming read against its windows and answers with RRSP. -/
  | rrd (site : Site) (port : PortIx) (h : ReachHdr) (ph : Phys)
  /-- RWR (R419). A tile checks an incoming write against its windows, writes it and answers with RRSP. -/
  | rwr (site : Site) (port : PortIx) (h : ReachHdr) (data : List Byte) (poison : Bool)
  /-- RRSP (R419). A tile's answer reaches the port, which sends RDRSP or WRACK once all parts have answered. -/
  | rrsp (port : PortIx) (rtag : BitVec 12) (status : BitVec 3) (data : List Byte) (poison : Bool)
  /-- INV (R410). An INV invalidates the cached sectors of a range. -/
  | inv (port : PortIx) (tag : BitVec 12) (addr : GAddr) (nsec : BitVec 32)
  /-- INVACK (R410). No sector of the range is valid or can still be installed, and INVACK is sent. -/
  | invack (port : PortIx) (tag : BitVec 12)
  /-- STREAM_END_INVALIDATE (R414). A stream's end reaches a port. Its sectors are invalidated, its prefetchers freed and done reported.
  -/
  | streamEndInvalidate (port : PortIx) (stream : StreamNo)
  /-- DOORBELL (R434). A DOORBELL advances PIDX, or is ignored as stale or as an overrun. -/
  | doorbell (stream : StreamNo) (n : Word)
  /-- EVENT (R431). An EVENT message raises the stream's EVT count. -/
  | event (stream : StreamNo) (inc : Word)
  /-- START (R432). A START makes the loom read the stream's context record, or is answered BUSY. -/
  | start (stream : StreamNo) (addr : BitVec 64)
  /-- CONTEXT_RECORD (R432). The context record arrives and is accepted, making the stream RUNNING, or is refused. -/
  | contextRecord (stream : StreamNo) (status : BitVec 3) (data : List Byte) (poison : Bool)
  /-- KILL (R450). A KILL makes the stream KILLING, aborts its pending descriptors and starts releasing its tiles. -/
  | kill (stream : StreamNo)
  /-- KILL_COMPLETE (R450). Releases and port invalidations end, and the context becomes IDLE with STATE sent. -/
  | killComplete (stream : StreamNo)
  /-- RESUME (R449). A RESUME thaws the stream's tiles and returns it to RUNNING. -/
  | resume (stream : StreamNo)
  /-- LOOM_STEP (R445). A step engine runs one bounded step of a ready stream. -/
  | loomStep (stream : StreamNo)
  /-- FETCH_RESPONSE (R435). Fetched descriptor slots arrive, or a failed fetch is scheduled for retry. -/
  | fetchResponse (stream : StreamNo) (status : BitVec 3) (data : List Byte) (poison : Bool)
  /-- FETCH_RETRY (R436). 10 us after a failed fetch, the loom retries it once, and halts the stream if it fails again. -/
  | fetchRetry (stream : StreamNo)
  /-- NOP (R437). A NOP descriptor completes OK. -/
  | nop (stream : StreamNo)
  /-- CLAIM (R442). A CLAIM descriptor claims free enabled sites and sets their stream, buckets and stochastic settings. -/
  | claim (stream : StreamNo)
  /-- RELEASE (R443). A RELEASE descriptor releases the listed sites that the stream holds. -/
  | release (stream : StreamNo)
  /-- DESC_STITCH (R438). A STITCH descriptor opens a stitch and sends the image's records to the listed sites. -/
  | descStitch (stream : StreamNo)
  /-- TOKENS (R437). A TOKENS descriptor sends the listed tokens to a site's queues under credit. -/
  | tokens (stream : StreamNo)
  /-- SLICE (R439). A SLICE descriptor sends address tokens for a series of tensor chunks. -/
  | slice (stream : StreamNo)
  /-- WAIT (R437). A WAIT descriptor checks EVT against VALUE and completes or parks. -/
  | wait (stream : StreamNo)
  /-- WAIT_TIMEOUT (R437). A WAIT runs past TMO and completes TIMEOUT. -/
  | waitTimeout (stream : StreamNo)
  /-- END (R450). An END descriptor makes the stream ENDING and releases every tile. -/
  | endStream (stream : StreamNo)
  /-- WRITEBACK_ACK (R435). The WRACK of a descriptor's status write-back arrives, and CIDX advances. -/
  | writebackAck (stream : StreamNo) (status : BitVec 3)
  /-- LOOM_CREDIT (R444). A CREDIT from a tile refills one of the loom's token counters for that site. -/
  | loomCredit (site : Site) (port : BitVec 2) (count : BitVec 5)
  /-- ERROR_REPORT (R447). A tile's per-class error counts reach the loom and are added to the context. -/
  | errorReport (site : Site)
  /-- FAULT (R460). A FAULT reaches the steward, which logs it and applies the policy of its code. -/
  | fault (site : Site) (f : FaultMsg)
  /-- WATCHDOG (R458). A unit or core watchdog count reaches 2^LIMLOG, and the tile raises WATCHDOG. -/
  | watchdog (site : Site) (unit : BitVec 4)
  /-- FAULT_COUNT_RESET (R460). At each whole second, the per-site fault counts restart. -/
  | faultCountReset
  /-- PING_RECEIVE (R459). A site receives PING and answers PONG. -/
  | pingReceive (site : Site) (poll : Word)
  /-- PONG (R459). The steward receives a PONG for a poll. -/
  | pong (site : Site) (poll : Word)
  /-- SILENT_TIMEOUT (R459). A site has answered neither of two PINGs by 2 us after the second, and SILENT is raised. -/
  | silentTimeout (site : Site)
  /-- HEM (R462). A HEM message fences a tile's compute section, its whole site or its port, and discards the tile's commands. -/
  | hem (site : Site) (kind : BitVec 8)
  /-- SEGHOLD (R463). Segment tiles stop firing and answer SEGHELD. -/
  | seghold (site : Site) (stream : StreamNo) (weave : BitVec 16)
  /-- SEGHELD (R463). The steward receives SEGHELD and tells the loom to stop tokens to that site. -/
  | segheld (site : Site)
  /-- DARN_ENTRY_READ (R471). The darning table entry arrives. The chosen spare is woken and the stitch opened. -/
  | darnEntryRead (status : BitVec 3) (data : List Byte) (poison : Bool)
  /-- DARN_RESTREAM (R471). After the spare switches, its shuttle fetches the resident rows from WEIGHTS. -/
  | darnRestream (site : Site)
  /-- READY (R471). The spare's last re-stream GET completes, and it sends READY. -/
  | ready (site : Site)
  /-- GO (R471). GO reaches the spare, which ends its ready handshake. -/
  | go (site : Site)
  /-- SEGGO (R463). The held segment fires again, and the loom resends cut-off chunks. -/
  | seggo (site : Site) (stream : StreamNo) (weave : BitVec 16)
  /-- SLICE_START (R494). Every BT_CFG.PERIOD ms, the steward checks conditions and starts the next self-test slice, freezing if needed.
  -/
  | sliceStart (c : SliceCond)
  /-- SLICE_FREEZE_TIMEOUT (R491). FROZEN does not read 1 within 4 us. The tile thaws and the slice is deferred. -/
  | sliceFreezeTimeout
  /-- SLICE_TEST_END (R491). The item's test time ends. Conditions are rechecked and the restore begins. -/
  | sliceTestEnd (r : SliceTest) (c : SliceCond)
  /-- SLICE_END (R495). The restore ends. The tile thaws and the slice's result is reported. -/
  | sliceEnd (dur : SliceDone)
  /-- IDCODE (R552). The TAP instruction IDCODE selects the 32-bit identity register. -/
  | idcode
  /-- SAMPLE_PRELOAD (R553). The TAP instruction SAMPLE/PRELOAD selects the die wrapper register, in reset only. -/
  | samplePreload (cells : Boundary)
  /-- EXTEST (R553). The TAP instruction EXTEST drives and captures the die wrapper register, in reset only. -/
  | extest (cells : Boundary)
  /-- SITESEL (R553). The TAP instruction SITESEL selects a site wrapper, when MFGTEST is unblown or DBGEN is set. -/
  | sitesel (site : WrapperSel)
  /-- WSP (R553). The TAP instruction WSP reaches the selected site's IEEE 1500 serial port, when permitted. -/
  | wsp
  /-- FUSERD (R553). The TAP instruction FUSERD reads the fuse map, with the secret fuses read as zero. -/
  | fuserd
  /-- BYPASS (R552). The TAP instruction BYPASS, or any unlisted code, selects the 1-bit bypass register. -/
  | bypass (code : BypassShift)
  /-- MAILBOX_POLL (R528). Every 20 us, the steward reads the mailbox slot headers and serves new requests. -/
  | mailboxPoll (hdrs : List (List Byte))
  /-- REGRD (R528). A mailbox REGRD reads set-up words into the slot. -/
  | regrd (slot : Fin 4)
  /-- REGWR (R528). A mailbox REGWR writes set-up words, subject to the lock. -/
  | regwr (slot : Fin 4) (data : List Word)
  /-- ATTEST (R520). A mailbox ATTEST request queues the signing of an attestation report over its nonce. -/
  | attest (slot : AttestReq)
  /-- ATTEST_DONE (R520). A signed attestation report is written to its slot, or NOKEY is returned. -/
  | attestDone (slot : Fin 4)
  /-- FWLOAD (R529). A mailbox FWLOAD starts checking a new manifest and loading its image into the standby region. -/
  | fwload (slot : Fin 4)
  /-- FWLOAD_DONE (R529). The standby load ends OK, or with VERIFY and the region cleared. -/
  | fwloadDone (slot : Fin 4) (man : List Byte) (image : List Byte)
  /-- FWSWITCH (R529). A mailbox FWSWITCH requests the switch to the standby image, or is answered BUSY. -/
  | fwswitch (slot : Fin 4)
  /-- FW_SWITCH_EXECUTE (R529). With no stitch or darning open, the steward hands over and jumps to the standby region. -/
  | fwSwitchExecute
  /-- FW_CONFIRM_TIMEOUT (R529). CONFIRM is not set within 1 s. Hardware reverts to the previous region and sets REVERTED. -/
  | fwConfirmTimeout
  /-- DRD (R527). A role D read of set-up words is answered with DRSP. -/
  | drd (port : PortIx) (tag : BitVec 12) (addr : GAddr) (len : BitVec 10)
  /-- DWR (R527). A role D write of set-up words is performed word by word and answered with DRSP. -/
  | dwr (port : PortIx) (tag : BitVec 12) (addr : GAddr) (data : List Byte)
  /-- ALIVE_SEEN (R387). The port sees ALIVE from the backing rise, and once both sides see ALIVE it proceeds to phase training. -/
  | aliveSeen (port : PortIx)
  /-- LIST_READ_RESPONSE (R441). The response to a loom read of a descriptor's list or stitch image arrives; the stream becomes ready,
  or the descriptor completes LISTERR on a failed or poisoned read. -/
  | listReadResponse (stream : StreamNo) (status : BitVec 3) (data : List Byte) (poison : Bool)
  /-- DARN_IMAGE_READ (R471). The darning image arrives at the steward, which sends its records to the spare as PATTERN packets, or
  retries a refused read once and otherwise fails the darning. -/
  | darnImageRead (status : BitVec 3) (data : List Byte) (poison : Bool)
  /-- KILL_SCRUB_DONE (R253). The kill scrub of a released or sleeping tile ends, and the tile is reported ready for reassignment or
  powers down. -/
  | killScrubDone (site : Site)
  /-- SPILLED (R322). The steward receives a tile's SPILLED report and raises a deadlock fault if the tile found no room. -/
  | spilled (site : Site)
deriving DecidableEq, Repr

end Sys2Proof
end

