-- ==== Sys2Proof/Decode.lean ====
section
/-! DEFINITION. The command that a word spells: no row of spec/opcode_table.json gives bits, and the one instruction code that the spec
gives a command is the 8-bit code of the TAP (R552). -/

namespace Sys2Proof

/-- The TAP instruction of a code (R552): a code not listed acts as BYPASS. What is shifted through its register comes after the code. -/
def tapInstr (c : BitVec 8) : Instr :=
  if c = 0x01 then .idcode
  else if c = 0x02 then .samplePreload ⟨[], []⟩
  else if c = 0x03 then .extest ⟨[], []⟩
  else if c = 0x10 then .sitesel ⟨0, []⟩
  else if c = 0x11 then .wsp
  else if c = 0x20 then .fuserd
  else .bypass ⟨c, []⟩

/-- A word of 8 bits is a TAP instruction; no other spells a command. -/
def decodeTableWord (nbits w : Nat) : Option Instr := if nbits = 8 then some (tapInstr (BitVec.ofNat 8 w)) else none

end Sys2Proof
end

