-- ==== Sys2Proof/Machine/Map.lean ====
section
/-! DEFINITION. Sparse maps and memories as plain data in one canonical form: keys strictly rising, and no entry equal to
what an unlisted key reads as. A memory is the map of bytes whose unlisted bytes read zero (assumption 4). -/

namespace Sys2Proof.Machine

/-- A sparse map from numbers; what an unlisted key reads as is given where the map is used. -/
abbrev Map (α : Type) := List (Nat × α)

/-- What key `k` reads as, `d` saying what unlisted keys read as. -/
def Map.get {α : Type} (d : Nat → α) : Map α → Nat → α
  | [], k => d k
  | (j, v) :: m, k => if k = j then v else Map.get d m k

/-- An entry put before the first larger key. -/
def Map.insert {α : Type} (k : Nat) (v : α) : Map α → Map α
  | [] => [(k, v)]
  | (j, u) :: m => if k < j then (k, v) :: (j, u) :: m else (j, u) :: Map.insert k v m

/-- The map without key `k`. -/
def Map.drop {α : Type} (m : Map α) (k : Nat) : Map α := m.filter fun e => e.1 != k

/-- Key `k` set to `v`; a value that an unlisted key reads as takes no entry. -/
def Map.set {α : Type} [DecidableEq α] (d : Nat → α) (m : Map α) (k : Nat) (v : α) : Map α :=
  if v = d k then Map.drop m k else Map.insert k v (Map.drop m k)

/-- Key `k` changed by `f`. -/
def Map.upd {α : Type} [DecidableEq α] (d : Nat → α) (m : Map α) (k : Nat) (f : α → α) : Map α :=
  Map.set d m k (f (Map.get d m k))

/-- Many keys set, in order. -/
def Map.setAll {α : Type} [DecidableEq α] (d : Nat → α) (m : Map α) (kvs : List (Nat × α)) : Map α :=
  kvs.foldl (fun m kv => Map.set d m kv.1 kv.2) m

/-- The map without the keys from `a` up to and not including `b`. -/
def Map.clear {α : Type} (m : Map α) (a b : Nat) : Map α := m.filter fun e => e.1 < a || b ≤ e.1

/-- The canonical form: keys strictly rising, no entry that reads as an unlisted key does. -/
def Map.wf {α : Type} [DecidableEq α] (d : Nat → α) : Map α → Bool
  | [] => true
  | [(k, v)] => v ≠ d k
  | (k, v) :: (j, u) :: m => v ≠ d k && k < j && Map.wf d ((j, u) :: m)

/-- A byte memory: the cells that do not read zero, addresses strictly rising. -/
abbrev Memory := List Host.Cell

/-- What a byte of memory that nothing has written reads as: zero (assumption 4, DESIGN CHOICE; after a kill scrub or a
wake the spec's own zero, R253, R258). -/
def Memory.unwritten : Nat → Byte := fun _ => 0

/-- One byte of a memory. -/
def Memory.read (m : Memory) (a : Nat) : Byte := Map.get Memory.unwritten m a

/-- One byte written. -/
def Memory.write (m : Memory) (a : Nat) (b : Byte) : Memory := Map.set Memory.unwritten m a b

/-- `n` bytes from address `a` on. -/
def Memory.readBytes (m : Memory) (a n : Nat) : List Byte := (List.range n).map fun i => Memory.read m (a + i)

/-- The nonzero cells of a byte list laid from address `a` on. -/
def Memory.cells : Nat → List Byte → Memory
  | _, [] => []
  | a, b :: bs => if b = 0 then Memory.cells (a + 1) bs else (a, b) :: Memory.cells (a + 1) bs

/-- The cells below `a`, the new bytes, the cells from `a + bs.length` on. -/
def Memory.writeBytes (m : Memory) (a : Nat) (bs : List Byte) : Memory :=
  m.filter (fun c => c.1 < a) ++ Memory.cells a bs ++ m.filter (fun c => a + bs.length ≤ c.1)

/-- Every byte from `a` up to and not including `b` made zero. -/
def Memory.zero (m : Memory) (a b : Nat) : Memory := m.filter fun c => c.1 < a || b ≤ c.1

/-- The canonical form of a memory. -/
def Memory.wf (m : Memory) : Bool := Map.wf Memory.unwritten m

end Sys2Proof.Machine
end

