-- ==== Sys2Proof/Machine/State.lean ====
section
/-! DEFINITION. The state of the chiplet as plain data: everything the spec gives the block, the queue of waiting commands,
what has been sent to the backing and hub, and the model's own counters; its value at reset; faults and refusals. -/

namespace Sys2Proof.Machine

/-- Why a step stops with a fault. No command of the model raises one: every row of the table leaves a next state. -/
inductive Fault where
  /-- Raised by nobody: no row of the spec's table stops the block (safe). -/
  | stopped
deriving DecidableEq, Repr

/-- Why a step is refused. -/
inductive Refusal where
  /-- Raised by an arm of `exec` whose command has no meaning yet (safe: the machine stops). -/
  | notModelled (mnemonic : String)
deriving DecidableEq, Repr

/-! ## Packets of the weft and messages to the backing -/

/-- The control messages of the weft on VC0 (R306, R318, R319, R443, R447, R457). -/
inductive CtrlMsg where
  | openStitch (stitch : BitVec 16) (new : BitVec 4)
  | armed (stitch : BitVec 16)
  | failed (stitch : BitVec 16) (cause : BitVec 8)
  | commit (stitch : BitVec 16)
  | abort (stitch : BitVec 16)
  | switched (stitch : BitVec 16)
  | spill (weave : BitVec 16)
  | spilled (noRoom : Bool)
  | fault (f : FaultMsg)
  | ping (poll : Word)
  | pong (poll : Word)
  | hem (kind : BitVec 8)
  | seghold (stream : StreamNo) (weave : BitVec 16)
  | segheld
  | go
  | seggo (stream : StreamNo) (weave : BitVec 16)
  | streamMsg (mtype : BitVec 8) (stream : StreamNo) (arg0 : Word) (arg1 : BitVec 64)
  | release (stream : StreamNo)
  | errors (counts : List Nat)
deriving DecidableEq, Repr

/-- What a weft packet carries, by KIND (R337, R407); the data of PREQ and GDATA with the poison of each flit that carries it
(R406). -/
inductive PktBody where
  | data (d : DataRow)
  | ack (row : BitVec 12) (status : BitVec 2)
  | token (unit : BitVec 4) (queue : BitVec 3) (tok : BitVec 64) (src : TokSrc)
  | credit (unit : BitVec 4) (port : BitVec 2) (count : BitVec 5) (gen : Nat)
  | ctrl (m : CtrlMsg)
  | pattern (rec : List Word)
  | drop (kind : BitVec 4) (row : BitVec 12)
  | greq (h : ReachHdr)
  | preq (h : ReachHdr) (data : List Byte) (poison : List Bool)
  | gdata (rtag : BitVec 12) (status : BitVec 3) (data : List Byte) (poison : List Bool)
  | pdone (rtag : BitVec 12) (status : BitVec 3)
  | rrd (h : ReachHdr)
  | rwr (h : ReachHdr) (data : List Byte) (poison : Bool)
  | rrsp (rtag : BitVec 12) (status : BitVec 3) (data : List Byte) (poison : Bool)
  | k2 (arg : BitVec 24) (body : List Byte)
deriving DecidableEq, Repr

/-- Where a packet goes: a site, a management attachment, a port's reach path, or every site of rectangles (R336, R354). -/
inductive Dest where
  | site (s : Site)
  | att (a : FieldNo)
  | port (p : PortIx)
  | rects (l : List (Nat × Nat × Nat × Nat))
deriving DecidableEq, Repr

/-- A weft packet: where it enters, where it goes, its budget class, its length in flits and its body (R337, R357); of a pattern
record, which packet (R303); of an answer to a reach request, the request's header (R407); and whether it stands whole in the ejection
buffer of its destination (R344). -/
structure Pkt where
  src : InjPoint
  dst : Dest
  cls : Fin 8
  flits : Nat
  body : PktBody
  part : Nat := 0
  hdr : Option ReachHdr := none
  whole : Bool := false
deriving DecidableEq, Repr

/-- What the chiplet sends over its pads, oldest first in `State.out` (R367 to R376, R430, R538, R547, R552): of the die wrapper register
`cells` are those shifted out, and `drive` those that drive their pads (R554). -/
inductive Out where
  | trn (port : PortIx)
  | flit (port : PortIx) (g : Fin 8) (f : GlFlit)
  | lctl (port : PortIx) (op : BitVec 8) (body : List Byte)
  | rd (port : PortIx) (tag : BitVec 12) (addr : GAddr) (len : BitVec 10)
  | wr (port : PortIx) (tag : BitVec 12) (addr : GAddr) (data : List Byte) (bad : List Bool)
  | rdrsp (port : PortIx) (tag : BitVec 12) (orig : Bool) (status : BitVec 3) (data : List Byte) (bad : List Bool)
  | wrack (port : PortIx) (tag : BitVec 12) (orig : Bool) (status : BitVec 3)
  | invack (port : PortIx) (tag : BitVec 12)
  | refused (port : PortIx) (op : BitVec 8) (tag : BitVec 12) (orig : Bool)
  | drsp (port : PortIx) (tag : BitVec 12) (status : BitVec 3) (data : List Byte)
  | msg (port : Option PortIx) (mtype : BitVec 8) (stream : StreamNo) (arg0 : Word) (arg1 : BitVec 64) (vec : BitVec 8)
  | k2 (port : PortIx) (ftarg : BitVec 16) (body : List Byte)
  | loomRd (port : Option PortIx) (stream : StreamNo) (addr : Nat) (len : Nat)
  | loomWr (port : Option PortIx) (stream : StreamNo) (addr : Nat) (data : List Byte)
  | stewardRd (port : Option PortIx) (addr : Nat) (len : Nat)
  | stewardWr (port : Option PortIx) (addr : Nat) (data : List Byte)
  | announce (port : PortIx) (body : List Byte)
  | commitAck (port : PortIx) (cap : BitVec 8) (feat : BitVec 64)
  | vid (f : FieldNo) (code : BitVec 6) (vreq : Bool)
  | thermtrip
  | tdo (bits : List Bool)
  | cells (l : List (Nat × Bool))
  | drive (cells : Map Bool)
deriving DecidableEq, Repr

/-! ## The units of a tile -/

/-- One value for each command unit (R199). -/
structure PerUnit (α : Type) where
  mu : α
  la : α
  vc : α
  sp : α
  sh : α
deriving DecidableEq, Repr

/-- Where a command comes from: the core, with the fence it waits for (unit code and the number of core commands of that
unit that must have completed), or a sequencer's firing (R204, R210, R271); `old` is a core command whose ticket the void
pattern of the TC group has forgotten (R225). -/
inductive CmdSrc where
  | core (fence : List (Nat × Nat)) (badFence : Bool)
  | seq (firing : Nat)
  | old
deriving DecidableEq, Repr

/-- A command in a unit's queue: its words, its source, and the number of MU or LA commands accepted before it, which
R120 and R121 compare. -/
structure Cmd where
  words : List Word
  src : CmdSrc
  stamp : Nat
deriving DecidableEq, Repr

/-- A command that has started: its status so far, VALUE, what it still waits for (R205, R206), and for an operation with an
SF stage the number of commits of SF fields before it started (R181), of an LA command the buffer rows still to be passed
(R121), and of an operation of the VC the tile cycles in which it uses the register ports, with the rows it reads and writes (R139). -/
structure Run where
  cmd : Cmd
  malformed : Bool := false
  aborted : Bool := false
  dataerr : Bool := false
  conflict : Bool := false
  refused : Bool := false
  errRaised : Bool := false
  numeric : Bool := false
  value : BitVec 16 := 0
  left : Nat := 0
  writes : List (Nat × Nat) := []
  reads : List (Nat × Nat) := []
  acks : List (Nat × Nat) := []
  sf : Option Nat := none
  rowsDue : Nat := 0
  trf : List (Nat × Nat × Nat) := []
deriving DecidableEq, Repr

/-- A unit's queue, its commands in progress, and the counts and statuses that tickets refer to (R199, R204 to R208). -/
structure UnitSt where
  queue : List Cmd
  running : List Run
  issued : Nat
  done : Nat
  kept : List (Nat × Word)
  errSum : Bool
deriving DecidableEq, Repr

/-- MU weights (R68, R76, R90): the format, the element codes by column and depth (`32 * column + depth`), the column
scales, and which elements and scales came from a poisoned row. -/
structure Weights where
  fmt : BitVec 4
  codes : List Nat
  scales : List Nat
  bad : List Bool
  badScale : Bool
deriving DecidableEq, Repr

/-- An edge word on its way to the LA (R82), and the MU command it belongs to. -/
structure EdgeWord where
  cmd : Nat
  buf : Bool
  elem : Nat
  tag : BitVec 2
  poison : Bool
  wt : Bool
  lsb : Int
  sum : Int
deriving DecidableEq, Repr

/-- The matrix unit: the weights in its cells, the FMT_W of the command it ran last if that was an MM after which KEEPW is
allowed, whether the active weights are a block that an MM has loaded (R108), the edge words it has formed and the LA has not yet
added, its two staging buffers and the one that the next weights take, and its two sets of fold registers (`128 * row + column`) and
the set that the next MMW fills (R76, R89, R90, R97). -/
structure MuSt where
  active : Option Weights
  shadow : Option Weights
  prev : Option (BitVec 4)
  loaded : Bool
  edges : List EdgeWord
  stage0 : List Byte
  stage1 : List Byte
  nextStage : Bool
  fold0 : Map (BitVec 72)
  fold1 : Map (BitVec 72)
  nextFold : Bool
deriving DecidableEq, Repr

/-- A long accumulator element: ten 64-bit limbs as one 640-bit number, the pending carries of limbs 0 to 8, TAG and
POISON (R109). -/
structure LaElem where
  limbs : BitVec 640
  carries : BitVec 36
  tag : BitVec 2
  poison : Bool
deriving DecidableEq, Repr

/-- A row in the shuttle's export queue: 32 values as 32-bit words, their format and the poison mark (R130). -/
structure ExpRow where
  fmt : BitVec 4
  vals : List Word
  poison : Bool
deriving DecidableEq, Repr

/-- The long accumulator: elements (buffer * 1024 + ELEM), weight counts (buffer * 32 + row), the stochastic draw count n,
the stored check-bit errors of element words (10 * element + limb), the export queue, and the rows of an EXPORT that wait for room in
it (R51, R109, R111, R130, R131, R133). -/
structure LaSt where
  elems : Map LaElem
  weight : Map Nat
  draws : BitVec 32
  bad : Map (Option EccKind)
  exports : List ExpRow
  late : List ExpRow
deriving DecidableEq, Repr

/-- An accepted incoming transfer into a spool (R244): sender, the sender's tag, first row named, rows named, the offset of
its first row, the rows of it written or skipped, and whether its last row has been. -/
structure InXfer where
  src : Site
  tag : Nat
  row : Nat
  n : Nat
  off : Nat
  past : Nat
  ended : Bool
deriving DecidableEq, Repr

/-- A spool's pointers, its reserved rows and the incoming transfers in progress, oldest first (R241, R244). -/
structure Spool where
  head : Nat
  tail : Nat
  full : Bool
  rsv : Nat
  xfers : List InXfer
deriving DecidableEq, Repr

/-- A transfer to absolute rows, or a refused one, in progress (R244, R250): sender, tag, accepted, its next row and the rows left. -/
structure InRows where
  src : Site
  tag : Nat
  ok : Bool
  row : Nat
  left : Nat
deriving DecidableEq, Repr

/-- A write that waits for the wake of a bank, with the engine that holds it (R251); of a row that has arrived, that row, and whether it
came over a warp link: its transfer goes on once the write is applied (R237, R244); of a remote write, the answer that then goes out
(R408, R419). -/
structure HeldWrite where
  eng : Nat
  row : Nat
  off : Nat
  data : List Byte
  poison : Bool
  came : Option (DataRow × Bool) := none
  reply : Option Pkt := none
deriving DecidableEq, Repr

/-- The scratchpad: bytes, POISON bits by row, stored check-bit errors by 64-bit word, write-backs waiting for an SVC slot,
the patrol position, spools, transfers to absolute rows and refused transfers in progress, rows that have arrived over warp links,
and writes held until a bank's wake ends (R226 to R251). -/
structure SpSt where
  mem : Memory
  poison : Map Bool
  bad : Map (Option EccKind)
  writeback : List Nat
  patrol : BitVec 12
  spools : Map Spool
  inX : List InRows
  arrived : List DataRow
  held : List HeldWrite
deriving DecidableEq, Repr

/-- What a tile makes a reach request for: a shuttle command, by stamp; a scan; the re-stream of a darning. -/
inductive ReachUser where
  | cmd (stamp : Nat)
  | scan
  | darn
deriving DecidableEq, Repr

/-- A reach request that waits to be sent (R406): who asks, its offset in the transfer, address, length, and for a write the
bytes and the poison of each flit that will carry them. -/
structure ReachReq where
  user : ReachUser
  goff : Nat
  addr : Nat
  len : Nat
  data : Option (List Byte)
  poison : List Bool
deriving DecidableEq, Repr

/-- A reach request of a tile that waits for its answer (R406). -/
structure ReachOut where
  rtag : BitVec 12
  user : ReachUser
  goff : Nat
  len : Nat
deriving DecidableEq, Repr

/-- A GET in progress (R406, R217): its command, the answers that have delivered bytes (offset, bytes, poison by flit), the answers
awaited, and the destination rows already written. -/
structure GetSt where
  cmd : Cmd
  parts : List (Nat × List Byte × List Bool)
  left : Nat
  done : List Nat
deriving DecidableEq, Repr

/-- An EXPFWD in progress (R219): its command, the transfer tags of its two planes, export rows taken, the bytes of the
destination row being filled and whether they are poisoned, and the scales chosen so far. -/
structure ExpSt where
  cmd : Cmd
  tag : Nat
  k : Nat
  row : Nat
  buf : List Byte
  bufBad : Bool
  scales : List Byte
  scaleBad : List Nat
deriving DecidableEq, Repr

/-- The shuttle: reach requests outstanding and waiting to be sent, GETs and EXPFWDs in progress, oldest first, and the next
reach tag and transfer tag (R406, R219, R221). -/
structure ShSt where
  out : List ReachOut
  toSend : List ReachReq
  gets : List GetSt
  exps : List ExpSt
  nextTag : Nat
  nextXfer : Nat
deriving DecidableEq, Repr

/-- The state of the tile core (R224). -/
inductive CoreMode where
  | halted | running | stalled | wfi
deriving DecidableEq, Repr

/-- A command-extension instruction that holds the core: an issue whose queue was full, a wait for a ticket, or a wait for
units (R201, R207, R208). -/
inductive BkPend where
  | none
  | issue (unit : UnitC) (words : List Word) (mask : Word) (rd : Nat)
  | wait (ticket : Word) (rd : Nat)
  | waitu (targets : List (Nat × Nat)) (mask : Word) (rd : Nat)
deriving DecidableEq, Repr

/-- The tile core: registers, pc, CSRs and memories (R190 to R197); `loaded` is the register that the newest load wrote and the
cycle in which an instruction that reads it waits (R194). -/
structure CoreSt where
  x : List Word
  pc : Word
  mode : CoreMode
  bk : BkPend
  swpend : Bool
  mie : Bool
  mpie : Bool
  meie : Bool
  mtvec : Word
  mscratch : Word
  mepc : Word
  mcause : Word
  mtval : Word
  mcycle : BitVec 64
  minstret : BitVec 64
  imem : Memory
  dmem : Memory
  loaded : Nat × Nat
deriving DecidableEq, Repr

/-! ## Weave state of a tile -/

/-- A token in a queue with its producer (R262, R266). -/
structure QTok where
  tok : BitVec 64
  src : TokSrc
deriving DecidableEq, Repr

/-- A spill row of a queue: its spool offset, the tokens in it, and how many of them have been read back and consumed
(R319, R320). -/
structure SpillRow where
  off : Nat
  count : Nat
  fetched : Bool
  left : Nat
deriving DecidableEq, Repr

/-- A token queue: spilled rows, oldest first, the tokens read back from the oldest, and the tokens and markers behind
them (R262, R311, R320). -/
structure Queue where
  spills : List SpillRow
  back : List (BitVec 64)
  toks : List QTok
deriving DecidableEq, Repr

/-- A consumed token: whether it is still its queue's current token, and how many unfinished firings use it (R266). -/
structure Held where
  id : Nat
  unit : Nat
  queue : Nat
  tok : BitVec 64
  src : TokSrc
  cur : Bool
  uses : Nat
deriving DecidableEq, Repr

/-- A sequencer (R268, R286): counters, run, halted, fired in this run, and the end of a run with REPEAT = 0. -/
structure SeqSt where
  c0 : Nat
  c1 : Nat
  c2 : Nat
  c3 : Nat
  run : Bool
  halted : Bool
  fired : Bool
deriving DecidableEq, Repr

/-- A token that a firing will emit on a port (R272). -/
structure Emission where
  port : Nat
  kind : BitVec 4
  epoch : BitVec 4
  aux : BitVec 16
  payload : Word
  fromStatus : Bool
deriving DecidableEq, Repr

/-- A firing in flight (R266, R267, R272, R274): emissions, spool advances, and the consumed tokens it uses. -/
structure Firing where
  id : Nat
  unit : Nat
  tokens : List Nat
  emits : List Emission
  advs : List (Nat × Bool × Nat)
  poison : Bool
  dropped : Bool
deriving DecidableEq, Repr

/-- An output port (R265): credits held, tokens outstanding to its present destination, and the number of its
destination among those it has had. -/
structure PortSt where
  credits : Nat
  outstanding : Nat
  gen : Nat
deriving DecidableEq, Repr

/-- A configuration group (R273, R297, R305, R310): its two images, epoch, kept check word, writes held between commit and switch,
PATBAD, and whether its sequencer control word has been written since the last switch. -/
structure GroupSt where
  active : Map Word
  standby : Map Word
  epoch : BitVec 4
  kept : Option Word
  heldW : List (Nat × Word × Word)
  patbad : Bool
  wroteCtl : Bool
deriving DecidableEq, Repr

/-- The stitch states of a tile (R306, R328). -/
inductive StitchMode where
  | idle | loading | armed | committed
deriving DecidableEq, Repr

/-- How a group of a committed stitch switches (R313). -/
inductive SwitchPoint where
  | atCommit | runEnd | marker
deriving DecidableEq, Repr

/-- The stitch of a tile (R304, R306, R313): number, NEW, state, FAILED, records received, numbers and groups of the SLOT records, GMASK,
groups still to switch and their switch points. -/
structure StitchSt where
  num : BitVec 16
  new : BitVec 4
  mode : StitchMode
  failed : Bool
  ended : Bool
  seqnos : List Nat
  groups : List (Nat × Nat)
  gmask : BitVec 8
  pend : BitVec 8
  points : List (Nat × SwitchPoint)
deriving DecidableEq, Repr

/-- Why a tile is frozen or holds its firing: a freeze by software, by a strict halt, by a slice; a held segment, a ready handshake
that ends at a switch or, of a darning, at GO; a release (R323, R443, R449, R463, R478, R491); its scan in progress: requests
and rows whose answers it awaits (R325); and a TC_CTL.GO on which the core has not acted (R195). -/
structure FreezeSt where
  soft : Bool
  halt : Bool
  slice : Bool
  frozen : Bool
  coreWas : CoreMode
  seghold : Bool
  handshake : Bool
  awaitGo : Bool
  releasing : Bool
  scanBusy : Bool
  scanLeft : Nat
  scanAcks : List (Nat × Nat)
  goPend : Bool
  scanPend : Option Word
deriving DecidableEq, Repr

/-- A flit at a router (R341, R349): the side of its input or output, its channel, the flit, whether it takes the detour lane, the
packet of the model that it belongs to, and, once it has been sent on, the control word of its packet's head. Side 4 is the local port. -/
structure BufFlit where
  side : Nat
  vch : Nat
  flit : Flit
  lane : Bool := false
  pkt : Option Pkt := none
  head : BitVec 64 := 0
deriving DecidableEq, Repr

/-- A packet that a router is passing on from a side, channel and lane: its source, its head's control word, the outputs it takes
with the payload of its head flit on each, those on which its head has been sent, those that its front flit has still to take,
whether it is delivered here (R342, R348, R355), and the outputs whose next buffer it enters by the detour lane (R349). -/
structure RouteSt where
  side : Nat
  vch : Nat
  src : Nat
  ctl : BitVec 64
  outs : List (Nat × BitVec 512)
  started : List Nat
  todo : List Nat
  here : Bool
  lane : Bool := false
  lanes : List Nat := []
deriving DecidableEq, Repr

/-- A weft router (R334 to R359): flits of injected packets that wait for room at the local input, flits waiting by input, flits sent on
each output and not yet acknowledged, flits of packets being delivered here, links down, the sides whose LINK fault the steward has not
handled, consecutive CRC failures by side, packets
being passed on, the counts of VC0 and VC1 flits by output and the period they count, the slots in which VC2 and VC3 both waited,
packets held after a change of the fault map, and the last change after which they were released. -/
structure RouterSt where
  staged : List BufFlit
  bufs : List BufFlit
  sent : List BufFlit
  eject : List BufFlit
  down : BitVec 4
  linkFaults : List Nat
  fails : List Nat
  routes : List RouteSt
  counts : List Nat
  period : Nat
  both : List Nat
  heldPk : List Pkt
  released : Nat
deriving DecidableEq, Repr

/-- A budget bucket (R358): LEVEL as it stood when period `at'` was current. -/
structure Bucket where
  level : Nat
  at' : Nat
deriving DecidableEq, Repr

/-- The state of a tile. Registers that hold bits of their own are in `regs` by tile-space offset (19 R568 to R570); the RWS
fields are in `groups` (R573); registers that report other state are computed when they are read. `trfRefused` counts the cycles in a row in which the register ports have refused the MU and the LA (R139); `asleep` until a wake has ended,
`reported` once the error counts have gone to the loom in this microsecond (R447); `sleeping` while the scrub before a sleep runs, `scrubbing` while any kill scrub does. -/
structure Tile where
  regs : Map Word
  groups : Map GroupSt
  units : PerUnit UnitSt
  mu : MuSt
  la : LaSt
  trf : Map Word
  sfHeld : Option (Map Word)
  sfGen : Nat
  trfRefused : Nat × Nat
  sp : SpSt
  sh : ShSt
  core : CoreSt
  queues : Map Queue
  helds : List Held
  seqs : Map SeqSt
  ports : Map PortSt
  firings : List Firing
  nextFiring : Nat
  spillOrder : List (Nat × Bool)
  live : Map Word
  snap : Map Word
  stitch : StitchSt
  freeze : FreezeSt
  prog : Bool
  router : RouterSt
  buckets : Map Bucket
  outq : List Pkt
  warpq : List WarpWord
  wires : List (Site × WarpAck)
  errCounts : List Nat
  reported : Bool
  stamp : Nat
  cycles : Nat
  origin : Nat
  asleep : Bool
  sleeping : Bool
  waking : Bool
  scrubbing : Bool
  repairMap : List (BitVec 64)
  thermThr : Nat
  fresh : Nat
deriving DecidableEq, Repr

/-! ## Ports -/

/-- A lane group of a Glitis port (R379 to R384): sequence numbers expected and sent, CRC failures in a row of the flit expected, failures
in a period, discarding until a replay and the sequence number of the flit discarded next, the ACKSEQ to be sent, as a NAK or not, and of a retrain whether it is acknowledged, the outcomes
decided here and there and GL_STAT.CLKS as it was when the retrain began. -/
structure LaneSt where
  seqIn : BitVec 8
  seqOut : BitVec 8
  fails : Nat
  failsPeriod : Nat
  failsAt : Nat
  discarding : Bool
  later : BitVec 8
  acked : Bool
  own : Option (BitVec 8)
  peer : Option (BitVec 8)
  ackDue : Option (Bool × BitVec 8)
  clks : Nat
deriving DecidableEq, Repr

/-- A flit that waits to be sent: its credit class, 5 for a link control message, the group it must go on if one is named, its
type, FTARG and body, the slots that a D or K2 flit has waited, and, of a flit that has been sent, the acknowledgement it carries and the
class and numbers of the credits it returns (R370, R371, R377, R380, R381). -/
structure FlitOut where
  cls : Nat
  group : Option Nat
  ft : BitVec 4
  ftarg : BitVec 16
  body : BitVec 1024
  waited : Nat := 0
  ack : Option (Bool × BitVec 8) := none
  cred : Nat × Nat × Nat := (7, 0, 0)
deriving DecidableEq, Repr

/-- A sector of the reach cache: address, stream, bytes (R411); least recently used first in the list. -/
structure Sector where
  addr : Nat
  stream : StreamNo
  data : List Byte
deriving DecidableEq, Repr

/-- A read or write that a port has sent to the backing (R409, R413, R415); the requests that wait for it, and the class of each (R361,
R471). -/
structure PortReq where
  tag : BitVec 12
  write : Bool
  fill : Bool
  prefetch : Bool
  install : Bool
  addr : Nat
  stream : StreamNo
  waits : List (Site × ReachHdr × Fin 8)
deriving DecidableEq, Repr

/-- A stream prefetcher (R417, R418): tile, stream, next sector, stride, range end addresses, period of its last advance, and the
order of that advance among the port's. -/
structure Prefetcher where
  site : Site
  stream : StreamNo
  next : Nat
  stride : Int
  lo : Nat
  hi : Nat
  used : Nat
  turn : Nat
deriving DecidableEq, Repr

/-- An incoming RD or WR in progress (R419): its TAG and origin, the tags of its parts in address order, those not yet answered,
the highest STATUS, and the bytes of each part that has come and whether they are poisoned. -/
structure InReq where
  tag : BitVec 12
  orig : Bool
  write : Bool
  order : List (BitVec 12)
  left : List (BitVec 12)
  status : BitVec 3
  parts : List (BitVec 12 × List Byte × Bool)
deriving DecidableEq, Repr

/-- The states of a port (R387, R398). -/
inductive PortMode where
  | down | lock | train | discover | up
deriving DecidableEq, Repr

/-- A Glitis port, its reach cache and prefetchers. Registers with bits of their own are in `regs` by port-block offset (19 R572).
`restartAt` holds the periods of the last restarts that have not reached UP (R386). By role, `stripeIn` and `stripeOut` count flits since
the last stripe change, `rxStripe` is the backing's stripe as a bit map, `stripeDue` the map of a STRIPE not yet in force, and `stripeNew`
the flits taken of that new stripe in the place of lost ones (R379). `owedH` and `owedD` are the credits still to be returned (R377),
`debugData` the TAG and beats of D data still to come, `srcSlots` the SSLOT of each incoming request (R374), `loomReqs` the requests of loom
and steward without an answer, each with its TAG once it has one (R386, R409), and `stripeFlits` whether STRIPE messages have come as
flits. -/
structure Port where
  regs : Map Word
  mode : PortMode
  stays : Bool
  hemmed : Bool
  aliveIn : Bool
  aliveOut : Bool
  offered : BitVec 8
  version : BitVec 8
  restarts : Nat
  restartAt : List Nat
  lanes : Map LaneSt
  replay : List (Fin 8 × BitVec 8 × FlitOut)
  backlog : List FlitOut
  rxHeld : List (Fin 8 × GlFlit)
  stripeIn : List Nat
  stripeOut : List Nat
  credH : List Nat
  credD : List Nat
  rxStripe : List Nat
  stripeDue : List (Option Nat)
  stripeNew : List Nat
  owedH : List Nat
  owedD : List Nat
  debugData : List (BitVec 12 × Nat)
  srcSlots : List (BitVec 8 × BitVec 12 × BitVec 4)
  loomReqs : List (Option (BitVec 12) × Out)
  stripeFlits : Bool
  rolesNow : BitVec 16
  backingRoles : BitVec 16
  rolesPending : Bool
  k2in : List (List Byte)
  cache : List Sector
  rcOff : BitVec 8
  reqs : List PortReq
  nextTag : Nat
  prefetchers : Map (Option Prefetcher)
  history : List (Site × StreamNo × List Nat)
  incoming : List InReq
  invs : List (BitVec 12 × Nat × Nat)
  buckets : Map Bucket
  outq : List Pkt
deriving DecidableEq, Repr

/-! ## The loom -/

/-- The states of a stream (R429). -/
inductive StreamMode where
  | idle | running | halted | ending | killing
deriving DecidableEq, Repr

/-- What a stream waits for (R445, R446, R454, R463); a context record to be read stands as `started`. -/
inductive Park where
  | none
  | fetch
  | retry
  | list
  | writeback
  | credits
  | bucket
  | held
  | stitch
  | release
  | wake
  | event
  | started (addr : Nat)
deriving DecidableEq, Repr

/-- How far a descriptor in progress has come: not begun, its list or site list read, its stitch image read, its stitch or releases
awaited. -/
inductive DescStage where
  | fresh | list | image | awaits
deriving DecidableEq, Repr

/-- A descriptor in progress (R437 to R441): its ring index and 64 bytes, how far it has come, the bytes of its list that have
arrived, those still to come, list bytes and entries handled, the count for INFO, whether sites were left out or a read failed, the
sites of a STITCH, and the status a stitch ended with. -/
structure Desc where
  index : Word
  bytes : List Byte
  stage : DescStage
  list : List Byte
  want : Nat
  pos : Nat
  count : Nat
  partialC : Bool
  listErr : Bool
  sites : List Site
  status : Option (Nat × Nat)
deriving DecidableEq, Repr

/-- A status write-back whose WRACK has not come (R435, R451); `stale` once its stream has ended. -/
structure WriteBack where
  index : Word
  word : BitVec 64
  notify : Bool
  vec : BitVec 8
  stale : Bool
deriving DecidableEq, Repr

/-- How far the end of a stream has come (R450): the stitch awaited, tiles released, sectors invalidated, done. -/
inductive Teardown where
  | none | stitch | tiles | ports | done
deriving DecidableEq, Repr

/-- A stream context (R429 to R436): state and settings, indices, events and errors, what it waits for, the slots fetched, the
descriptor in progress, the fetch in flight, write-backs, and the sites being released, those of them
clear that wait for their commit (R30), and at its end the ports still to report. -/
structure Ctx where
  mode : StreamMode
  policy : Bool
  rlog : Nat
  ring : Nat
  cidx : Word
  pidx : Word
  evt : Word
  errs : Nat
  lastCls : Nat
  srate : Word
  brate : Word
  seed : Word
  adv : Word
  park : Park
  slots : List (Word × List Byte)
  desc : Option Desc
  retried : Bool
  fetchFrom : Word
  fetchN : Nat
  completes : List WriteBack
  teardown : Teardown
  releases : List Site
  commits : List Site
  portsLeft : List PortIx
deriving DecidableEq, Repr

/-- The loom's token counters for a claimed site (R444): credits for P = 0 to 3, and the UNIT and QB fixed for the site. -/
structure LoomSite where
  stream : Option StreamNo
  credits : List Nat
  target : Option (Nat × Nat)
  noTokens : Bool
deriving DecidableEq, Repr

/-- The loom (R429 to R455). -/
structure Loom where
  ctxs : Map Ctx
  sites : Map LoomSite
  ready : List StreamNo
  refused : List Out
deriving DecidableEq, Repr

/-! ## The steward -/

/-- A stitch as the steward runs it (R307, R438): its number, NEW and participants, those that have answered ARMED and SWITCHED,
whether COMMIT has been sent, and the stream that asked for it. -/
structure Stitch where
  num : BitVec 16
  new : BitVec 4
  sites : List Site
  armed : List Site
  switchedS : List Site
  committed : Bool
  owner : Option StreamNo
deriving DecidableEq, Repr

/-- An entry of the fault log, numbered in order (R488). -/
structure LogEnt where
  id : Nat
  code : Nat
  unit : Nat
  outcome : Nat
  site : Site
  time : Word
  reg : Word
  spare : Word
deriving DecidableEq, Repr

/-- The steps of a darning (R471): the table entry read, the image read, the stitch under way, the re-stream. -/
inductive DarnStep where
  | entry | image | stitch | restream
deriving DecidableEq, Repr

/-- A darning in progress (R471): the failed site, the site that holds its claim, the spare, the hem kind, the table entry, the image
read, its failures, the stream and weave of its segment, the log entry, the re-stream's requests outstanding, retried and failed, and
the RECONF bucket of the spare's attachment while it is raised, and whether its DATA error has been raised (R474). -/
structure Darning where
  failed : Site
  holder : Site
  spare : Site
  kind : Nat
  step : DarnStep
  image : Nat
  ibytes : Nat
  wrow : Nat
  nrows : Nat
  weights : Nat
  recs : Option (List Byte)
  tries : Nat
  refused : Nat
  stream : Option StreamNo
  weave : BitVec 16
  logId : Nat
  asked : Bool
  gets : Nat
  getErrs : List (Nat × Nat)
  bad : Nat
  reconf : Option Word := none
  told : Bool := false
deriving DecidableEq, Repr

/-- Fuses (R28, R499, R513, R517, R553). -/
structure Fuses where
  grade : BitVec 4
  stepping : BitVec 8
  dieid : BitVec 64
  crcOk : Bool
  site : Map (BitVec 2)
  revoke : BitVec 4
  minsvn : BitVec 64
  mfgtest : Bool
  seedId : Nat
  repairs : List (BitVec 64)
deriving DecidableEq, Repr

/-- The steps of a slice (R491): the freeze awaited, the save, the test, the restore. -/
inductive SliceStep where
  | freezing | saving | testing | restoring
deriving DecidableEq, Repr

/-- A slice in progress (R491): its site and item, how often it has been deferred, its step, what its test found, whether the
conditions failed, its reach port, and the values of the TEST buckets of tile and port to return. -/
structure Slice where
  site : Site
  item : Nat
  defers : Nat
  step : SliceStep
  result : Option SliceTest
  discard : Bool
  port : PortIx
  bkt : Word
  pbkt : Word
deriving DecidableEq, Repr

/-- A mailbox slot as the steward knows it (R528): the last ACKSEQ, the request read and not yet answered. -/
structure MboxSlot where
  ack : Word
  req : Option (List Byte)
deriving DecidableEq, Repr

/-- The steward's RV64IMAC core (R509): x1 to x31, the pc and the CSRs. -/
structure StewardCore where
  x : Map (BitVec 64)
  pc : BitVec 64
  csrs : Map (BitVec 64)
deriving DecidableEq, Repr

/-- The steward (R33, R307, R318, R459 to R489, R491 to R503, R509 to R535, R538 to R557). Registers with bits of their own are in
`regs` by offset (19 R565). -/
structure Steward where
  regs : Map Word
  fuses : Fuses
  siteState : Map (BitVec 2)
  oldSites : Map (BitVec 2)
  mapChanges : Nat
  fmapGen : Word
  slept : Option Site
  sleepActs : List Site
  xi : Option (List Byte)
  discovery : Option PortIx
  assigned : Bool
  committed : Bool
  core : StewardCore
  data : Memory
  sramBad : Map (Option EccKind)
  regions : List (List Byte)
  fwManifest : List (List Byte)
  fwFrom : List Nat
  dir : List Byte
  mbox : List MboxSlot
  attests : List (Fin 4)
  loading : Option (Fin 4)
  switching : Option (Fin 4)
  confirmWait : Option (Fin 4)
  stitches : List Stitch
  counts : Map Nat
  flog : List LogEnt
  flogCount : Nat
  poll : Word
  answered : Map Nat
  dlSpills : Map Nat
  darning : Option Darning
  darnQueue : List (Site × Nat × Nat)
  darnMap : Map (Nat × Nat × Bool)
  slice : Option Slice
  rotations : Nat
  rotSite : Nat
  rotItem : Nat
  deferred : List (Nat × Nat × Nat)
  gradeShort : Bool
  sdStep : Nat
  sdStart : Nat
  sdFound : List ShutResult
  repairs : List (BitVec 64)
  signs : Nat
  vreq : List Bool
  vidReq : List (Option (BitVec 6))
  vidDefer : List (Option (BitVec 6))
  vidPlan : List (List Nat)
  ftgtWritten : List Nat
  sustLow : List Nat
  thermLow : List Nat
  tripped : Bool
  attBuckets : Map Bucket
  outq : List Pkt
deriving DecidableEq, Repr

/-- The test access port (R551 to R554): the instruction, the bypass register, the site selected, the bits that wait to be shifted through its wrapper, the die wrapper register by cell, and
the serial registers of the IEEE 1500 wrappers that have been shifted. -/
structure Tap where
  ir : BitVec 8
  bypass : Bool
  sitesel : BitVec 12
  wsi : List Bool
  wrapper : Map Bool
  wrappers : Map (Option (List Bool))
deriving DecidableEq, Repr

/-- What a scan out has written of a part whose layout the spec does not give: the part, the draw of its words, when, and the
tile it was written from (R324; assumption 14). -/
structure ScanShot where
  part : Nat
  draw : Nat
  time : Nat
  tile : Tile
deriving DecidableEq, Repr

/-- The state of the chiplet. `pending` is the queue of commands, first in, first out; `out` what has been sent over the
pads; `net` the weft packets on their way; `fresh` the model's counter of free values (assumption 9); `periods` the
budget periods of the steward's timebase since reset (R356); `cycles` the tile cycles that have passed while the queue was
empty (assumption 6). -/
structure State where
  pending : List Instr
  inReset : Bool
  tiles : Map Tile
  ports : Map Port
  loom : Loom
  steward : Steward
  tap : Tap
  net : List Pkt
  out : List Out
  periods : Nat
  cycles : Nat
  fresh : Nat
  scans : List ScanShot
deriving DecidableEq, Repr

/-! ## Reset -/

def UnitSt.reset : UnitSt :=
  { queue := [], running := [], issued := 0, done := 0, kept := [], errSum := false }

def MuSt.reset : MuSt :=
  { active := none, shadow := none, prev := none, loaded := false, edges := [], stage0 := [], stage1 := [], nextStage := false
    fold0 := [], fold1 := [], nextFold := false }

/-- A cleared element: value 0, finite, not poisoned (R123, R136). -/
def LaElem.zero : LaElem := { limbs := 0, carries := 0, tag := 0, poison := false }

def LaSt.reset : LaSt := { elems := [], weight := [], draws := 0, bad := [], exports := [], late := [] }

def Spool.reset : Spool := { head := 0, tail := 0, full := false, rsv := 0, xfers := [] }

def SpSt.reset : SpSt :=
  { mem := [], poison := [], bad := [], writeback := [], patrol := 0, spools := [], inX := [], arrived := [], held := [] }

def ShSt.reset : ShSt :=
  { out := [], toSend := [], gets := [], exps := [], nextTag := 0, nextXfer := 0 }

/-- The core halted, registers and CSRs zero (R195, R225; assumption 3 for the CSRs and the pc). -/
def CoreSt.reset : CoreSt :=
  { x := List.replicate 32 0, pc := 0, mode := .halted, bk := .none, swpend := false, mie := false, mpie := false,
    meie := false, mtvec := 0, mscratch := 0, mepc := 0, mcause := 0, mtval := 0, mcycle := 0, minstret := 0, imem := [],
    dmem := [], loaded := (0, 0) }

def Queue.reset : Queue := { spills := [], back := [], toks := [] }

def SeqSt.reset : SeqSt := { c0 := 0, c1 := 0, c2 := 0, c3 := 0, run := false, halted := false, fired := false }

def PortSt.reset : PortSt := { credits := 0, outstanding := 0, gen := 0 }

/-- A group with the void pattern in both slots and epoch 0; `kept = none` stands for the check word of the void image. -/
def GroupSt.reset : GroupSt :=
  { active := [], standby := [], epoch := 0, kept := none, heldW := [], patbad := false, wroteCtl := false }

def StitchSt.reset : StitchSt :=
  { num := 0, new := 0, mode := .idle, failed := false, ended := false, seqnos := [], groups := [], gmask := 0, pend := 0,
    points := [] }

def FreezeSt.reset : FreezeSt :=
  { soft := false, halt := false, slice := false, frozen := false, coreWas := .halted, seghold := false,
    handshake := false, awaitGo := false, releasing := false, scanBusy := false, scanLeft := 0, scanAcks := [], goPend := false, scanPend := none }

def RouterSt.reset : RouterSt :=
  { staged := [], bufs := [], sent := [], eject := [], down := 0, linkFaults := [], fails := [0, 0, 0, 0], routes := [],
    counts := [0, 0, 0, 0, 0, 0, 0, 0], period := 0, both := [0, 0, 0, 0], heldPk := [], released := 0 }

def Bucket.reset : Bucket := { level := 0, at' := 0 }

def Tile.reset : Tile :=
  { regs := [], groups := [], units := ⟨UnitSt.reset, UnitSt.reset, UnitSt.reset, UnitSt.reset, UnitSt.reset⟩,
    mu := MuSt.reset, la := LaSt.reset, trf := [], sfHeld := none, sfGen := 0, trfRefused := (0, 0), sp := SpSt.reset, sh := ShSt.reset,
    core := CoreSt.reset, queues := [], helds := [], seqs := [], ports := [], firings := [], nextFiring := 0,
    spillOrder := [], live := [], snap := [], stitch := StitchSt.reset, freeze := FreezeSt.reset, prog := false,
    router := RouterSt.reset, buckets := [], outq := [], warpq := [], wires := [], errCounts := [0, 0, 0, 0, 0, 0], reported := false, stamp := 0,
    cycles := 0, origin := 0, asleep := false, sleeping := false, waking := false, scrubbing := false, repairMap := [], thermThr := 0,
    fresh := 0 }

def LaneSt.reset : LaneSt :=
  { seqIn := 0, seqOut := 0, fails := 0, failsPeriod := 0, failsAt := 0, discarding := false, later := 0, acked := false, own := none
    peer := none, ackDue := none, clks := 0 }

def Port.reset : Port :=
  { regs := [], mode := .down, stays := false, hemmed := false, aliveIn := false, aliveOut := false, offered := 0,
    version := 0, restarts := 0, restartAt := [], lanes := [], replay := [], backlog := [], rxHeld := [],
    stripeIn := [0, 0, 0, 0], stripeOut := [0, 0, 0, 0], credH := [0, 0, 0, 0, 0], credD := [0, 0, 0, 0, 0],
    rxStripe := [0, 0, 0, 0], stripeDue := [none, none, none, none], stripeNew := [0, 0, 0, 0], owedH := [0, 0, 0, 0, 0],
    owedD := [0, 0, 0, 0, 0], debugData := [], srcSlots := [], loomReqs := [], stripeFlits := false,
    rolesNow := 0x9000, backingRoles := 0x9000, rolesPending := false, k2in := [], cache := [], rcOff := 0, reqs := [],
    nextTag := 0, prefetchers := [], history := [], incoming := [], invs := [], buckets := [],
    outq := [] }

def Ctx.reset : Ctx :=
  { mode := .idle, policy := false, rlog := 0, ring := 0, cidx := 0, pidx := 0, evt := 0, errs := 0, lastCls := 0,
    srate := 0, brate := 0, seed := 0, adv := 0, park := .none, slots := [], desc := none, retried := false, fetchFrom := 0,
    fetchN := 0, completes := [], teardown := .none, releases := [], commits := [], portsLeft := [] }

def LoomSite.reset : LoomSite := { stream := none, credits := [0, 0, 0, 0], target := none, noTokens := false }

/-- The fused state of the model's die: rows Y = 0 and Y = 49 spare, every other site enabled (R28, grade X; assumption 2,
DESIGN CHOICE). -/
def fusedDefault (n : Nat) : BitVec 2 := if n < 48 || 2352 ≤ n then 2 else 1

/-- The fuses of the model's die (assumption 2): grade X, stepping B0. -/
def Fuses.reset : Fuses :=
  { grade := 1, stepping := 0x20, dieid := 0, crcOk := true, site := [], revoke := 0, minsvn := 0, mfgtest := true,
    seedId := 0, repairs := [] }

def Steward.reset : Steward :=
  { regs := [], fuses := Fuses.reset, siteState := [], oldSites := [], mapChanges := 0, fmapGen := 0, slept := none, sleepActs := [], xi := none, discovery := none,
    assigned := false, committed := false, core := { x := [], pc := 0, csrs := [] }, data := [], sramBad := [], regions := [[], []], fwManifest := [[], []], fwFrom := [0, 0], dir := [], mbox := List.replicate 4 { ack := 0, req := none },
    attests := [], loading := none, switching := none, confirmWait := none, stitches := [], counts := [], flog := [],
    flogCount := 0, poll := 0, answered := [], dlSpills := [], darning := none, darnQueue := [], darnMap := [], slice := none,
    rotations := 0, rotSite := 0, rotItem := 0, deferred := [], gradeShort := false, sdStep := 0, sdStart := 0, sdFound := [], repairs := [], signs := 0,
    vreq := List.replicate 4 false, vidReq := List.replicate 4 none, vidDefer := List.replicate 4 none, vidPlan := List.replicate 4 [],
    ftgtWritten := List.replicate 4 0x708, sustLow := List.replicate 4 0, thermLow := List.replicate 4 0,
    tripped := false, attBuckets := [], outq := [] }

/-- The TAP after its reset: IDCODE selected (R552). -/
def Tap.reset : Tap := { ir := 1, bypass := false, sitesel := 0, wsi := [], wrapper := [], wrappers := [] }

/-- The chiplet held in reset (R540): nothing runs, every port is DOWN, memories list nothing. -/
def State.reset : State :=
  { pending := [], inReset := true, tiles := [], ports := [], loom := { ctxs := [], sites := [], ready := [], refused := [] },
    steward := Steward.reset, tap := Tap.reset, net := [], out := [], periods := 0, cycles := 0, fresh := 0,
    scans := [] }

end Sys2Proof.Machine
end

