-- ==== Sys2Proof/Config.lean ====
section
/-! DEFINITION. What the spec leaves open: free values, each an opaque constant that nothing can evaluate; and the published
functions that the spec names without writing them out (FIPS 202, FIPS 204, X.509). -/

namespace Sys2Proof.Config

/-- A byte of a row that a read delivers from a gated or waking bank, or of a word with an uncorrectable error: the row is
marked poisoned and the spec states no data (R238, R252; assumption 12). Arguments: the tile's draw, the row, the byte. -/
opaque lostByte : Nat → Nat → Nat → Byte

/-- The error of a point of a built-in seed table in units of 2^-40, before it is held to the accuracy of R172 (assumption 9).
Arguments: the table, and eight times the segment plus the point. -/
opaque seedError : Nat → Nat → Int

/-- The low exponent bit that RSQRT's table takes of a zero (false) or an infinity (true) (R177; assumption 9). -/
opaque seedBinade : Bool → Bool

/-- The fraction of an infinity that a seed table of a fraction domain takes, in units of 2^-16 (R177; assumption 9). -/
opaque infFrac : Nat

/-- A register or N of a micro-program for which no rule states a value: its class, significand and exponent (assumption 9).
Arguments: the step word, and N and the registers before it. -/
opaque sfValue : Nat → List Int → Nat × Int × Int

/-- ARG and payload of a control message whose layout the spec does not give (R306, R319, R430, R443, R447; assumption 71). -/
opaque ctrlArg : Machine.CtrlMsg → BitVec 24
opaque ctrlPayload : Machine.CtrlMsg → BitVec 512

/-- Tokens for a counter P among the entries of a TOKENS list that the loom has not read: they stand in the backing's memory, which the
model does not hold (R446; assumption 83). Arguments: the address of the first of them, and P. -/
opaque unreadTokens : Nat → Nat → Nat

/-- What the steward writes into WF_BKT4 of a spare for its re-stream: the spec gives no value (R361, R366; assumption 73). -/
opaque darnBucket : Nat → Word

/-- SHAKE256 of FIPS 202: the first `n` bytes of output over a message (R510; assumption 10). -/
opaque shake256 : List Byte → Nat → List Byte

/-- ML-DSA-65 verification of FIPS 204 with an empty context: public key, message, signature (R510; assumption 10). -/
opaque mldsaVerify : List Byte → List Byte → List Byte → Bool

/-- ML-DSA-65 hedged signing: the 32 bytes that the key was made from, message, randomness (R510, R519; assumption 10). -/
opaque mldsaSign : List Byte → List Byte → List Byte → List Byte

/-- ML-DSA.KeyGen_internal: the public key of the 32 bytes xi (R517; assumption 10). -/
opaque mldsaPublic : List Byte → List Byte

/-- The fused identity seed of a die (R517; assumption 10). -/
opaque idSeed : Nat → List Byte

/-- The entropy source's n-th 32 bytes (R509, R519; assumption 10). -/
opaque entropy : Nat → List Byte

/-- The public key in a certificate, or none where it cannot be parsed (R518; assumption 10). -/
opaque certKey : List Byte → Option (List Byte)

/-- The ROM's vendor key digests, KEYIDX 0 to 3 (R513; assumption 10). -/
opaque vendorDigest : Nat → List Byte

/-- The SHAKE256 of the boot ROM and the ROM's version (R515, R520; assumption 10). -/
opaque romDigest : List Byte
opaque romVersion : Nat

/-- Where an image region stands among the steward core's own addresses, which the spec does not give (R512; assumption 86). -/
opaque regionBase : Nat → BitVec 64

/-- The hand-over block of a firmware switch, by draw, and where it stands in the data SRAM: the spec gives neither (R529; assumption 86). -/
opaque handOver : Nat → List Byte
opaque handOverAt : Nat

/-- The serial register of an IEEE 1500 wrapper after reset, its length with it: the spec gives neither (R551; assumption 61). Wrapper
`n` is the tile's of site `n`, `2400 + p` that of port `p`. -/
opaque wrapperBits : Nat → List Bool

/-- FUSECRC of the die's fuse map (R502; assumption 10). -/
opaque fuseCrc : Nat → Word

/-- The fuse map as FUSERD shifts it out, of the fuses that are not secret: the spec gives no layout (R553; assumption 10). -/
opaque fuseScan : Machine.Fuses → List Bool

/-- A word of a scan part whose layout the spec does not give (R324; assumption 14). Arguments: the part, the word, and the
tile's draw. -/
opaque scanWord : Nat → Nat → Nat → Word

/-- What a part holds that is scanned in from words no scan out of the model has written, of a part whose layout the spec does
not give (R324; assumption 14). -/
opaque scanState : Nat → List Word → Option Machine.Tile

/-- The die slot of the other end of a header whose destination no rule gives, by operation (R374; assumption 14). -/
opaque peerSlot : Nat → BitVec 4

/-- The element bits of a value that a format cannot hold, in a block that reads as NaN throughout, by element (R57;
assumption 14). -/
opaque openByte : Nat → Byte

/-- A word of the answer to a role D or mailbox read whose address is unmapped (R560; assumption 14): the draw, the word. -/
opaque unmappedWord : Nat → Nat → Word

/-- Whether a trap of a cause writes the faulting address or instruction into mtval, or zero: the RISC-V machine level, which R191
follows, allows both (assumption 18). -/
opaque mtvalWritten : Nat → Bool

/-- Rows that the shuttle's export queue holds, one at least: the spec gives no number (R130, R131; assumption 59). -/
opaque exportRows : Nat

/-- DUR of a slice that ends before its last step, where no command states how long it interrupted its tile (R496, R508; assumption 38), by
draw. -/
opaque sliceTime : Nat → BitVec 12

end Sys2Proof.Config
end

