-- ==== Sys2Proof/Machine/Bits.lean ====
section
/-! DEFINITION. Bit fields of words, little-endian bytes and the two CRCs (R9, R302, R338). -/

namespace Sys2Proof.Machine

/-- Bits `[lo + len - 1 : lo]` of a word, as a number (R9). -/
def fld {n : Nat} (w : BitVec n) (lo len : Nat) : Nat := (w.toNat >>> lo) % 2 ^ len

/-- Bit `i` of a word. -/
def bitOf {n : Nat} (w : BitVec n) (i : Nat) : Bool := w.getLsbD i

/-- A number placed at bit `lo` of a 32-bit word. -/
def at32 (v lo : Nat) : Word := BitVec.ofNat 32 (v <<< lo)

/-- A flag placed at bit `lo` of a 32-bit word. -/
def flag32 (b : Bool) (lo : Nat) : Word := if b then at32 1 lo else 0

/-- A word with ones in bits `[lo + len - 1 : lo]`. -/
def mask32 (lo len : Nat) : Word := BitVec.ofNat 32 ((2 ^ len - 1) <<< lo)

/-- `w` with bits `[lo + len - 1 : lo]` replaced by `v`. -/
def setFld (w : Word) (lo len v : Nat) : Word :=
  (w &&& ~~~(mask32 lo len)) ||| (at32 (v % 2 ^ len) lo)

/-- The bits of `new` where `m` is 1, those of `old` elsewhere. -/
def mergeMask {n : Nat} (m old new : BitVec n) : BitVec n := (old &&& ~~~m) ||| (new &&& m)

/-- The signed number that the low `len` bits of `v` hold in two's complement. -/
def sext (v len : Nat) : Int :=
  let u := v % 2 ^ len
  if 2 * u < 2 ^ len then (u : Int) else (u : Int) - 2 ^ len

/-- A counter that stops at 0xFFFF_FFFF. -/
def satAdd (w : Word) (n : Nat) : Word := BitVec.ofNat 32 (min (w.toNat + n) 0xFFFFFFFF)

/-- The number that little-endian bytes hold (R9). -/
def leNat : List Byte → Nat
  | [] => 0
  | b :: bs => b.toNat + 256 * leNat bs

/-- The `n` little-endian bytes of a number (R9). -/
def leBytes : Nat → Nat → List Byte
  | 0, _ => []
  | n + 1, v => BitVec.ofNat 8 v :: leBytes n (v / 256)

/-- `n` bytes of `bs` from offset `o` on, zero beyond its end. -/
def sliceBytes (bs : List Byte) (o n : Nat) : List Byte :=
  let t := (bs.drop o).take n
  t ++ List.replicate (n - t.length) 0

/-- The little-endian number in `n` bytes of `bs` from offset `o` on. -/
def numAt (bs : List Byte) (o n : Nat) : Nat := leNat (sliceBytes bs o n)

/-- The 32-bit word at offset `o` of a byte list. -/
def wordAt (bs : List Byte) (o : Nat) : Word := BitVec.ofNat 32 (numAt bs o 4)

/-- The words of a byte list, `n` of them. -/
def wordsOf (bs : List Byte) (n : Nat) : List Word := (List.range n).map fun i => wordAt bs (4 * i)

/-- The little-endian bytes of a list of words. -/
def bytesOfWords (ws : List Word) : List Byte := ws.flatMap fun w => leBytes 4 w.toNat

/-- One bit of the reflected CRC-32C (R302). -/
def crc32cBit (c : Word) : Word := if c.getLsbD 0 then (c >>> 1) ^^^ 0x82F63B78#32 else c >>> 1

/-- One byte of the reflected CRC-32C (R302). -/
def crc32cByte (c : Word) (b : Byte) : Word :=
  let x := c ^^^ b.setWidth 32
  crc32cBit (crc32cBit (crc32cBit (crc32cBit (crc32cBit (crc32cBit (crc32cBit (crc32cBit x)))))))

/-- CRC-32C of a byte list (R302). -/
def crc32c (bs : List Byte) : Word := (bs.foldl crc32cByte 0xFFFFFFFF#32) ^^^ 0xFFFFFFFF#32

/-- CRC-32C of a list of words, in little-endian byte order (R302). -/
def crc32cWords (ws : List Word) : Word := crc32c (bytesOfWords ws)

/-- One bit of CRC-16 with polynomial 0x1021, most significant bit first (R338). -/
def crc16Bit (c : BitVec 16) (b : Bool) : BitVec 16 :=
  let top := c.getLsbD 15 != b
  if top then (c <<< 1) ^^^ 0x1021#16 else c <<< 1

/-- CRC-16 over the low `n` bits of `w`, bit `n - 1` first, from the value `c` (R338). -/
def crc16Bits {m : Nat} (w : BitVec m) : Nat → BitVec 16 → BitVec 16
  | 0, c => c
  | n + 1, c => crc16Bits w n (crc16Bit c (w.getLsbD n))

/-- CRC-16 over a byte list, each byte's bit 7 first (R338). -/
def crc16 (bs : List Byte) : BitVec 16 := bs.foldl (fun c b => crc16Bits b 8 c) 0xFFFF#16

/-- Numbers `a` up to and not including `a + n`. -/
def upto (a n : Nat) : List Nat := (List.range n).map (a + ·)

end Sys2Proof.Machine
end

