-- ==== Sys2Proof/Machine/Regs.lean ====
section
/-! DEFINITION. The set-up registers: offsets (R565 to R574), reset values, access masks and reserved encodings (R10 to R14,
R578), and a tile's own register file with its flags and counters. -/

namespace Sys2Proof.Machine

/-! ## Offsets in a tile space (R568 to R572) -/

namespace Reg
def TC_GEOM : Nat := 0x000
def TC_CTL : Nat := 0x004
def TC_STATE : Nat := 0x008
def TC_EVT : Nat := 0x00C
def TC_ERR : Nat := 0x010
def TC_TRAP : Nat := 0x014
def TC_WV_CTL : Nat := 0x018
def TC_WV_ERR : Nat := 0x01C
def TC_WVDROP_COUNT : Nat := 0x020
def TC_EP_ACT : Nat := 0x024
def TC_EP_STITCH : Nat := 0x028
def TC_PAT_STAT : Nat := 0x02C
def TC_EP_ERR : Nat := 0x030
def TC_EPDROP_COUNT : Nat := 0x034
def TC_DL_STAT : Nat := 0x038
def TC_SCAN_CTL : Nat := 0x03C
def TC_SCAN_ADDR : Nat := 0x040
def TC_SCAN_ADDRH : Nat := 0x044
def TC_SCAN_ROWS : Nat := 0x048
def TC_SCAN_STAT : Nat := 0x04C
def TC_STREAM : Nat := 0x050
def TC_WDOG : Nat := 0x054
def TC_HEM : Nat := 0x058
def TC_DARN : Nat := 0x05C
def TC_CLK : Nat := 0x060
def BT_TSTAT : Nat := 0x064
def WF_GEOM : Nat := 0x1400
def WF_LINKCAP : Nat := 0x1404
def WF_ERR : Nat := 0x1408
def WF_RETRY_COUNT : Nat := 0x140C
def WF_DROP_COUNT : Nat := 0x1410
def WF_OVER_COUNT : Nat := 0x1414
def WF_FMAP_GEN : Nat := 0x1418
def WF_WREDIR0 : Nat := 0x1420
def WF_WREDIR1 : Nat := 0x1424
def WF_BKT : Nat := 0x1440
def WF_BKT_STAT : Nat := 0x1460
def WF_PBKT : Nat := 0x1480
def WF_PBKT_STAT : Nat := 0x14A0
def WF_FMAP : Nat := 0x1500
def WF_DARN : Nat := 0x1800
def MU_GEOM : Nat := 0x0800
def MU_ERR : Nat := 0x0804
def MU_RES_COUNT : Nat := 0x0808
def MU_RES_LAST : Nat := 0x080C
def LA_GEOM : Nat := 0x0A00
def LA_STATE : Nat := 0x0A04
def LA_ERR : Nat := 0x0A08
def LA_ECC_COUNT : Nat := 0x0A0C
def LA_POISON_COUNT : Nat := 0x0A10
def LA_SR_SEED : Nat := 0x0A14
def LA_SR_ADV : Nat := 0x0A18
def VC_GEOM : Nat := 0x0C00
def VC_STATE : Nat := 0x0C04
def VC_ERR : Nat := 0x0C08
def VC_LAST_COUNT : Nat := 0x0C0C
def SF_GEOM : Nat := 0x0C40
def SF_ERR : Nat := 0x0C44
def SF_UPSTAT : Nat := 0x0C48
def SP_ROWS : Nat := 0x0E00
def SP_GEOM : Nat := 0x0E04
def SP_PWR : Nat := 0x0E08
def SP_PWR_STATE : Nat := 0x0E0C
def SP_ERR : Nat := 0x0E10
def SP_CONF_LAST : Nat := 0x0E14
def SP_ECC_COUNT : Nat := 0x0E18
def SP_CONF_COUNT : Nat := 0x0E1C
def SP_WINREF_COUNT : Nat := 0x0E20
def SP_SLOT : Nat := 0x0E24
def SP_SPOOL_PTR : Nat := 0x0E80
def SH_ERR : Nat := 0x1000
def SH_CVT_FLAGS : Nat := 0x1004
def SH_REACH : Nat := 0x1008
/-- Block offsets of the sequencer status in a unit block (R570). -/
def SEQ_POS : Nat := 0x100
def STALL_FIRE : Nat := 0x104
def STALL_CMD : Nat := 0x108
def STALL_IN : Nat := 0x10C
def STALL_OUT : Nat := 0x110
def Q_STARVE : Nat := 0x120
def Q_FULL : Nat := 0x140
def Q_STATE : Nat := 0x160
/-- Port block (R572). -/
def GL_GEOM : Nat := 0x2000
def GL_ROLE : Nat := 0x2004
def GL_STAT : Nat := 0x2008
def GL_SPMAP0 : Nat := 0x200C
def GL_SPMAP1 : Nat := 0x2010
def GL_ERR : Nat := 0x2014
def GL_REPLAY_COUNT : Nat := 0x2018
def GL_RETRAIN_COUNT : Nat := 0x201C
def GL_DROP_COUNT : Nat := 0x2020
def GL_SPMAP2 : Nat := 0x2024
def GL_SPMAP3 : Nat := 0x2028
def GL_RCGEOM : Nat := 0x2040
def GL_RCCFG : Nat := 0x2044
def GL_PFCFG : Nat := 0x2048
def GL_RCERR : Nat := 0x204C
def GL_RCHIT_COUNT : Nat := 0x2050
def GL_RCMISS_COUNT : Nat := 0x2054
def GL_RCINV_COUNT : Nat := 0x2058
def GL_PFFILL_COUNT : Nat := 0x205C
def GL_RCECC_COUNT : Nat := 0x2060
def GL_RORNG : Nat := 0x2100
/-- Group windows (R573). -/
def TC_CFG : Nat := 0x4600
def SP_CFG : Nat := 0x42E0
/-- Steward registers (R565). -/
def ST_ID : Nat := 0x000
def ST_DIEID_LO : Nat := 0x004
def ST_DIEID_HI : Nat := 0x008
def ST_BOOT : Nat := 0x00C
def ST_FW : Nat := 0x010
def ST_LOCK : Nat := 0x014
def ST_PROT : Nat := 0x018
def ST_PROTERR : Nat := 0x01C
def ST_PROTVIOL_COUNT : Nat := 0x020
def ST_MBOX_LO : Nat := 0x024
def ST_MBOX_HI : Nat := 0x028
def ST_IDKEY : Nat := 0x040
def ST_FOVR : Nat := 0x080
def GL_DISC : Nat := 0x100
def GL_FEAT_OWN_LO : Nat := 0x104
def GL_FEAT_OWN_HI : Nat := 0x108
def GL_FEAT_AGR_LO : Nat := 0x10C
def GL_FEAT_AGR_HI : Nat := 0x110
def ST_SITE_COUNT : Nat := 0x200
def ST_SITE_GEN : Nat := 0x204
def ST_SLEEP : Nat := 0x208
def ST_DL_CFG : Nat := 0x210
def ST_STITCH_CFG : Nat := 0x214
def ST_VSET : Nat := 0x300
def ST_PWRLIM : Nat := 0x310
def ST_PWR_EST : Nat := 0x314
def ST_PWR_ERR : Nat := 0x318
def ST_THERM : Nat := 0x31C
def ST_DARNTAB_LO : Nat := 0x400
def ST_DARNTAB_HI : Nat := 0x404
def ST_DARN_STAT : Nat := 0x408
def ST_FLOG_COUNT : Nat := 0x40C
def ST_FLOG_SEL : Nat := 0x410
def ST_FLOG_E : Nat := 0x414
def ST_PHEM : Nat := 0x424
def ST_FPOL : Nat := 0x440
def BT_CFG : Nat := 0x500
def BT_CTL : Nat := 0x504
def BT_STAT : Nat := 0x508
def BT_POS : Nat := 0x50C
def BT_SAVE_LO : Nat := 0x510
def BT_SAVE_HI : Nat := 0x514
def BT_REC_LO : Nat := 0x518
def BT_REC_HI : Nat := 0x51C
def LM_GEOM : Nat := 0x600
def LM_CTX_SEL : Nat := 0x604
def LM_CTX_STATE : Nat := 0x608
def LM_CTX_CIDX : Nat := 0x60C
def LM_CTX_PIDX : Nat := 0x610
def LM_CTX_EVT : Nat := 0x614
def LM_CTX_ERR : Nat := 0x618
def LM_ERR : Nat := 0x61C
def LM_DROP_COUNT : Nat := 0x620
def ST_ABKT : Nat := 0x800
end Reg

/-! ## Sites and fields (R16 to R22) -/

def siteX (n : Nat) : Nat := n % 48
def siteY (n : Nat) : Nat := n / 48

/-- The site index of (X,Y), if it lies in the grid (R16, R18). -/
def siteAt (x y : Nat) : Option Site :=
  if h : x < 48 ∧ y < 50 then some ⟨y * 48 + x, by omega⟩ else none

/-- The reticle field of a site (R17). -/
def fieldOf (n : Nat) : Nat := 2 * (if 25 ≤ siteY n then 1 else 0) + (if 24 ≤ siteX n then 1 else 0)

/-- Port sites (R21). -/
def isPortSite (n : Nat) : Bool := siteX n % 4 == 2 && siteY n % 6 == 2 && siteY n ≤ 44

/-- The port index of a port site (R21). -/
def portOfSite (n : Nat) : Nat := 12 * ((siteY n - 2) / 6) + (siteX n - 2) / 4

/-- The site of a port tile (R21). -/
def siteOfPort (p : PortIx) : Site :=
  ⟨(6 * (p.val / 12) + 2) * 48 + (4 * (p.val % 12) + 2), by omega⟩

/-- The home port of a site (R22). -/
def homePort (n : Nat) : Nat := 12 * min (siteY n / 6) 7 + siteX n / 4

/-- The port that carries the management attachment of a field: 41, 42, 53, 54 (R353). -/
def attPort (a : FieldNo) : PortIx := if a.val = 0 then 41 else if a.val = 1 then 42 else if a.val = 2 then 53 else 54

/-- The field of a site as a field number. -/
def fieldNo (s : Site) : FieldNo := ⟨fieldOf s.val % 4, Nat.mod_lt _ (by decide)⟩

/-- Manhattan distance of two sites. -/
def siteDist (a b : Nat) : Nat :=
  (max (siteX a) (siteX b) - min (siteX a) (siteX b)) + (max (siteY a) (siteY b) - min (siteY a) (siteY b))

/-- Every site, in index order. -/
def allSites : List Site := List.finRange 2400

/-- Every port, in index order. -/
def allPorts : List PortIx := List.finRange 96

/-! ## Group windows (R573, R574) -/

/-- Window base of a group. -/
def groupBase (g : Nat) : Nat :=
  match g with
  | 0 => 0x4000 | 1 => 0x4100 | 2 => 0x8000 | 3 => 0x4200 | 4 => 0x4400 | 5 => 0x4500 | 6 => 0x4600 | _ => 0x4700

/-- Image words of a group. -/
def groupWords (g : Nat) : Nat :=
  match g with
  | 0 => 57 | 1 => 56 | 2 => 1888 | 3 => 105 | 4 => 56 | 5 => 13 | 6 => 4 | _ => 1

/-- The void pattern of a group: every field at its reset value (R300). -/
def voidWord (g k : Nat) : Word :=
  if g < 5 && k == 3 then 0xFF
  else if g == 0 && k == 56 then 3
  else if g == 5 && k == 12 then 0xFFFFF
  else if g == 6 && k == 2 then 0xFFFF
  else if g == 6 && k == 3 then 0x1F
  else 0

/-- The RWS bits of an image word; other bits are not part of the image (R573). -/
def imageMask (g k : Nat) : Word :=
  if g < 5 && k < 56 then
    if k == 0 then 0xC0000000 else if k == 1 then 0xFFFFFFFF else if k == 2 then 0x00FFFFFF else if k == 3 then 0xFF
    else if k < 18 then 0xFFFFFFFF else if k < 26 then 0xFFFFF800 else if k < 42 then 0xFFFFFFFF
    else if k < 46 then 0xFFFF0000 else if k < 50 then 0xFFE00FFF else if k < 54 then 0xFFFFFFF0 else 0xFFC00FFF
  else match g with
    | 0 => 3
    | 2 => if k < 72 then 0xFFFFFFFF else if k < 88 then 0x800F7FF8 else if k < 344 then 0xFFFFFF00
      else if (k - 344) % 386 = 385 then 7 else 0xFFFFFFFF
    | 3 => if k == 56 then 1 else if k < 89 then 0xDFFF0FFF else 0xF1FFFFFF
    | 5 => if k < 4 then 0xF8000000 else if k < 12 then 0xFFFFFFF0 else 0xFFFFF
    | 6 => if k == 0 then 0x1F00 else if k == 1 then 0xFFFE else if k == 2 then 0xFFFFFFFF else 0x1F
    | _ => 0xF

/-- The bits of a field that a written value leaves as they were because its encoding is reserved (R14). -/
def keepIf (w : Word) (lo len : Nat) (bad : Nat → Bool) : Word := if bad (fld w lo len) then mask32 lo len else 0

/-- The bits of a QNEED word whose level is reserved (R288). -/
def qneedKeep (w : Word) : Word :=
  ((List.range 8).map fun q => keepIf w (3 * q) 3 (6 ≤ ·)).foldl (· ||| ·) 0

/-- The bits of a destination word refused by R289: PATH 3, reserved UNIT, or a weft address outside the grid. -/
def dstKeep (w : Word) : Word :=
  if fld w 30 2 == 2 && (47 < fld w 22 6 || 49 < fld w 16 6) then 0xFFFFFFFF
  else keepIf w 30 2 (· == 3) ||| keepIf w 12 4 (fun u => (5 ≤ u && u < 8) || 12 ≤ u)

/-- The largest MODE of a step opcode (R177). -/
def sfModeMax (opc : Nat) : Nat :=
  match opc with
  | 0x05 => 1
  | 0x06 => 1
  | 0x07 => 2
  | 0x08 => 2
  | 0x09 => 7
  | _ => 0

/-- The bits of a step word that a software write leaves unchanged (R14, R177): MODE goes with a reserved opcode. -/
def stepKeep (w : Word) : Word :=
  if 0x0C ≤ fld w 27 5 then 0xF8007000 else keepIf w 12 3 (sfModeMax (fld w 27 5) < ·)

/-- The bits of an image word that a software write leaves unchanged because their encoding is reserved (R14, R177 to R179,
R287 to R291). The LTID 0xFFFF that R259 reserves is the field's reset value, and a write of it is stored (assumption 65, DESIGN
CHOICE); so is a SIZE of a spool or ROWS of a window above 4,096, which the commit treats (R242, R255; assumption 80). -/
def imageKeep (g k : Nat) (w : Word) : Word :=
  if g < 5 && k < 56 then
    if k == 2 then qneedKeep w
    else if 18 ≤ k && k < 26 then keepIf w 14 3 (5 ≤ ·)
    else if 42 ≤ k && k < 46 then keepIf w 28 3 (4 ≤ ·) ||| keepIf w 25 3 (6 ≤ ·) ||| keepIf w 20 2 (· == 3)
    else if 50 ≤ k && k < 54 then dstKeep w
    else if 54 ≤ k then keepIf w 27 3 (6 ≤ ·)
    else 0
  else if g == 2 && 72 ≤ k && k < 88 then
    keepIf w 12 3 (· == 7) ||| keepIf w 9 3 (· == 7) ||| keepIf w 6 3 (· == 7) ||| keepIf w 3 3 (· == 7)
  else if g == 2 && 88 ≤ k && k < 344 then stepKeep w
  else if g == 2 && 344 ≤ k && (k - 344) % 386 == 385 then keepIf w 0 2 (2 ≤ ·)
  else if g == 5 && k < 4 then keepIf w 28 2 (· == 0)
  else if g == 5 && k < 12 then dstKeep w
  else 0

/-- The set-up error flag of a group word (R578): register offset and bit. -/
def imageFlag (g k : Nat) : Nat × Nat :=
  if g < 5 && k < 56 then (Reg.TC_WV_ERR, 3)
  else match g with
    | 2 => (Reg.SF_ERR, 4)
    | 3 => (Reg.SP_ERR, 8)
    | 6 => if k < 2 then (Reg.TC_ERR, 4) else (Reg.TC_WV_ERR, 3)
    | 7 => (Reg.WF_ERR, 9)
    | _ => (Reg.TC_WV_ERR, 3)

/-- The group and image word of a tile-space offset in a window (R573). -/
def windowOf (off : Nat) : Option (Nat × Nat) :=
  [0, 1, 2, 3, 4, 5, 6, 7].findSome? fun g =>
    if groupBase g ≤ off && off < groupBase g + 4 * groupWords g then some (g, (off - groupBase g) / 4) else none

/-! ## Reset values and masks of the tile registers -/

/-- Bucket reset values by class (R361). -/
def bucketReset (c : Nat) : Word :=
  match c with
  | 0 => 0x03E80040
  | 2 => 0xFFFFFFFF
  | 3 => 0x07D00100
  | 5 => 0x0FA00200
  | 7 => 0x07D00100
  | _ => 0

/-- The reset value of a tile register that holds bits of its own. -/
def tileReset (off : Nat) : Word :=
  if off = Reg.TC_WDOG then 0x0F
  else if off = Reg.TC_CFG then 1
  else if off = Reg.SP_CFG then 2
  else if off = Reg.WF_LINKCAP then 0x03E832C8
  else if Reg.WF_BKT ≤ off ∧ off < Reg.WF_BKT + 32 then bucketReset ((off - Reg.WF_BKT) / 4)
  else if Reg.WF_PBKT ≤ off ∧ off < Reg.WF_PBKT + 32 then bucketReset ((off - Reg.WF_PBKT) / 4)
  else 0

/-- The reset value of a port register that holds bits of its own. -/
def portReset (off : Nat) : Word :=
  if off = Reg.GL_ROLE then 0x9000
  else if off = Reg.GL_RCCFG then 3
  else if off = Reg.GL_PFCFG then 0x00400408
  else 0

/-- Default fault policies (R457): ACTION in [9:8], THRESH in [7:0]. -/
def fpolReset (n : Nat) : Word :=
  match n with
  | 1 => 0x202 | 2 => 0x202 | 3 => 0x100 | 4 => 0x203 | 5 => 0x100 | 8 => 0x202 | 10 => 0x100 | 13 => 0x100
  | 14 => 0x100 | _ => 0

/-- The reset value of a steward register that holds bits of its own. -/
def stewardReset (off : Nat) : Word :=
  if off = Reg.ST_DL_CFG then 0x80020040
  else if off = Reg.ST_STITCH_CFG then 0x03E80064
  else if Reg.ST_VSET ≤ off ∧ off < Reg.ST_VSET + 16 then 0x87081414
  else if off = Reg.ST_PWRLIM then 0x05DC04B0
  else if Reg.ST_FPOL < off ∧ off < Reg.ST_FPOL + 60 then fpolReset ((off - Reg.ST_FPOL) / 4)
  else if off = Reg.BT_CFG then 0x80000546
  else if off = Reg.ST_ID then 0x31200000
  else if Reg.ST_ABKT ≤ off ∧ off < Reg.ST_ABKT + 0x100 ∧ (off - Reg.ST_ABKT) % 0x40 < 0x20 then
    bucketReset ((off - Reg.ST_ABKT) % 0x40 / 4)
  else 0

/-- The W1C bits of a tile register (R10). -/
def tileW1C (off : Nat) : Word :=
  if off = Reg.TC_EVT then 7 else if off = Reg.TC_ERR then 0x1F else if off = Reg.TC_WV_ERR then 0x3F
  else if off = Reg.TC_EP_ERR then 0xFF else if off = Reg.TC_DL_STAT then 2 else if off = Reg.TC_SCAN_STAT then 0x5FF
  else if off = Reg.WF_ERR then 0x3FF else if off = Reg.MU_ERR then 7 else if off = Reg.LA_ERR then 0x3F
  else if off = Reg.VC_ERR then 0xF else if off = Reg.SF_ERR then 0x1F else if off = Reg.SP_ERR then 0x1FF
  else if off = Reg.SH_ERR then 7 else if off = Reg.SH_CVT_FLAGS then 0xF else 0

/-- The RW bits of a tile register that take a written value with no further effect (R10). -/
def tileRW (off : Nat) : Word :=
  if off = Reg.TC_WDOG then 0x1F else if off = Reg.TC_SCAN_CTL then 0x2C0001FF else if off = Reg.TC_SCAN_ADDR then 0xFFFFFFFF
  else if off = Reg.TC_SCAN_ADDRH then 0x0FFFFFFF else if off = Reg.TC_SCAN_ROWS then 0x0FFF1FFF
  else if off = Reg.WF_LINKCAP then 0xFFFFFFFF
  else if Reg.WF_BKT ≤ off ∧ off < Reg.WF_BKT + 32 then 0xFFFFFFFF
  else if Reg.WF_PBKT ≤ off ∧ off < Reg.WF_PBKT + 32 then 0xFFFFFFFF
  else 0

/-- The fields of a bucket that holds `old` that a write leaves: RATE 0xFFFF for a class on VC0 or VC1, and BURST below 9 with RATE
nonzero, are reserved; both where what one would leave in force is reserved too (R14, R361). -/
def bucketKeep (c : Nat) (old w : Word) : Word :=
  let badR := fld w 16 16 == 0xFFFF && (c == 0 || c == 1 || c == 4 || c == 6)
  let rate := if badR then fld old 16 16 else fld w 16 16
  let badB := rate != 0 && fld w 0 16 < 9
  if badB && fld old 0 16 < 9 then 0xFFFFFFFF
  else (if badR then 0xFFFF0000 else 0) ||| if badB then 0x0000FFFF else 0

/-- The fields of TC_SCAN_ROWS that a write leaves: a COUNT outside 1 to 4,096, and both where FIRST + COUNT, as it would stand, exceeds
4,096 (R14, R331). -/
def scanRowsKeep (old w : Word) : Word :=
  let badC := fld w 0 13 == 0 || 4096 < fld w 0 13
  if 4096 < fld w 16 12 + (if badC then fld old 0 13 else fld w 0 13) then 0x0FFF1FFF else if badC then 0x1FFF else 0

/-- The RW bits that a written value leaves unchanged in a tile register that holds `old`, because their encoding is reserved (R14, R331,
R361, R485). -/
def tileKeep (off : Nat) (old w : Word) : Word :=
  if off = Reg.TC_WDOG then keepIf w 0 5 (fun v => v < 10 || 20 < v)
  else if off = Reg.TC_SCAN_CTL then keepIf w 26 2 (· == 2)
  else if off = Reg.TC_SCAN_ROWS then scanRowsKeep old w
  else if Reg.WF_BKT ≤ off ∧ off < Reg.WF_BKT + 32 then
    bucketKeep ((off - Reg.WF_BKT) / 4) old w
  else if Reg.WF_PBKT ≤ off ∧ off < Reg.WF_PBKT + 32 then
    bucketKeep ((off - Reg.WF_PBKT) / 4) old w
  else 0

/-- The set-up error flag of a tile register with RW fields (R578). -/
def tileFlag (off : Nat) : Nat × Nat :=
  if off < 0x400 then (Reg.TC_ERR, 4) else if off < 0x1400 then (Reg.SP_ERR, 8) else (Reg.WF_ERR, 9)

/-! ## The register file of a tile -/

/-- A stored tile register. -/
def Tile.reg (t : Tile) (off : Nat) : Word := Map.get tileReset t.regs off

/-- A stored tile register set. -/
def Tile.setReg (t : Tile) (off : Nat) (w : Word) : Tile := { t with regs := Map.set tileReset t.regs off w }

/-- Whether an offset is an error register of a unit, whose flags raise TC_EVT.UNITERR (R224). -/
def isUnitErr (off : Nat) : Bool :=
  off == Reg.MU_ERR || off == Reg.LA_ERR || off == Reg.VC_ERR || off == Reg.SF_ERR || off == Reg.SP_ERR ||
    off == Reg.SH_ERR || off == Reg.SH_CVT_FLAGS

/-- Bits of a W1C register set by hardware; a unit's flag also sets TC_EVT.UNITERR (R10, R224). -/
def Tile.flag (t : Tile) (off : Nat) (bits : Word) : Tile :=
  let t := t.setReg off (t.reg off ||| bits)
  if isUnitErr off then t.setReg Reg.TC_EVT (t.reg Reg.TC_EVT ||| 1) else t

/-- One flag bit set by hardware. -/
def Tile.flagBit (t : Tile) (off bit : Nat) : Tile := t.flag off (at32 1 bit)

/-- A saturating counter increased. -/
def Tile.count (t : Tile) (off n : Nat) : Tile := t.setReg off (satAdd (t.reg off) n)

/-- What an unlisted group is: the void pattern in both slots. -/
def noGroup : Nat → GroupSt := fun _ => GroupSt.reset

/-- A configuration group of a tile. -/
def Tile.group (t : Tile) (g : Nat) : GroupSt := Map.get noGroup t.groups g

/-- A configuration group set. -/
def Tile.setGroup (t : Tile) (g : Nat) (x : GroupSt) : Tile := { t with groups := Map.set noGroup t.groups g x }

/-- The word that an image word of a slot reads as. -/
def slotWord (g : Nat) (m : Map Word) (k : Nat) : Word := Map.get (voidWord g) m k

/-- A word of the active slot of a group (R297). -/
def Tile.act (t : Tile) (g k : Nat) : Word := slotWord g (t.group g).active k

/-- The whole image of a slot. -/
def slotImage (g : Nat) (m : Map Word) : List Word := (List.range (groupWords g)).map (slotWord g m)

/-- A word of the standby slot of a group written under a mask; held instead while the group is committed and has not
switched (R297, R298). -/
def Tile.writeStandby (t : Tile) (g k : Nat) (mask w : Word) : Tile :=
  let x := t.group g
  if t.stitch.mode = .committed && t.stitch.pend.getLsbD g then
    t.setGroup g { x with heldW := x.heldW ++ [(k, mask, w)] }
  else
    t.setGroup g { x with standby := Map.set (voidWord g) x.standby k (mergeMask mask (slotWord g x.standby k) w)
                          wroteCtl := x.wroteCtl || k == 0 }

/-! ## The steward's registers -/

def Steward.reg (s : Steward) (off : Nat) : Word := Map.get stewardReset s.regs off

def Steward.setReg (s : Steward) (off : Nat) (w : Word) : Steward :=
  { s with regs := Map.set stewardReset s.regs off w }

def Steward.flagBit (s : Steward) (off bit : Nat) : Steward := s.setReg off (s.reg off ||| at32 1 bit)

def Steward.count (s : Steward) (off n : Nat) : Steward := s.setReg off (satAdd (s.reg off) n)

/-! ## A port's registers -/

def Port.reg (p : Port) (off : Nat) : Word := Map.get portReset p.regs off

def Port.setReg (p : Port) (off : Nat) (w : Word) : Port := { p with regs := Map.set portReset p.regs off w }

def Port.flagBit (p : Port) (off bit : Nat) : Port := p.setReg off (p.reg off ||| at32 1 bit)

def Port.count (p : Port) (off n : Nat) : Port := p.setReg off (satAdd (p.reg off) n)

/-! ## Access to tiles, ports, the steward and the loom -/

/-- What an unlisted tile is: as after reset, asleep where the die's fuses make its site a spare (R25). -/
def noTile : Nat → Tile := fun n => { Tile.reset with asleep := fusedDefault n == 2 }
def noPort : Nat → Port := fun _ => Port.reset
def noCtx : Nat → Ctx := fun _ => Ctx.reset
def noLoomSite : Nat → LoomSite := fun _ => LoomSite.reset

/-- The tile of a site. -/
def State.tile (s : State) (n : Site) : Tile := Map.get noTile s.tiles n.val

/-- The tile of a site set. -/
def State.setTile (s : State) (n : Site) (t : Tile) : State := { s with tiles := Map.set noTile s.tiles n.val t }

/-- The tile of a site changed. -/
def State.onTile (s : State) (n : Site) (f : Tile → Tile) : State := s.setTile n (f (s.tile n))

/-- Every tile of a list of sites changed. -/
def State.onTiles (s : State) (l : List Site) (f : Site → Tile → Tile) : State :=
  l.foldl (fun s n => s.onTile n (f n)) s

def State.port (s : State) (p : PortIx) : Port := Map.get noPort s.ports p.val

def State.setPort (s : State) (p : PortIx) (x : Port) : State := { s with ports := Map.set noPort s.ports p.val x }

def State.onPort (s : State) (p : PortIx) (f : Port → Port) : State := s.setPort p (f (s.port p))

def State.onPorts (s : State) (l : List PortIx) (f : PortIx → Port → Port) : State :=
  l.foldl (fun s n => s.onPort n (f n)) s

def State.onSteward (s : State) (f : Steward → Steward) : State := { s with steward := f s.steward }

def State.ctx (s : State) (n : StreamNo) : Ctx := Map.get noCtx s.loom.ctxs n.val

def State.setCtx (s : State) (n : StreamNo) (c : Ctx) : State :=
  { s with loom := { s.loom with ctxs := Map.set noCtx s.loom.ctxs n.val c } }

def State.onCtx (s : State) (n : StreamNo) (f : Ctx → Ctx) : State := s.setCtx n (f (s.ctx n))

def State.loomSite (s : State) (n : Site) : LoomSite := Map.get noLoomSite s.loom.sites n.val

def State.setLoomSite (s : State) (n : Site) (x : LoomSite) : State :=
  { s with loom := { s.loom with sites := Map.set noLoomSite s.loom.sites n.val x } }

/-- Tile cycles counted at a site: the model's time for mcycle and SP_SLOT (assumption 5). -/
def State.time (s : State) (n : Site) : Nat := s.cycles + (s.tile n).cycles

/-- The tile cycle of a site counted from its round origin (R230, R259; assumption 5). -/
def State.cycleOf (s : State) (n : Site) : Nat := s.time n - (s.tile n).origin

/-- Messages added to what has been sent. -/
def State.send (s : State) (o : List Out) : State := { s with out := s.out ++ o }

/-- The state `t` that a command leaves of `s`: the queue is not a command's to change, and the chiplet is out of reset. -/
def State.leaves (s t : State) : State := { t with pending := s.pending, inReset := false }

/-- The chiplet in reset does nothing (R540); out of reset a command has its effect. -/
def live (s : State) (f : State → State) : Host.Outcome State Fault Refusal :=
  .next (if s.inReset then s else s.leaves (f s))

end Sys2Proof.Machine
end

