-- ==== Sys2Proof/Machine/Ops.lean ====
section
/-! DEFINITION. The named operations over a tile's memories and units: faults and errors, packets, scratchpad rows with their
check bits, poison and bank gating, tile registers, unit queues. -/

namespace Sys2Proof.Machine

/-! ## Faults, errors and packets of a tile -/

/-- A packet put in the line of its class at the tile's injecting point (R358). -/
def Tile.post (t : Tile) (p : Pkt) : Tile := { t with outq := t.outq ++ [p] }

/-- A control message to the management attachment of the tile's field (R353). -/
def Tile.tell (t : Tile) (me : Site) (m : CtrlMsg) : Tile :=
  t.post { src := .tile me, dst := .att (fieldNo me), cls := 0, flits := 1, body := .ctrl m }

/-- A FAULT message to the steward (R457): code, unit code and a copy of the error register. -/
def Tile.raise (t : Tile) (me : Site) (code unit : Nat) (reg : Word) : Tile :=
  t.tell me (.fault { code := BitVec.ofNat 8 code, unit := BitVec.ofNat 4 unit, reg := reg, us := 0 })

/-- One error of a class raised to the stream's error policy; an unclaimed tile counts none (R447). -/
def Tile.err (t : Tile) (cls : Nat) : Tile :=
  if bitOf (t.reg Reg.TC_STREAM) 31 then { t with errCounts := t.errCounts.modify cls (· + 1) } else t

/-! ## Units -/

/-- A pattern load or a scan-in: KEEPW is no longer allowed until the MU has completed another MM (R76). -/
def Tile.noKeep (t : Tile) : Tile := { t with mu := { t.mu with prev := none } }

/-- The code of a unit (R199). -/
def unitCode : UnitC → Nat
  | .mu => 0 | .la => 1 | .vc => 2 | .sp => 3 | .sh => 4

/-- The unit of a code (R199). -/
def unitOfCode (n : Nat) : Option UnitC :=
  match n with
  | 0 => some .mu | 1 => some .la | 2 => some .vc | 3 => some .sp | 4 => some .sh | _ => none

/-- Queue entries of a unit (R199). -/
def queueEntries : UnitC → Nat
  | .sh => 8
  | _ => 4

def PerUnit.get {α : Type} (p : PerUnit α) : UnitC → α
  | .mu => p.mu | .la => p.la | .vc => p.vc | .sp => p.sp | .sh => p.sh

def PerUnit.set {α : Type} (p : PerUnit α) (u : UnitC) (x : α) : PerUnit α :=
  match u with
  | .mu => { p with mu := x } | .la => { p with la := x } | .vc => { p with vc := x } | .sp => { p with sp := x }
  | .sh => { p with sh := x }

def Tile.unit (t : Tile) (u : UnitC) : UnitSt := t.units.get u

def Tile.setUnit (t : Tile) (u : UnitC) (x : UnitSt) : Tile := { t with units := t.units.set u x }

def Tile.onUnit (t : Tile) (u : UnitC) (f : UnitSt → UnitSt) : Tile := t.setUnit u (f (t.unit u))

/-- Whether a unit takes its commands from its sequencer (R200). -/
def Tile.cmdsrc (t : Tile) (u : Nat) : Bool := bitOf (t.act 6 0) (8 + u)

/-- The set-up block base of a unit (R568). -/
def unitBase (u : Nat) : Nat := 0x0800 + 0x200 * u

/-- A command enters a unit's queue (R201, R270). -/
def Tile.accept (t : Tile) (u : UnitC) (words : List Word) (src : CmdSrc) : Tile :=
  let x := t.unit u
  { t.setUnit u { x with queue := x.queue ++ [{ words := words, src := src, stamp := t.stamp }]
                         issued := match src with | .core _ _ => x.issued + 1 | _ => x.issued } with
    stamp := t.stamp + 1 }

/-- Word `i` of a command. -/
def Cmd.w (c : Cmd) (i : Nat) : Word := c.words.getD i 0

/-- The issue fence of a command is met: every command that it names has completed (R210). -/
def Tile.fenceMet (t : Tile) (c : Cmd) : Bool :=
  match c.src with
  | .seq _ => true
  | .old => true
  | .core f _ => f.all fun (u, n) =>
      match unitOfCode u with
      | some v => n ≤ (t.unit v).done
      | none => true

/-- A command was issued with nonzero bits above the fence mask (R210). -/
def Cmd.badFence (c : Cmd) : Bool :=
  match c.src with
  | .core _ b => b
  | _ => false

/-- The command at the head of a unit's queue, if its fence is met. -/
def Tile.head (t : Tile) (u : UnitC) : Option Cmd :=
  match (t.unit u).queue with
  | c :: _ => if t.fenceMet c then some c else none
  | [] => none

/-- The head of a unit's queue starts: it leaves the queue and joins the commands in progress (R211). -/
def Tile.begin (t : Tile) (u : UnitC) (r : Run) : Tile :=
  t.onUnit u fun x => { x with queue := x.queue.drop 1, running := x.running ++ [r] }

/-- The newest command in progress of a unit changed. -/
def Tile.onLast (t : Tile) (u : UnitC) (f : Run → Run) : Tile :=
  t.onUnit u fun x =>
    match x.running.reverse with
    | r :: rs => { x with running := (f r :: rs).reverse }
    | [] => x

/-- The command in progress with a stamp changed. -/
def Tile.onRun (t : Tile) (u : UnitC) (stamp : Nat) (f : Run → Run) : Tile :=
  t.onUnit u fun x =>
    { x with running := x.running.map fun r => if r.cmd.stamp = stamp then f r else r }

/-! ## The scratchpad (R226 to R252) -/

/-- Bank of a row (R226). -/
def bankOf (row : Nat) : Nat := row / 256

/-- A bank is gated (R256). -/
def Tile.gated (t : Tile) (b : Nat) : Bool := bitOf (t.reg Reg.SP_PWR_STATE) b

/-- A bank is waking (R256). -/
def Tile.waking' (t : Tile) (b : Nat) : Bool := bitOf (t.reg Reg.SP_PWR_STATE) (16 + b)

def noBad : Nat → Option EccKind := fun _ => none

def noPoison : Nat → Bool := fun _ => false

/-- The errors that the words of a row carry. -/
def Tile.badIn (t : Tile) (row : Nat) : List (Nat × EccKind) :=
  t.sp.bad.filterMap fun (w, k) => if w / 64 = row then k.map (fun k => (w, k)) else none

def Tile.onSp (t : Tile) (f : SpSt → SpSt) : Tile := { t with sp := f t.sp }

/-- A row is poisoned (R239). -/
def Tile.rowPoison (t : Tile) (row : Nat) : Bool := Map.get noPoison t.sp.poison row

def Tile.setPoison (t : Tile) (row : Nat) (b : Bool) : Tile :=
  t.onSp fun s => { s with poison := Map.set noPoison s.poison row b }

/-- Stored words go bad (R229). -/
def Tile.upset (t : Tile) (l : List Upset) : Tile :=
  t.onSp fun s => { s with bad := l.foldl (fun m u => Map.set noBad m u.word (some u.kind)) s.bad }

/-- An uncorrectable error in a row: the row is poisoned, SP_ERR.ECC_UE set and SP_UE raised (R238). -/
def Tile.spUe (t : Tile) (me : Site) (row : Nat) : Tile :=
  let t := (t.setPoison row true).flagBit Reg.SP_ERR 2
  t.raise me 0x01 3 (t.reg Reg.SP_ERR)

/-- A corrected error: counted and flagged (R238). -/
def Tile.spCe (t : Tile) : Tile := (t.flagBit Reg.SP_ERR 1).count Reg.SP_ECC_COUNT 1

/-- The check of one bad word that a read delivers (R238). -/
def Tile.checkWord (t : Tile) (me : Site) (wk : Nat × EccKind) : Tile :=
  match wk.2 with
  | .ce => (t.spCe).onSp fun s =>
      { s with writeback := if wk.1 ∈ s.writeback then s.writeback else s.writeback ++ [wk.1] }
  | .ue => t.spUe me (wk.1 / 64)

/-- Every word of a row checked (R238). -/
def Tile.checkRow (t : Tile) (me : Site) (row : Nat) : Tile := (t.badIn row).foldl (fun t wk => t.checkWord me wk) t

/-- What a read of rows delivers: the bytes, the rows delivered marked poisoned, and whether a bank was gated (R252). -/
structure RowsRead where
  tile : Tile
  bytes : List Byte
  poisoned : List Nat
  gated : Bool
deriving DecidableEq, Repr

/-- The bytes of a row as a read delivers them: stored bytes, and open bytes in words that cannot be corrected. -/
def Tile.rowBytes (t : Tile) (row : Nat) : List Byte :=
  let ue := (t.badIn row).filterMap fun (w, k) => if k = .ue then some (w % 64) else none
  if ue.isEmpty then Memory.readBytes t.sp.mem (512 * row) 512
  else (List.range 512).map fun i =>
    if (i / 8) ∈ ue then Config.lostByte t.fresh row i else Memory.read t.sp.mem (512 * row + i)

/-- A read of one row (R227, R238, R239, R252). -/
def Tile.readRow (t : Tile) (me : Site) (row : Nat) : RowsRead :=
  if t.gated (bankOf row) || t.waking' (bankOf row) then
    { tile := t.flagBit Reg.SP_ERR 7, bytes := (List.range 512).map (Config.lostByte t.fresh row), poisoned := [row]
      gated := true }
  else
    let bytes := t.rowBytes row
    let t := t.checkRow me row
    { tile := t, bytes := bytes, poisoned := if t.rowPoison row then [row] else [], gated := false }

/-- A read of rows in increasing order. -/
def Tile.readRows (t : Tile) (me : Site) (rows : List Nat) : RowsRead :=
  rows.foldl (fun a r =>
    let b := a.tile.readRow me r
    { tile := b.tile, bytes := a.bytes ++ b.bytes, poisoned := a.poisoned ++ b.poisoned, gated := a.gated || b.gated })
    { tile := t, bytes := [], poisoned := [], gated := false }

/-- A write under a byte mask to a bank that is in service: bytes `off` to `off + data.length - 1` of a row (R227, R229,
R239). A word with an uncorrectable error keeps its stored bytes outside the mask (assumption 12, DESIGN CHOICE). -/
def Tile.storeRow (t : Tile) (me : Site) (row off : Nat) (data : List Byte) (poison : Bool) : Tile :=
  let hit := t.badIn row
  let full := fun w : Nat => off ≤ 8 * (w % 64) && 8 * (w % 64) + 8 ≤ off + data.length
  let part := fun w : Nat => !full w && 8 * (w % 64) < off + data.length && off < 8 * (w % 64) + 8
  let t := (hit.filter fun wk => part wk.1).foldl (fun t wk =>
    match wk.2 with
    | .ce => t.spCe
    | .ue => t.spUe me row) t
  let t := t.onSp fun s =>
    { s with mem := Memory.writeBytes s.mem (512 * row + off) data
             bad := s.bad.filter fun e => e.1 / 64 ≠ row || !(full e.1 || part e.1)
             writeback := s.writeback.filter fun w => w / 64 ≠ row }
  if poison then t.setPoison row true else if 512 ≤ data.length then t.setPoison row false else t

/-- A write to a gated bank clears its GATE bit and starts its wake (R251). -/
def Tile.wakeBank (t : Tile) (b : Nat) : Tile :=
  let t := t.setReg Reg.SP_PWR (t.reg Reg.SP_PWR &&& ~~~(at32 1 b))
  t.setReg Reg.SP_PWR_STATE ((t.reg Reg.SP_PWR_STATE &&& ~~~(at32 1 b)) ||| at32 1 (16 + b))

/-- The engine whose write found a bank gated holds each of its later writes until the wake ends (R251). -/
def Tile.holdsEng (t : Tile) (eng : Nat) : Bool := t.sp.held.any fun h => h.eng = eng

/-- A write of part of a row or all of it (R227) by an engine, named by its code (R257): a gated or waking bank holds it and the
engine's later writes until its wake ends (R251; of one that finds the bank already waking too, assumption 80). -/
def Tile.writeRow (t : Tile) (me : Site) (row off : Nat) (data : List Byte) (poison : Bool) (eng : Nat := 3) : Tile :=
  if data.isEmpty then t
  else if t.holdsEng eng || t.gated (bankOf row) || t.waking' (bankOf row) then
    let t := if t.gated (bankOf row) && !t.holdsEng eng then t.wakeBank (bankOf row) else t
    t.onSp fun s => { s with held := s.held ++ [{ eng := eng, row := row, off := off, data := data, poison := poison }] }
  else t.storeRow me row off data poison

/-- Bytes written densely from the first byte of a row on, row by row; `bad` names the rows (from 0) that carry poison. -/
def Tile.writeDense (t : Tile) (me : Site) (row : Nat) (data : List Byte) (bad : Nat → Bool) : Tile :=
  (List.range ((data.length + 511) / 512)).foldl (fun t k =>
    t.writeRow me (row + k) 0 ((data.drop (512 * k)).take 512) (bad k)) t

/-- A write of an engine to a row range is held. -/
def Tile.holdsRows (t : Tile) (engs : List Nat) (rows : List (Nat × Nat)) : Bool :=
  t.sp.held.any fun h => engs.contains h.eng && rows.any fun (a, n) => a ≤ h.row && h.row < a + n

/-- The engines by which a unit's commands write the scratchpad (R257). -/
def unitEngines : UnitC → List Nat
  | .mu => [6] | .la => [1] | .vc => [0] | .sp => [4] | .sh => [2, 7]

/-- SP_CONF_LAST of a conflict (R257). -/
def confWord (c : Conflict) : Word :=
  at32 c.held.toNat 17 ||| at32 c.served.toNat 14 ||| flag32 c.wport 13 ||| at32 c.bank.toNat 4 ||| at32 c.slot.toNat 0

/-- A conflict as it must have fallen (R230, R234): the MU is served before the bulk shuttle, and both before a slotted engine; the MU
only reads. None where no privileged access takes part, or the port is none that the other engine uses. -/
def fixConflict (c : Conflict) : Option Conflict :=
  let a := c.held.toNat
  let b := c.served.toNat
  let one := fun e => a = e || b = e
  let other := fun e => if a = e then c.held else c.served
  if one 6 then
    if other 6 ∈ ([0, 1, 2, 5, 7] : List (BitVec 3)) then some { c with held := other 6, served := 6, wport := false } else none
  else if one 7 then
    if other 7 ∈ (if c.wport then [0, 1, 2, 3, 4, 5] else [0, 1, 2, 5] : List (BitVec 3)) then
      some { c with held := other 7, served := 7 } else none
  else none

/-- An engine takes part in a conflict: 6 MU, 7 bulk shuttle (R257). -/
def confHas (c : Conflict) (e : Nat) : Bool := c.held.toNat == e || c.served.toNat == e

/-- The first element that satisfies `p` changed. -/
def onFirst {α : Type} (p : α → Bool) (f : α → α) : List α → List α
  | [] => []
  | x :: xs => if p x then f x :: xs else x :: onFirst p f xs

/-- The newest privileged command of a unit in progress has had a conflict (R235). -/
def Tile.privConf (t : Tile) (u : UnitC) (flag : Nat) (bit : Nat) (p : Run → Bool) : Tile :=
  if (t.unit u).running.any p then
    (t.flagBit flag bit).onUnit u fun x =>
      { x with running := (onFirst p (fun r : Run => { r with conflict := true }) x.running.reverse).reverse }
  else t

/-- A shuttle command that uses the bulk path (R215). -/
def Run.bulk (r : Run) : Bool := !r.malformed && bitOf (r.cmd.w 0) 9

/-- A conflict recorded, and the privileged commands in it marked but for the engine `own`, whose command starts with it
(R234, R235). -/
def Tile.conflict (t : Tile) (own : Nat) (c : Conflict) : Tile :=
  match fixConflict c with
  | none => t
  | some c =>
    let t := ((t.flagBit Reg.SP_ERR 3).count Reg.SP_CONF_COUNT 1).setReg Reg.SP_CONF_LAST (confWord c)
    let t := if confHas c 6 && own != 6 then t.privConf .mu Reg.MU_ERR 2 (fun r => !r.malformed) else t
    if confHas c 7 && own != 7 then t.privConf .sh Reg.SH_ERR 1 Run.bulk else t

/-! ## Tile registers (R137) -/

def trfZero : Nat → Word := fun _ => 0

/-- Entry (r, c) of a tile register. -/
def Tile.trfGet (t : Tile) (n r c : Nat) : Word := Map.get trfZero t.trf (1024 * n + 32 * r + c)

/-- A row of a tile register. -/
def Tile.trfRow (t : Tile) (n r : Nat) : List Word := (List.range 32).map (t.trfGet n r)

def Tile.trfSet (t : Tile) (n r c : Nat) (w : Word) : Tile :=
  { t with trf := Map.set trfZero t.trf (1024 * n + 32 * r + c) w }

/-- Consecutive entries of a tile register set from (r, c) on. -/
def Tile.trfSetAll (t : Tile) (n r c : Nat) (ws : List Word) : Tile :=
  { t with trf := Map.setAll trfZero t.trf ((List.range ws.length).map fun i => (1024 * n + 32 * r + c + i, ws.getD i 0)) }

/-- Rows of the read and the write port of the register file that operations of the VC take in a tile cycle (R138, R139). -/
def Tile.vcRows (t : Tile) (now : Nat) : Nat × Nat :=
  t.units.vc.running.foldl (fun a r => r.trf.foldl (fun a u =>
    if u.1 = now then (a.1 + u.2.1, a.2 + u.2.2) else a) a) (0, 0)

/-- Rows that the VC leaves of the read port and of the write port in a tile cycle (R138, R139). -/
def Tile.readLeft (t : Tile) (now : Nat) : Nat := 4 - (t.vcRows now).1
def Tile.writeLeft (t : Tile) (now : Nat) : Nat := 4 - (t.vcRows now).2

/-! ## Credits and tokens that leave a tile -/

/-- A packet in flight that matches has been delivered; the rest stay (assumption 8). -/
def dropFirst (l : List Pkt) (p : Pkt → Bool) : List Pkt :=
  match l with
  | [] => []
  | x :: xs => if p x then xs else x :: dropFirst xs p

def State.deliver (s : State) (p : Pkt → Bool) : State := { s with net := dropFirst s.net p }

/-- The site at which a unicast packet ends; a multicast has no single one. -/
def Dest.site? : Dest → Option Site
  | .site n => some n
  | .att a => some (siteOfPort (attPort a))
  | .port p => some (siteOfPort p)
  | .rects _ => none

/-- The site whose router a point injects at. -/
def pointSite : InjPoint → Site
  | .tile n => n
  | .port p => siteOfPort p
  | .attach a => siteOfPort (attPort a)

/-- KIND of a body (R337). -/
def PktBody.kind : PktBody → Nat
  | .data _ => 1 | .ack _ _ => 2 | .token _ _ _ _ => 3 | .credit _ _ _ _ => 4 | .ctrl _ => 5 | .pattern _ => 6 | .drop _ _ => 8
  | .k2 _ _ => 9
  | .greq _ => 7 | .preq _ _ _ => 7 | .gdata _ _ _ _ => 7 | .pdone _ _ => 7 | .rrd _ => 7 | .rwr _ _ _ => 7 | .rrsp _ _ _ _ => 7

/-- The virtual channel of a class (R357). -/
def classVch (c : Nat) : Nat := if c = 0 then 0 else if c = 1 || c = 4 || c = 6 then 1 else if c = 7 then 3 else 2

/-- The channel of a packet: its class's, and VC1 for every REACH packet, of class TEST too (R337, R361; assumption 71). -/
def Pkt.vch (p : Pkt) : Nat := if p.body.kind = 7 then 1 else classVch p.cls.val

/-- Two packets are of one source, one destination and one channel, and keep their order (R347). -/
def Pkt.sameLine (p q : Pkt) : Bool :=
  pointSite p.src == pointSite q.src && p.dst.site? == q.dst.site? && p.vch == q.vch

/-- A packet stands whole in its ejection buffer, and every packet of its line that came before it has left (R344, R347). -/
def State.mayTake (s : State) (p : Pkt) : Bool := s.net.find? (fun q => q.whole && q.sameLine p) == some p

/-- A packet that a row reports may leave its ejection buffer; one that the weft does not hold comes from a unit that the model does
not run (assumption 8). -/
def State.mayGet (s : State) (m : Pkt → Bool) : Bool := !s.net.any m || s.net.any fun p => m p && s.mayTake p

/-- A reported packet leaves the weft and has its effect. While it is still on its way, or behind another of its line, the report is
none (assumption 8). -/
def State.receive (s : State) (m : Pkt → Bool) (f : State → State) : State :=
  if s.mayGet m then f (s.deliver fun p => m p && s.mayTake p) else s

/-- A slice in progress tests the scratchpad bank of a row: accesses that come to the tile for it are held (R490, R496). -/
def State.bankTested (s : State) (n : Site) (row : Nat) : Bool :=
  s.steward.slice.any fun x => x.site == n && x.item == 0x10 + row / 256

/-- A slice in progress tests the tile's sequencers: tokens that come to it are held (R490, R496). -/
def State.seqTested (s : State) (n : Site) : Bool := s.steward.slice.any fun x => x.site == n && x.item == 6

/-- A fault message of the same content, whenever it arrives. -/
def sameFault (a b : FaultMsg) : Bool := a.code == b.code && a.unit == b.unit && a.reg == b.reg

/-- A tile is in service: enabled, awake, not hemmed (R25, R462). -/
def Tile.hemmed (t : Tile) : Bool := bitOf (t.reg Reg.TC_HEM) 31 && fld (t.reg Reg.TC_HEM) 0 2 < 2

/-- The fused state of a site, code 0x3 at a site without a port read as fenced (R26). -/
def Steward.fused (s : Steward) (n : Nat) : BitVec 2 :=
  let f := Map.get fusedDefault s.fuses.site n
  if f = 3 && !isPortSite n then 0 else f

/-- The current state of a site (R25). -/
def Steward.site (s : Steward) (n : Nat) : BitVec 2 := Map.get s.fused s.siteState n

def Steward.setSite (s : Steward) (n : Nat) (v : BitVec 2) : Steward :=
  { s with siteState := Map.set s.fused s.siteState n v }

/-- The compute section of a site is powered, so that its set-up words outside the router and port blocks answer (R25, R561). -/
def State.powered (s : State) (n : Site) : Bool :=
  (s.steward.site n.val == 1 || s.steward.site n.val == 2) && !(s.tile n).asleep

/-- The tile of a site changed by its units; a site whose compute section has no power does nothing (R25). -/
def State.onUnits (s : State) (n : Site) (f : Tile → Tile) : State := if s.powered n then s.onTile n f else s

/-- Stepping B0 and not A1 (R3). -/
def Steward.isB0 (s : Steward) : Bool := s.fuses.stepping != 0x11

/-- The agreed feature bit is in force (R392). -/
def Steward.feature (s : Steward) (b : Nat) : Bool := bitOf (s.reg Reg.GL_FEAT_AGR_LO) b

end Sys2Proof.Machine
end

