-- ==== Sys2Proof/Machine/Flits.lean ====
section
/-! DEFINITION. Packets of the weft as flits: control words, payloads, route flits (R335 to R338, R354, R407, R457). -/

namespace Sys2Proof.Machine

/-! ## The control word (R336) -/

/-- CRC-16 of a flit: control bit 63 first, then payload byte by byte, bit 7 first (R338). -/
def flitCrc (ctl : BitVec 64) (payload : BitVec 512) : BitVec 16 :=
  (leBytes 64 payload.toNat).foldl (fun c b => crc16Bits b 8 c) (crc16Bits ctl 64 0xFFFF#16)

def flitVch (f : Flit) : Nat := fld f.ctl 62 2
def flitFt (f : Flit) : Nat := fld f.ctl 60 2
def flitHead (f : Flit) : Bool := flitFt f == 0 || flitFt f == 3
def flitTail (f : Flit) : Bool := flitFt f == 2 || flitFt f == 3

/-- The source and the destination that a head flit names (R336). -/
def flitSrc (ctl : BitVec 64) : Nat := fld ctl 24 6 * 48 + fld ctl 30 6
def flitDst (ctl : BitVec 64) : Nat := fld ctl 36 6 * 48 + fld ctl 42 6

/-- OP and the bits that go with it of a control message: those of R457, and free ones for the messages whose codes the spec does not
give (assumption 71). -/
def CtrlMsg.arg : CtrlMsg → Nat
  | .fault _ => 0x40 <<< 16
  | .ping _ => 0x41 <<< 16
  | .pong _ => 0x42 <<< 16
  | .hem _ => 0x43 <<< 16
  | .seghold _ _ => 0x44 <<< 16
  | .segheld => 0x45 <<< 16
  | .go => 0x47 <<< 16
  | .seggo _ _ => 0x48 <<< 16
  | .openStitch a b => (Config.ctrlArg (.openStitch a b)).toNat
  | .armed a => (Config.ctrlArg (.armed a)).toNat
  | .failed a b => (Config.ctrlArg (.failed a b)).toNat
  | .commit a => (Config.ctrlArg (.commit a)).toNat
  | .abort a => (Config.ctrlArg (.abort a)).toNat
  | .switched a => (Config.ctrlArg (.switched a)).toNat
  | .spill a => (Config.ctrlArg (.spill a)).toNat
  | .spilled a => (Config.ctrlArg (.spilled a)).toNat
  | .streamMsg a b c d => (Config.ctrlArg (.streamMsg a b c d)).toNat
  | .release a => (Config.ctrlArg (.release a)).toNat
  | .errors a => (Config.ctrlArg (.errors a)).toNat

/-- STATUS and RTAG of a reach packet (R407). -/
def reachArg (rop : Nat) (status : BitVec 3) (rtag : BitVec 12) : Nat := rop <<< 20 ||| status.toNat <<< 17 ||| rtag.toNat <<< 5

/-- ARG of a packet (R337, R395, R407). -/
def Pkt.arg (p : Pkt) : Nat :=
  match p.body with
  | .data d => d.row.toNat <<< 12 ||| d.rem.toNat
  | .ack row st => row.toNat <<< 12 ||| st.toNat <<< 10
  | .token u q _ _ => u.toNat <<< 20 ||| q.toNat <<< 17
  | .credit u k n _ => u.toNat <<< 20 ||| k.toNat <<< 18 ||| n.toNat <<< 13
  | .ctrl m => m.arg
  | .pattern _ => if p.part = 0 then 1 <<< 23 else 0
  | .drop k row => k.toNat <<< 20 ||| row.toNat <<< 8
  | .greq h => reachArg 1 0 h.rtag
  | .preq h _ _ => reachArg 2 0 h.rtag
  | .gdata r st _ _ => reachArg 3 st r
  | .pdone r st => reachArg 4 st r
  | .rrd h => reachArg 5 0 h.rtag
  | .rwr h _ _ => reachArg 6 0 h.rtag
  | .rrsp r st _ _ => reachArg 7 st r
  | .k2 arg _ => arg.toNat

/-- POISON of a packet's flit `k`: of PREQ and GDATA, whose flit 0 is the header, by the data the flit carries (R239, R406). -/
def PktBody.poisoned (k : Nat) : PktBody → Bool
  | .data d => d.poison | .preq _ _ p => (false :: p).getD k false | .gdata _ _ _ p => (false :: p).getD k false | .rwr _ _ p => p | .rrsp _ _ _ p => p
  | .ack _ _ => false | .token _ _ _ _ => false | .credit _ _ _ _ => false | .ctrl _ => false | .pattern _ => false
  | .drop _ _ => false | .greq _ => false | .pdone _ _ => false | .rrd _ => false | .k2 _ _ => false

/-- The control word of a packet's flit `k`, of type `ft`; bits [58:0] of BODY and TAIL flits are zero (R336). -/
def Pkt.ctl (p : Pkt) (ft k : Nat) : BitVec 64 :=
  let src := (pointSite p.src).val
  let (mc, dx, dy) : Nat × Nat × Nat := match p.dst.site? with
    | some d => (0, siteX d.val, siteY d.val)
    | none => (1, 0, 0)
  let head := p.body.kind <<< 52 ||| p.cls.val <<< 49 ||| mc <<< 48 ||| dx <<< 42 ||| dy <<< 36 ||| siteX src <<< 30 |||
    siteY src <<< 24 ||| p.arg
  BitVec.ofNat 64 (p.vch <<< 62 ||| ft <<< 60 ||| (if p.body.poisoned k then 1 <<< 59 else 0) |||
    (if ft = 0 || ft = 3 then head else 0))

/-! ## Payloads -/

/-- The reach header (R407). -/
def reachHdrBytes (h : ReachHdr) : List Byte :=
  leBytes 8 h.addr.toNat ++ leBytes 2 h.len.toNat ++ leBytes 2 (h.addr.toNat % 512) ++
    leBytes 2 (h.stream.toNat ||| (if h.sv then 1 <<< 14 else 0)) ++ leBytes 50 (if h.orig then 1 else 0)

/-- A header and the data flits of a reach packet: bytes from OFF mod 64 on, zeros around them (R407). -/
def reachBytes (h : ReachHdr) (data : List Byte) : List Byte :=
  reachHdrBytes h ++ (if data.isEmpty then [] else List.replicate (h.addr.toNat % 64) 0 ++ data)

/-- The payload of a control message (R457); that of the messages whose layout the spec does not give is free (assumption 71). -/
def CtrlMsg.bytes (src : Nat) : CtrlMsg → List Byte
  | .fault f => leBytes 1 f.code.toNat ++ leBytes 3 f.unit.toNat ++ leBytes 4 f.reg.toNat
  | .ping n => leBytes 4 n.toNat
  | .pong n => leBytes 4 n.toNat
  | .hem k => leBytes 1 k.toNat
  | .seghold n w => leBytes 2 n.val ++ leBytes 2 w.toNat
  | .segheld => leBytes 2 src
  | .go => []
  | .seggo n w => leBytes 2 n.val ++ leBytes 2 w.toNat
  | .openStitch a b => leBytes 64 (Config.ctrlPayload (.openStitch a b)).toNat
  | .armed a => leBytes 64 (Config.ctrlPayload (.armed a)).toNat
  | .failed a b => leBytes 64 (Config.ctrlPayload (.failed a b)).toNat
  | .commit a => leBytes 64 (Config.ctrlPayload (.commit a)).toNat
  | .abort a => leBytes 64 (Config.ctrlPayload (.abort a)).toNat
  | .switched a => leBytes 64 (Config.ctrlPayload (.switched a)).toNat
  | .spill a => leBytes 64 (Config.ctrlPayload (.spill a)).toNat
  | .spilled a => leBytes 64 (Config.ctrlPayload (.spilled a)).toNat
  | .streamMsg a b c d => leBytes 64 (Config.ctrlPayload (.streamMsg a b c d)).toNat
  | .release a => leBytes 64 (Config.ctrlPayload (.release a)).toNat
  | .errors a => leBytes 64 (Config.ctrlPayload (.errors a)).toNat

/-- The header that a packet without one of its own carries. -/
def noHdr : ReachHdr := { rtag := 0, addr := 0, len := 0, stream := 0, sv := false, orig := false }

/-- The payload bytes of a packet in order, without a route flit (R337). -/
def Pkt.bytes (p : Pkt) : List Byte :=
  match p.body with
  | .data d => List.replicate d.off.toNat 0 ++ d.data
  | .token _ _ tok _ => leBytes 8 tok.toNat
  | .ctrl m => m.bytes (pointSite p.src).val
  | .pattern rec => bytesOfWords ((rec.drop (128 * p.part)).take 128)
  | .greq h => reachHdrBytes h
  | .preq h data _ => reachBytes h data
  | .gdata _ _ data _ => reachBytes (p.hdr.getD noHdr) data
  | .pdone _ _ => reachHdrBytes (p.hdr.getD noHdr)
  | .rrd h => reachHdrBytes h
  | .rwr h data _ => reachBytes h data
  | .rrsp _ _ data _ => reachBytes (p.hdr.getD noHdr) data
  | .k2 _ body => body
  | .ack _ _ => [] | .credit _ _ _ _ => [] | .drop _ _ => []

/-! ## Route flits (R354) -/

/-- Rectangles of a route flit. -/
def routeRects (p : BitVec 512) : List (Nat × Nat × Nat × Nat) :=
  (List.range (fld p 128 3)).map fun r =>
    (fld p (32 * r) 6, fld p (32 * r + 6) 6, fld p (32 * r + 12) 6, fld p (32 * r + 18) 6)

/-- A route flit that serves rows `lo` to `hi`. -/
def setRows (p : BitVec 512) (lo hi : Nat) : BitVec 512 :=
  let m := BitVec.ofNat 512 (63 <<< 136 ||| 63 <<< 144)
  (p &&& ~~~m) ||| BitVec.ofNat 512 (lo <<< 136 ||| hi <<< 144)

/-- The route flit of a multicast as its source forms it: reserved bits zero, rows 0 to 49. -/
def routeFlit (l : List (Nat × Nat × Nat × Nat)) : BitVec 512 :=
  let rect := fun (r : Nat × Nat × Nat × Nat) => r.1 ||| r.2.1 <<< 6 ||| r.2.2.1 <<< 12 ||| r.2.2.2 <<< 18
  let rects := (List.range l.length).foldl (fun v i => v ||| rect (l.getD i (0, 0, 0, 0)) <<< (32 * i)) 0
  setRows (BitVec.ofNat 512 (rects ||| l.length <<< 128)) 0 49

/-! ## The flits of a packet -/

/-- A packet's flits in order; a multicast's first one is its route flit (R337, R354). -/
def Pkt.toFlits (p : Pkt) : List Flit :=
  let data := (List.range p.flits).map fun k => BitVec.ofNat 512 (leNat (sliceBytes p.bytes (64 * k) 64))
  let payloads := match p.dst with
    | .rects l => routeFlit l :: data
    | .site _ => data | .att _ => data | .port _ => data
  (List.range payloads.length).map fun k =>
    let ft := if payloads.length = 1 then 3 else if k = 0 then 0 else if k + 1 = payloads.length then 2 else 1
    let ctl := p.ctl ft k
    let d := payloads.getD k 0
    { ctl := ctl, payload := d, crc := flitCrc ctl d }

/-- The flits as they stand at the local port. -/
def Pkt.staged (p : Pkt) : List BufFlit := p.toFlits.map fun f => { side := 4, vch := p.vch, flit := f, pkt := some p }

end Sys2Proof.Machine
end

