-- ==== Sys2Proof/Machine/Operands.lean ====
section
/-! DEFINITION. Number formats (R37 to R50), the stochastic generator (R51), MX blocks and planes (R39 to R43, R57), and the
element operands that the units read and write. -/

namespace Sys2Proof.Machine

/-! ## Exact values (R38, R44 to R47) -/

/-- The value of an element: `m * 2^e` exactly, a zero of negative sign, an infinity, or NaN. -/
inductive Val where
  | fin (m : Int) (e : Int)
  | nzero
  | inf (neg : Bool)
  | nan
deriving DecidableEq, Repr

def Val.zero : Val := .fin 0 0

def Val.isZero : Val → Bool
  | .fin m _ => m == 0
  | .nzero => true
  | _ => false

def Val.isNaN : Val → Bool
  | .nan => true
  | _ => false

/-- `2^e` for a nonnegative exponent, as an integer. -/
def pow2 (e : Int) : Int := (2 ^ e.toNat : Nat)

/-- Two dyadic numbers over one exponent: the two numerators and the exponent. -/
def align (m₁ e₁ m₂ e₂ : Int) : Int × Int × Int :=
  let e := min e₁ e₂
  (m₁ * pow2 (e₁ - e), m₂ * pow2 (e₂ - e), e)

/-- The exact sum; opposite infinities give NaN (R44). -/
def Val.add : Val → Val → Val
  | .nan, _ => .nan
  | _, .nan => .nan
  | .inf a, .inf b => if a = b then .inf a else .nan
  | .inf a, _ => .inf a
  | _, .inf b => .inf b
  | .nzero, b => b
  | a, .nzero => a
  | .fin m₁ e₁, .fin m₂ e₂ => let (a, b, e) := align m₁ e₁ m₂ e₂; .fin (a + b) e

/-- The sign is negative. -/
def Val.isNeg : Val → Bool
  | .fin m _ => m < 0
  | .nzero => true
  | .inf a => a
  | .nan => false

/-- The negated value; the zeros exchange. -/
def Val.neg : Val → Val
  | .nan => .nan
  | .inf a => .inf !a
  | .nzero => .zero
  | .fin m e => if m = 0 then .nzero else .fin (-m) e

/-- The exact product; an infinity times zero gives NaN (R44), and a product of zero is +0. -/
def Val.mul : Val → Val → Val
  | .nan, _ => .nan
  | _, .nan => .nan
  | .inf a, b => if b.isZero then .nan else .inf (a != b.isNeg)
  | a, .inf b => if a.isZero then .nan else .inf (b != a.isNeg)
  | .nzero, _ => .zero
  | _, .nzero => .zero
  | .fin m₁ e₁, .fin m₂ e₂ => .fin (m₁ * m₂) (e₁ + e₂)

/-- A value times a power of two. -/
def Val.scale (v : Val) (k : Int) : Val :=
  match v with
  | .fin m e => .fin m (e + k)
  | v => v

/-- The zeros as one number. -/
def Val.plain : Val → Val
  | .nzero => .zero
  | v => v

/-- Order of two values that are not NaN. -/
def Val.lt (a b : Val) : Bool :=
  match a.plain, b.plain with
  | .inf a, .inf b => a && !b
  | .inf a, .fin _ _ => a
  | .fin _ _, .inf b => !b
  | .fin m₁ e₁, .fin m₂ e₂ => let (a, b, _) := align m₁ e₁ m₂ e₂; a < b
  | _, _ => false

/-- Equality of two values as numbers. -/
def Val.eqv (a b : Val) : Bool :=
  match a.plain, b.plain with
  | .inf a, .inf b => a == b
  | .fin m₁ e₁, .fin m₂ e₂ => let (a, b, _) := align m₁ e₁ m₂ e₂; a == b
  | _, _ => false

def Val.abs : Val → Val
  | .fin m e => .fin m.natAbs e
  | .nzero => .zero
  | .inf _ => .inf false
  | .nan => .nan

/-- The floor of log2 of the magnitude of a nonzero number. -/
def floorLog (m e : Int) : Int := (Nat.log2 m.natAbs : Int) + e

/-! ## Formats (R37, R38) -/

/-- The layout of a format: bits of an element, of its fraction, exponent bias, largest finite magnitude code, EMAX, and
whether it is an integer format, an MX format, and holds infinities and NaN. -/
structure Fmt where
  bits : Nat
  mant : Nat
  bias : Int
  maxCode : Nat
  emax : Int
  int : Bool
  mx : Bool
  hasInf : Bool
  nanCode : Option Nat
deriving DecidableEq, Repr

/-- The format of a code; reserved codes name none (R37). -/
def fmtOf (c : Nat) : Option Fmt :=
  match c with
  | 1 => some ⟨32, 23, 127, 0x7F7FFFFF, 127, false, false, true, some 0x7FC00000⟩
  | 2 => some ⟨16, 7, 127, 0x7F7F, 127, false, false, true, some 0x7FC0⟩
  | 3 => some ⟨8, 0, 0, 127, 0, true, false, false, none⟩
  | 4 => some ⟨8, 0, 6, 127, 0, true, true, false, none⟩
  | 5 => some ⟨8, 3, 7, 0x7E, 8, false, true, false, some 0x7F⟩
  | 6 => some ⟨8, 2, 15, 0x7B, 15, false, true, true, some 0x7F⟩
  | 7 => some ⟨6, 2, 3, 0x1F, 4, false, true, false, none⟩
  | 8 => some ⟨6, 3, 1, 0x1F, 2, false, true, false, none⟩
  | 9 => some ⟨4, 1, 1, 0x7, 2, false, true, false, none⟩
  | _ => none

/-- The format of a code that has been checked; a reserved one reads as FP32. -/
def fmtD (c : Nat) : Fmt := (fmtOf c).getD ⟨32, 23, 127, 0x7F7FFFFF, 127, false, false, true, some 0x7FC00000⟩

def fmtValid (c : Nat) : Bool := (fmtOf c).isSome

/-- A code is one of the MX formats (R37). -/
def fmtMx (c : Nat) : Bool := 4 ≤ c && c ≤ 9

/-- A code is a 6-bit format. -/
def fmtSix (c : Nat) : Bool := c == 7 || c == 8

/-- Bits of an element. -/
def fmtBits (c : Nat) : Nat := (fmtD c).bits

/-- The value of an element code, before any scale (R38, R40). -/
def decodeElem (c code : Nat) : Val :=
  let f := fmtD c
  if f.int then .fin (sext code 8) (-f.bias)
  else
    let mag := code % 2 ^ (f.bits - 1)
    let neg : Bool := (code / 2 ^ (f.bits - 1)) % 2 = 1
    let ex := mag / 2 ^ f.mant
    let fr := mag % 2 ^ f.mant
    if f.maxCode < mag then
      (if f.hasInf && mag = f.maxCode + 1 then .inf neg else .nan)
    else
      let m : Int := if ex = 0 then fr else fr + 2 ^ f.mant
      let e : Int := (if ex = 0 then 1 else (ex : Int)) - f.bias - f.mant
      .fin (if neg then -m else m) e

/-- The value of an element code with the sign of a zero (assumption 15). -/
def decodeSigned (c code : Nat) : Val :=
  let f := fmtD c
  if !f.int && code = 2 ^ (f.bits - 1) then .nzero else decodeElem c code

/-- The value of an element of a block with scale byte `s` (R39). -/
def scaled (s : Nat) (v : Val) : Val := if s = 0xFF then .nan else v.scale ((s : Int) - 127)

/-! ## Rounding (R48 to R50) -/

/-- A magnitude `a * 2^e` cut to quantum `2^q`: the floor, and the 16-bit and exact remainders needed for rounding. -/
def cutAt (a : Nat) (e q : Int) : Nat × Nat × Nat :=
  if q ≤ e then (a * 2 ^ (e - q).toNat, 0, 1)
  else
    let k := (q - e).toNat
    (a / 2 ^ k, a % 2 ^ k, 2 ^ k)

/-- Rounding of a magnitude to the grid `2^q`: to nearest even (R49), or by a draw (R50). -/
def roundMag (a : Nat) (e q : Int) (draw : Option Nat) : Nat :=
  let (n, r, d) := cutAt a e q
  match draw with
  | none => if d < 2 * r || (2 * r = d && n % 2 = 1) then n + 1 else n
  | some u => if 65536 ≤ r * 65536 / d + u then n + 1 else n

/-- The outcome of writing a value in a format: the element code, whether it saturated, and whether the format has no
encoding for it (R44, R45). -/
structure Enc where
  code : Nat
  sat : Bool
  lost : Bool
deriving DecidableEq, Repr

/-- A value written in a format (R44, R45, R47 to R50); MX values come divided by their block's scale. -/
def encodeElem (c : Nat) (draw : Option Nat) (v : Val) : Enc :=
  let f := fmtD c
  match v with
  | .nan => match f.nanCode with
    | some n => ⟨n, false, false⟩
    | none => ⟨0, false, true⟩
  | .inf neg =>
    if f.hasInf then ⟨f.maxCode + 1 + (if neg then 2 ^ (f.bits - 1) else 0), false, false⟩
    else match f.nanCode with
      | some n => ⟨n, false, false⟩
      | none => ⟨0, false, true⟩
  | .nzero => ⟨if f.int then 0 else 2 ^ (f.bits - 1), false, false⟩
  | .fin m e =>
    if m = 0 then ⟨0, false, false⟩
    else if f.int then
      let n := roundMag m.natAbs e (-f.bias) draw
      let lim := if m < 0 && !f.mx then 128 else 127
      let k := min n lim
      ⟨(if m < 0 then (256 - k) % 256 else k), lim < n, false⟩
    else
      let sign := if m < 0 then 2 ^ (f.bits - 1) else 0
      let qmin : Int := 1 - f.bias - f.mant
      let q := max (floorLog m e - f.mant) qmin
      if !f.mx && 128 ≤ floorLog m e then ⟨f.maxCode + 1 + sign, false, false⟩
      else
        let n := roundMag m.natAbs e q draw
        let code := (q - qmin).toNat * 2 ^ f.mant + n
        if f.maxCode < code then
          (if f.mx then ⟨f.maxCode + sign, true, false⟩ else ⟨f.maxCode + 1 + sign, false, false⟩)
        else ⟨code + sign, false, false⟩

/-- A value rounded to nearest even in FP32 or BF16 and read back. -/
def roundTo (c : Nat) (v : Val) : Val := decodeSigned c (encodeElem c none v).code

/-- The value of an FP32 word. -/
def fp32 (w : Nat) : Val := decodeSigned 1 w

/-- A value as an FP32 word, rounded to nearest even. -/
def toFp32 (v : Val) : Word := BitVec.ofNat 32 (encodeElem 1 none v).code

/-! ## The stochastic generator (R51) -/

/-- One step of the generator. -/
def srStep (s : Word) : Word :=
  let s := s ^^^ (s <<< 13)
  let s := s ^^^ (s >>> 17)
  s ^^^ (s <<< 5)

/-- The first `n` draws from a starting state. -/
def srDraws : Nat → Word → List Nat
  | 0, _ => []
  | n + 1, s => let s := srStep s; fld s 16 16 :: srDraws n s

/-- The starting state of a stochastic drain or export (R52). -/
def srStart (seed adv n : Word) (ltid : Nat) : Word :=
  let s := (seed + n * adv) ^^^ (BitVec.ofNat 32 (ltid * 0x10001))
  if s = 0 then 0x80000000 else s

/-! ## MX blocks (R57) -/

/-- A block of 32 values as written: scale byte, element codes, and the events of R60: saturation, scale 0xFF, clamp. -/
structure Block where
  scale : Nat
  codes : List Nat
  sat : Bool
  nanBlk : Bool
  clamp : Bool
deriving DecidableEq, Repr

/-- The largest magnitude of the finite values, as a pair for `floorLog`; none where every finite value is zero. -/
def amax (vs : List Val) : Option Int :=
  vs.foldl (fun a v =>
    match v with
    | .fin m e => if m = 0 then a else
        match a with
        | none => some (floorLog m e)
        | some x => some (max x (floorLog m e))
    | _ => a) none

/-- The element bits of a value that the format cannot hold, from an open byte: never the MXINT8 element 0x80 (R40). -/
def openElem (c b : Nat) : Nat := if c = 4 && b = 0x80 then 0 else b % 2 ^ fmtBits c

/-- A block packed: the scale chosen under R57, each finite value divided by it and rounded. The element bits of a value that
the format cannot hold, in a block that then reads as NaN throughout, are open (assumption 14). -/
def packBlock (c : Nat) (draws : List Nat) (vs : List Val) : Block :=
  let f := fmtD c
  let (x, clamp) : Int × Bool := match amax vs with
    | none => (-127, false)
    | some l =>
      let x := l - f.emax
      (max (-127) (min 127 x), x < -127 || 127 < x)
  let encs := (List.range vs.length).map fun i =>
    encodeElem c draws[i]? ((vs.getD i .nan).scale (-x))
  let lost := encs.any (·.lost)
  { scale := if lost then 0xFF else (x + 127).toNat
    codes := (List.range encs.length).map fun i =>
      let e := encs.getD i ⟨0, false, false⟩
      if e.lost then openElem c (Config.openByte i).toNat else e.code
    sat := encs.any (·.sat), nanBlk := lost, clamp := clamp }

/-! ## Planes and packing (R41 to R43) -/

/-- Bytes of `n` elements of a format, for `n` a multiple of four. -/
def planeBytes (c n : Nat) : Nat := n * fmtBits c / 8

/-- Bytes of a block of 32 elements (R41). -/
def blockBytes (c : Nat) : Nat := planeBytes c 32

/-- Element `i` of a densely stored plane, read byte by byte (R42, R43). -/
def elemAt (c : Nat) (rd : Nat → Nat) (i : Nat) : Nat :=
  match fmtBits c with
  | 32 => rd (4 * i) + 256 * (rd (4 * i + 1) + 256 * (rd (4 * i + 2) + 256 * rd (4 * i + 3)))
  | 16 => rd (2 * i) + 256 * rd (2 * i + 1)
  | 8 => rd i
  | 6 =>
    let w := rd (3 * (i / 4)) + 256 * (rd (3 * (i / 4) + 1) + 256 * rd (3 * (i / 4) + 2))
    w / 2 ^ (6 * (i % 4)) % 64
  | _ => rd (i / 2) / (if i % 2 = 0 then 1 else 16) % 16

/-- The first byte that element `i` of a plane touches. -/
def elemByte (c i : Nat) : Nat := i * fmtBits c / 8

/-- Element codes packed densely; the last partly filled byte or 24-bit word is filled with zero elements (R42). -/
def packElems (c : Nat) : List Nat → List Byte
  | [] => []
  | a :: as =>
    match fmtBits c with
    | 32 => leBytes 4 a ++ packElems c as
    | 16 => leBytes 2 a ++ packElems c as
    | 8 => BitVec.ofNat 8 a :: packElems c as
    | 6 =>
      match as with
      | b :: d :: e :: rest => leBytes 3 (a + 64 * (b + 64 * (d + 64 * e))) ++ packElems c rest
      | [b, d] => leBytes 3 (a + 64 * (b + 64 * d))
      | [b] => leBytes 3 (a + 64 * b)
      | [] => leBytes 3 a
    | _ =>
      match as with
      | b :: rest => BitVec.ofNat 8 (a + 16 * b) :: packElems c rest
      | [] => [BitVec.ofNat 8 a]

/-- Rows from `a` on that hold bytes `lo` to `hi - 1` of a plane; every row of a touched three-row group for a 6-bit format
(R43). -/
def planeRows (c a lo hi : Nat) : List Nat :=
  if hi ≤ lo then [] else
  let r0 := lo / 512
  let r1 := (hi - 1) / 512
  if fmtSix c then upto (a + r0 / 3 * 3) ((r1 / 3 - r0 / 3 + 1) * 3)
  else upto (a + r0) (r1 - r0 + 1)

/-- The row after the last one that bytes `0` to `hi - 1` of a plane take, whole groups for a 6-bit format. -/
def planeEnd (c a hi : Nat) : Nat :=
  if hi = 0 then a else
  if fmtSix c then a + ((hi - 1) / 512 / 3 + 1) * 3 else a + ((hi - 1) / 512 + 1)

/-- Rows that have been read: their numbers, their bytes, and which came poisoned. -/
structure Rows where
  rows : List Nat
  bytes : Array Nat
  bad : List Nat

/-- Byte `i` of row `r` among rows that have been read. -/
def Rows.byte (x : Rows) (r i : Nat) : Nat := x.bytes.getD (512 * x.rows.idxOf r + i) 0

/-- Byte `i` of a plane that starts at row `a`. -/
def Rows.plane (x : Rows) (a i : Nat) : Nat := x.byte (a + i / 512) (i % 512)

/-- Row `r` came poisoned. -/
def Rows.poison (x : Rows) (r : Nat) : Bool := x.bad.contains r

/-- A command's rows read once each, in the order given. -/
def Tile.fetch (t : Tile) (me : Site) (rows : List Nat) : Tile × Rows × Bool :=
  let rows := rows.eraseDups
  let rr := t.readRows me rows
  (rr.tile, { rows := rows, bytes := (rr.bytes.map (·.toNat)).toArray, bad := rr.poisoned }, rr.gated)

/-- The physical events of a command of the engine `own` (R257's code) take effect before its reads (assumption 7). -/
def Tile.physOf (t : Tile) (own : Nat) (ph : Phys) : Tile :=
  let t := t.upset ph.sp
  let t := { t with la := { t.la with bad := ph.la.foldl (fun m (u : Upset) => Map.set noBad m u.word (some u.kind)) t.la.bad } }
  ph.conf.foldl (fun t c => t.conflict own c) t

/-- The physical events of a command of an engine without a privileged path. -/
def Tile.phys (t : Tile) (ph : Phys) : Tile := t.physOf 0 ph

/-! ## Writes of planes -/

/-- Adjacent pieces of a plane joined; pieces come in increasing order. -/
def joinPieces : List (Nat × List Byte) → List (Nat × List Byte)
  | [] => []
  | (a, x) :: rest =>
    match joinPieces rest with
    | (b, y) :: r => if b = a + x.length then (a, x ++ y) :: r else (a, x) :: (b, y) :: r
    | [] => [(a, x)]

/-- A piece cut at row ends: row, first byte, data. -/
def cutRows (p : Nat × List Byte) : List (Nat × Nat × List Byte) :=
  (upto (p.1 / 512) ((p.1 + p.2.length + 511) / 512 - p.1 / 512)).map fun r =>
    let lo := max p.1 (512 * r)
    let hi := min (p.1 + p.2.length) (512 * r + 512)
    (r, lo - 512 * r, (p.2.drop (lo - p.1)).take (hi - lo))

/-- The row writes of pieces of scratchpad bytes, each row gathered (R131, R160, R237). -/
def rowWrites (pieces : List (Nat × List Byte)) : List (Nat × Nat × List Byte) :=
  (joinPieces (pieces.filter fun p => !p.2.isEmpty)).flatMap cutRows

/-- Pieces of scratchpad bytes written by an engine, rows in `bad` with poison; the rows touched come back beside the tile. -/
def Tile.writePieces (t : Tile) (me : Site) (eng : Nat) (pieces : List (Nat × List Byte)) (bad : Nat → Bool) :
    Tile × List (Nat × Nat) :=
  let ws := rowWrites pieces
  (ws.foldl (fun t w => t.writeRow me w.1 w.2.1 w.2.2 (bad w.1) eng) t, ws.map fun w => (w.1, 1))

/-! ## Commands that start or are rejected (R203, R211) -/

/-- The error register of a unit; bit 0 is MALFORMED in each. -/
def errReg : UnitC → Nat
  | .mu => Reg.MU_ERR | .la => Reg.LA_ERR | .vc => Reg.VC_ERR | .sp => Reg.SP_ERR | .sh => Reg.SH_ERR

/-- A malformed command at the head of a queue is rejected: its flag is set and it waits to complete MALFORMED (R203). -/
def Tile.reject (t : Tile) (u : UnitC) (c : Cmd) : Tile :=
  (t.flagBit (errReg u) 0).begin u { cmd := c, malformed := true }

/-- OP of a command (R74, R117, R142, R213, R215). -/
def Cmd.op (c : Cmd) : Nat := fld (c.w 0) 24 4

/-- Every unit's command begins with VER 0x3. -/
def Cmd.verOk (c : Cmd) : Bool := fld (c.w 0) 28 4 == 3

/-- The head of a unit's queue starts, if it has operation `op`: rejected when malformed (R203), held while its fence (R210) or
the unit's own start condition is not met, and else run. -/
def Tile.startOp (t : Tile) (u : UnitC) (op : Nat) (malformed ready : Cmd → Bool) (run : Cmd → Tile) : Tile :=
  match (t.unit u).queue with
  | [] => t
  | c :: _ =>
    if c.op ≠ op then t
    else if c.badFence || malformed c then t.reject u c
    else if t.fenceMet c && ready c then run c else t

/-- Bits `[lo + len - 1 : lo]` of a word are zero. -/
def zeroBits (w : Word) (lo len : Nat) : Bool := fld w lo len == 0

end Sys2Proof.Machine
end

