-- ==== Sys2Proof/Machine/LongAcc.lean ====
section
/-! DEFINITION. The long accumulator: exact elements, edge words, zeroing, preload, drain and export (R109 to R136). -/

namespace Sys2Proof.Machine

/-! ## Elements (R109 to R115) -/

def noElem : Nat → LaElem := fun _ => LaElem.zero

def noWeight : Nat → Nat := fun _ => 0

/-- Element ELEM of a buffer. -/
def laKey (buf : Bool) (e : Nat) : Nat := (if buf then 1024 else 0) + e

/-- A row of 32 elements of a buffer. -/
def laRowKey (buf : Bool) (r : Nat) : Nat := (if buf then 32 else 0) + r

def Tile.laElem (t : Tile) (k : Nat) : LaElem := Map.get noElem t.la.elems k

def Tile.setLaElem (t : Tile) (k : Nat) (x : LaElem) : Tile :=
  { t with la := { t.la with elems := Map.set noElem t.la.elems k x } }

/-- The pending carry of limb `l`. -/
def LaElem.carry (x : LaElem) (l : Nat) : Nat := if l < 9 then fld x.carries (4 * l) 4 else 0

/-- The integer A that the limbs and pending carries hold (R109, "The edge adders"). -/
def LaElem.value (x : LaElem) : Int :=
  let c := (List.range 9).foldl (fun a l => a + x.carry l * 2 ^ (64 * (l + 1))) 0
  sext (x.limbs.toNat + c) 640

/-- One update of the ten limbs: each limb takes its part of the addend and the carry pending below it, and leaves the carry
out of it pending (R114, "The edge adders"). -/
def LaElem.addNum (x : LaElem) (v : Int) : LaElem :=
  let a := BitVec.ofInt 640 v
  let s := fun l => fld x.limbs (64 * l) 64 + fld a (64 * l) 64 + (if l = 0 then 0 else x.carry (l - 1))
  { x with
    limbs := BitVec.ofNat 640 ((List.range 10).foldl (fun n l => n + (s l % 2 ^ 64) * 2 ^ (64 * l)) 0)
    carries := BitVec.ofNat 36 ((List.range 9).foldl (fun n l => n + (s l / 2 ^ 64) * 2 ^ (4 * l)) 0) }

/-- An element's TAG combined with that of an incoming value (R112). -/
def combineTag (a b : BitVec 2) : BitVec 2 :=
  if a = 3 || b = 3 || (a = 1 && b = 2) || (a = 2 && b = 1) then 3 else if a ≠ 0 then a else b

/-- The TAG of a value (R82). -/
def Val.tag : Val → BitVec 2
  | .fin _ _ => 0
  | .nzero => 0
  | .inf false => 1
  | .inf true => 2
  | .nan => 3

/-- A value added exactly into an element (R110, R124). -/
def LaElem.addVal (x : LaElem) (v : Val) : LaElem :=
  let y := match v with
    | .fin m e => x.addNum (m * pow2 (e + 300))
    | _ => x
  { y with tag := combineTag x.tag v.tag }

/-- The exact value of an element (R126, steps 2 and 3). -/
def LaElem.val (x : LaElem) : Val :=
  if x.tag = 0 then .fin x.value (-300) else if x.tag = 1 then .inf false else if x.tag = 2 then .inf true else .nan

/-- An error that a read finds in a word of element `k` (R133). -/
def Tile.laFound (t : Tile) (me : Site) (k : Nat) : EccKind → Tile
  | .ce => (t.flagBit Reg.LA_ERR 2).count Reg.LA_ECC_COUNT 1
  | .ue =>
    let t := (t.setLaElem k { t.laElem k with poison := true }).flagBit Reg.LA_ERR 3
    t.raise me 0x02 1 (t.reg Reg.LA_ERR)

/-- The check of each word of an element that is read (R133): with the errors they carry, and one that the read meets. -/
def Tile.laCheck (t : Tile) (me : Site) (k : Nat) (ecc : Option EccKind) : Tile :=
  let hits := t.la.bad.filterMap fun e => if e.1 / 10 = k then e.2 else none
  (hits ++ ecc.toList).foldl (fun t e => t.laFound me k e)
    (if hits.isEmpty then t else { t with la := { t.la with bad := Map.clear t.la.bad (10 * k) (10 * k + 10) } })

/-- The check of every element, as a scan out reads them (R133). -/
def Tile.laCheckAll (t : Tile) (me : Site) : Tile :=
  ((t.la.bad.map fun e => e.1 / 10).dedup).foldl (fun t k => t.laCheck me k none) t

/-- The product weight count of a row increased; past 2^52 every TAG of the row becomes NaN and RANGE is set (R111). -/
def Tile.addWeight (t : Tile) (buf : Bool) (r n : Nat) : Tile :=
  let w := Map.get noWeight t.la.weight (laRowKey buf r) + n
  let t := { t with la := { t.la with weight := Map.set noWeight t.la.weight (laRowKey buf r) w } }
  if 2 ^ 52 < w then
    ((List.range 32).foldl (fun t c =>
      let k := laKey buf (32 * r + c)
      t.setLaElem k { t.laElem k with tag := 3 }) t).flagBit Reg.LA_ERR (if buf then 5 else 4)
  else t

/-- A row rewritten to zero: elements, weight count and stored errors (R123, R129). -/
def Tile.laClearRow (t : Tile) (buf : Bool) (r : Nat) : Tile :=
  let a := laKey buf (32 * r)
  { t with la := { t.la with elems := Map.clear t.la.elems a (a + 32), bad := Map.clear t.la.bad (10 * a) (10 * (a + 32))
                             weight := Map.set noWeight t.la.weight (laRowKey buf r) 0 } }

/-- An edge word added into its element (R110 to R114). -/
def Tile.addEdge (t : Tile) (me : Site) (w : EdgeWord) (ecc : Option EccKind) : Tile :=
  let k := laKey w.buf w.elem
  let t := t.laCheck me k ecc
  let x := t.laElem k
  let y := x.addNum (w.sum * pow2 (w.lsb + 300))
  let t := t.setLaElem k { y with tag := combineTag x.tag w.tag, poison := x.poison || w.poison }
  t.addWeight w.buf (w.elem / 32) (if w.wt then 32 else 1)

/-! ## Commands (R116 to R122) -/

def laBuf (c : Cmd) : Bool := bitOf (c.w 0) 23
def laRow0 (c : Cmd) : Nat := fld (c.w 0) 18 5
def laNrow (c : Cmd) : Nat := fld (c.w 0) 12 6
def laFmt (c : Cmd) : Nat := fld (c.w 0) 8 4
def laRnd (c : Cmd) : Nat := fld (c.w 0) 6 2
def laLoc (c : Cmd) : Bool := bitOf (c.w 0) 5
def laMode (c : Cmd) : Bool := bitOf (c.w 0) 4
def laKeep (c : Cmd) : Bool := bitOf (c.w 0) 3
def laLayout (c : Cmd) : Bool := bitOf (c.w 0) 2
def laFop (c : Cmd) : Nat := fld (c.w 0) 0 2
def laAddr (c : Cmd) : Nat := fld (c.w 1) 20 12
def laScl (c : Cmd) : Nat := fld (c.w 1) 8 12
def laBoff (c : Cmd) : Nat := fld (c.w 1) 0 8
def laFaddr (c : Cmd) : Nat := fld (c.w 2) 20 12
def laFfmt (c : Cmd) : Nat := fld (c.w 2) 16 4
def laFloc (c : Cmd) : Bool := bitOf (c.w 2) 15
def laFboff (c : Cmd) : Nat := fld (c.w 2) 0 8

/-- The selected rows of a command, as offsets k from ROW0. -/
def laRows (c : Cmd) : List Nat := (List.range (laNrow c)).filter fun k => bitOf (c.w 3) k

/-- Word 1 names a plane or register as R117 to R119 allow. -/
def laPlaneOk (c : Cmd) : Bool :=
  if laLoc c then fld (c.w 1) 24 8 == 0 && laScl c == 0
  else planeEnd (laFmt c) (laAddr c) (blockBytes (laFmt c) * (laBoff c + laNrow c)) ≤ 4096 &&
    (fmtMx (laFmt c) || laScl c == 0)

/-- Word 2 names a fused operand as R117 to R119 allow, or is zero. -/
def laFusedOk (c : Cmd) : Bool :=
  if laFop c = 0 then c.w 2 == 0
  else laFop c != 3 && (laFfmt c == 1 || laFfmt c == 2) &&
    (if laFloc c then fld (c.w 2) 24 8 == 0
     else planeEnd (laFfmt c) (laFaddr c) (blockBytes (laFfmt c) * (laFboff c + laNrow c)) ≤ 4096)

/-- An LA command is malformed (R118); its reserved bits are ignored (R13). -/
def laMalformed (c : Cmd) : Bool :=
  let base := c.verOk && 1 ≤ laNrow c && laRow0 c + laNrow c ≤ 32
  let regFmt := laFmt c == 1 || laFmt c == 2
  let ok := match c.op with
    | 1 => laFmt c == 0 && laRnd c == 0 && zeroBits (c.w 0) 0 6 && c.w 1 == 0 && c.w 2 == 0
    | 2 => fmtValid (laFmt c) && (!laLoc c || regFmt) && laRnd c == 0 && !laKeep c && (laLoc c || !laLayout c) &&
        laFop c == 0 && c.w 2 == 0 && laPlaneOk c
    | 3 => fmtValid (laFmt c) && laFmt c != 3 && (!laLoc c || regFmt) && laRnd c < 2 && !laMode c &&
        (laLoc c || !laLayout c) && laPlaneOk c && laFusedOk c
    | 4 => regFmt && laRnd c < 2 && !laLoc c && !laMode c && !laLayout c && c.w 1 == 0 && laFusedOk c
    | _ => false
  !(base && ok)

/-- A command that will be rejected when it reaches the head of the queue (R118, R210). -/
def laRejects (c : Cmd) : Bool := c.badFence || laMalformed c

/-- ZERO, PRELOAD with MODE = SET, DRAIN and EXPORT hold their buffer (R120). -/
def laHolds (c : Cmd) : Bool := c.op == 1 || (c.op == 2 && !laMode c) || c.op == 3 || c.op == 4

/-- BUF of an MU command (R74). -/
def muBuf (c : Cmd) : Bool := bitOf (c.w 3) 19

/-- Edge words of MU commands accepted before this command are still to come into its buffer (R120). -/
def Tile.edgesDue (t : Tile) (c : Cmd) : Bool :=
  (t.mu.edges.any fun e => e.buf == laBuf c && e.cmd < c.stamp) ||
    (t.units.mu.queue.any fun m => muBuf m == laBuf c && m.stamp < c.stamp)

/-- A buffer is in the fill state for an MU command: no holding LA command accepted before it still waits or has buffer rows to
pass (R121). -/
def Tile.fillState (t : Tile) (c : Cmd) : Bool :=
  !(t.units.la.queue.any fun a => laHolds a && !laRejects a && laBuf a == muBuf c && a.stamp < c.stamp) &&
    !(t.units.la.running.any fun r => r.rowsDue != 0 && laHolds r.cmd && laBuf r.cmd == muBuf c && r.cmd.stamp < c.stamp)

/-- The MU command reads tile registers (WSRC or ASRC). -/
def muOnTrf (c : Cmd) : Bool := bitOf (c.w 0) 3 || bitOf (c.w 0) 2

/-- An LA command reads, or writes, tile registers (R139). -/
def laReads (c : Cmd) : Bool := (c.op == 2 && laLoc c) || (laFop c != 0 && laFloc c)
def laStores (c : Cmd) : Bool := c.op == 3 && laLoc c

/-- The MU asks for the read port of the register file (R139). -/
def Tile.muAsks (t : Tile) : Bool := (t.head .mu).any fun c => muOnTrf c && t.fillState c

/-- An MU command may start in tile cycle `now`: its buffer is in the fill state (R121), and a register row is left for it if it reads one
(R139). -/
def Tile.muReady (t : Tile) (now : Nat) (c : Cmd) : Bool := t.fillState c && (!muOnTrf c || 1 ≤ t.readLeft now)

/-- An LA command may start but for the register ports: the previous one has read or written its last buffer row (R116), and a holding one
has the edge words of earlier MU commands (R120). -/
def Tile.laFree (t : Tile) (c : Cmd) : Bool :=
  (t.units.la.running.all fun r => r.rowsDue == 0) && (!laHolds c || !t.edgesDue c)

/-- The register ports have a row left for an LA command: of the read port, the MU takes one first (R139). -/
def Tile.laPorts (t : Tile) (now : Nat) (c : Cmd) : Bool :=
  (!laReads c || (if t.muAsks then 2 else 1) ≤ t.readLeft now) && (!laStores c || 1 ≤ t.writeLeft now)

/-- An LA command may start in tile cycle `now` (R116, R120, R139). -/
def Tile.laReady (t : Tile) (now : Nat) (c : Cmd) : Bool := t.laFree c && t.laPorts now c

/-- The LA asks for the read port, or the write port, of the register file (R139). -/
def Tile.laAsks (t : Tile) (port : Cmd → Bool) : Bool := (t.head .la).any fun c => port c && t.laFree c

/-- The cycles in which the MU and the LA have been refused at a register port, after cycle `now` (R139). -/
def Tile.refusals (t : Tile) (now : Nat) : Nat × Nat :=
  let la := (t.head .la).any fun c => t.laFree c && !t.laPorts now c
  (if t.muAsks && t.readLeft now = 0 then min 16 (t.trfRefused.1 + 1) else 0, if la then min 16 (t.trfRefused.2 + 1) else 0)

/-- The register row of a buffer row (R119). -/
def laRegRow (c : Cmd) (r : Nat) : Nat := if laLayout c then 8 * (r % 4) + r / 4 else r

/-- ZERO (R123): two tile cycles, whatever NROW is. -/
def Tile.laZero (t : Tile) (c : Cmd) : Tile :=
  ((laRows c).foldl (fun t k => t.laClearRow (laBuf c) (laRow0 c + k)) t).begin .la { cmd := c, rowsDue := 2 }

/-! ## Operands of LA commands -/

/-- The scratchpad rows of a plane that the blocks of the selected rows lie in: scale rows first (R125). -/
def laSrcRows (fmt addr boff : Nat) (scl : Option Nat) (ks : List Nat) : List Nat :=
  (match scl with
   | some s => ks.map fun k => s + (boff + k) / 512
   | none => []) ++
  ks.flatMap fun k => planeRows fmt addr (blockBytes fmt * (boff + k)) (blockBytes fmt * (boff + k + 1))

/-- Element `i` of a plane: its value with its scale, and whether a row it came from is poisoned. -/
def planeVal (x : Rows) (fmt addr scl : Nat) (i : Nat) : Val × Bool :=
  let code := elemAt fmt (x.plane addr) i
  let bad := x.poison (addr + elemByte fmt i / 512) || x.poison (addr + (i * fmtBits fmt + fmtBits fmt - 1) / 8 / 512)
  if fmtMx fmt then
    (scaled (x.plane scl (i / 32)) (decodeElem fmt code), bad || x.poison (scl + i / 32 / 512))
  else (decodeElem fmt code, bad)

/-- An entry of a tile register read in a format (R137). -/
def Tile.trfVal (t : Tile) (fmt n r c : Nat) : Val := decodeElem fmt ((t.trfGet n r c).toNat % 2 ^ fmtBits fmt)

/-! ## Preload (R124) -/

/-- PRELOAD: SET clears each selected row first; ADD adds into it. -/
def Tile.laPreload (t : Tile) (me : Site) (c : Cmd) : Tile :=
  let ks := laRows c
  let fmt := laFmt c
  let (t, x, gated) := if laLoc c then (t, { rows := [], bytes := #[], bad := [] }, false)
    else t.fetch me (laSrcRows fmt (laAddr c) (laBoff c) (if fmtMx fmt then some (laScl c) else none) ks)
  let buf := laBuf c
  let t := ks.foldl (fun t k =>
    let r := laRow0 c + k
    let t := if laMode c then t else t.laClearRow buf r
    let t := (List.range 32).foldl (fun t col =>
      let key := laKey buf (32 * r + col)
      let (v, bad) := if laLoc c then (t.trfVal fmt (laAddr c % 16) (laRegRow c r) col, false)
        else planeVal x fmt (laAddr c) (laScl c) (32 * (laBoff c + k) + col)
      let t := if laMode c then t.laCheck me key none else t
      let e := (t.laElem key).addVal v
      t.setLaElem key { e with poison := e.poison || bad }) t
    t.addWeight buf r 32) t
  (if gated then t.err 1 else t).begin .la
    { cmd := c, dataerr := !x.bad.isEmpty, errRaised := gated, rowsDue := laNrow c }

/-! ## Drain and export (R126 to R130) -/

/-- A finite value rounded to a 64-bit significand, to nearest even, with no bound on the exponent (R127). -/
def round64 (v : Val) : Val :=
  match v with
  | .fin m e =>
    if m = 0 then v
    else
      let q := floorLog m e - 63
      let n : Int := roundMag m.natAbs e q none
      .fin (if m < 0 then -n else n) q
  | v => v

/-- The fused operation (R127). -/
def fuse (fop : Nat) (w f : Val) : Val :=
  match fop with
  | 1 => w.add f
  | 2 => (round64 w).mul f
  | _ => w

/-- One row drained: the values after the fused operation, how many elements were poisoned, whether a fused operand was. -/
structure Drained where
  tile : Tile
  vals : List Val
  poisoned : Nat
  fbad : Bool

/-- The values of one row of a drain or export (R126 steps 1 to 4); KEEP = 0 rewrites the row (R129). -/
def Tile.drainRow (t : Tile) (me : Site) (c : Cmd) (fx : Rows) (k : Nat) : Drained :=
  let r := laRow0 c + k
  let buf := laBuf c
  let t := (List.range 32).foldl (fun t col => t.laCheck me (laKey buf (32 * r + col)) none) t
  let elems := (List.range 32).map fun col => t.laElem (laKey buf (32 * r + col))
  let fs := (List.range 32).map fun col =>
    if laFop c = 0 then (Val.zero, false)
    else if laFloc c then (t.trfVal (laFfmt c) (laFaddr c % 16) (laRegRow c r) col, false)
    else
      let (v, bad) := planeVal fx (laFfmt c) (laFaddr c) 0 (32 * (laFboff c + k) + col)
      (if bad then .nan else v, bad)
  let vals := (List.range 32).map fun col =>
    let e := elems.getD col LaElem.zero
    fuse (laFop c) (if e.poison then .nan else e.val) (fs.getD col (Val.zero, false)).1
  { tile := if laKeep c then t else t.laClearRow buf r, vals := vals
    poisoned := (elems.filter (·.poison)).length, fbad := fs.any (·.2) }

/-- The draws of a stochastic drain or export by position, none where it rounds to nearest (R50 to R54). The count of draws is the site's
own from its claim on, whatever its LTID (R52; assumption 87). -/
def Tile.laDraws (t : Tile) (c : Cmd) (srexp : Bool) : List Nat × Tile :=
  if laRnd c = 1 && (c.op == 3 || srexp) then
    let s := srStart (t.reg Reg.LA_SR_SEED) (t.reg Reg.LA_SR_ADV) t.la.draws (fld (t.act 6 2) 0 16)
    (srDraws (32 * laNrow c) s, { t with la := { t.la with draws := t.la.draws + 1 } })
  else ([], t)

/-- The rows of a drain or export formed in order, then handed to `put` (R126). Of a fused operand in the scratchpad only the
rows that selected buffer rows use are read (assumption 69). -/
def Tile.laDrainRows (t : Tile) (me : Site) (c : Cmd) (srexp : Bool)
    (put : Tile → Nat → List Val → List Nat → Bool → Tile × List (Nat × List Byte)) :
    Tile × List (Nat × List Byte) :=
  let (draws, t) := t.laDraws c srexp
  let ks := laRows c
  let (t, fx, gated) := if laFop c = 0 || laFloc c then (t, { rows := [], bytes := #[], bad := [] }, false)
    else t.fetch me (laSrcRows (laFfmt c) (laFaddr c) (laFboff c) none ks)
  let (t, ps, n, fbad) := ks.foldl (fun (a : Tile × List (Nat × List Byte) × Nat × Bool) k =>
    let d := a.1.drainRow me c fx k
    let (t, p) := put d.tile k d.vals ((draws.drop (32 * k)).take 32) (d.poisoned != 0 || d.fbad)
    (t, a.2.1 ++ p, a.2.2.1 + d.poisoned, a.2.2.2 || d.fbad)) (t, [], 0, false)
  let t := t.count Reg.LA_POISON_COUNT n
  let bad := n != 0 || fbad || gated || !fx.bad.isEmpty
  let t := if n != 0 || fbad then t.flagBit Reg.LA_ERR 1 else t
  ((if bad then t.err 1 else t).begin .la { cmd := c, dataerr := bad, errRaised := bad, rowsDue := laNrow c }, ps)

/-- DRAIN (R126 to R129, R131): into a tile register, or as pieces of a scratchpad plane and its scale plane. -/
def Tile.laDrain (t : Tile) (me : Site) (c : Cmd) (srexp : Bool) : Tile :=
  let fmt := laFmt c
  let (t, ps) := t.laDrainRows me c srexp fun t k vals draws _ =>
    if fmtMx fmt then
      let blk := packBlock fmt draws vals
      let b := laBoff c + k
      (t, [(512 * laAddr c + blockBytes fmt * b, packElems fmt blk.codes),
           (512 * laScl c + b, [BitVec.ofNat 8 blk.scale])])
    else
      let codes := (List.range 32).map fun i => (encodeElem fmt draws[i]? (vals.getD i .nan)).code
      if laLoc c then (t.trfSetAll (laAddr c % 16) (laRegRow c (laRow0 c + k)) 0 (codes.map (BitVec.ofNat 32)), [])
      else (t, [(512 * laAddr c + blockBytes fmt * (laBoff c + k), packElems fmt codes)])
  let isScale := fun p : Nat × List Byte => fmtMx fmt && p.2.length == 1
  let (t, w₁) := t.writePieces me 1 (ps.filter fun p => !isScale p) fun _ => false
  let (t, w₂) := t.writePieces me 1 (ps.filter isScale) fun _ => false
  t.onLast .la fun r => { r with writes := w₁ ++ w₂ }

/-- Rows of an EXPORT enter the shuttle's export queue while it has room; the others wait, in order, for EXPFWD to take rows (R130, R131;
assumption 59). -/
def LaSt.enter (x : LaSt) (rows : List ExpRow) : LaSt :=
  let all := x.exports ++ x.late ++ rows
  { x with exports := all.take (max 1 Config.exportRows), late := all.drop (max 1 Config.exportRows) }

/-- EXPORT (R130): each selected row enters the shuttle's export queue. -/
def Tile.laExport (t : Tile) (me : Site) (c : Cmd) (srexp : Bool) : Tile :=
  (t.laDrainRows me c srexp fun t _ vals draws bad =>
    let codes := (List.range 32).map fun i => (encodeElem (laFmt c) draws[i]? (vals.getD i .nan)).code
    ({ t with la := t.la.enter [{ fmt := BitVec.ofNat 4 (laFmt c), vals := codes.map (BitVec.ofNat 32), poison := bad }] }, [])).1

/-! ## The rows of the table -/

/-- EDGE_WORD_ADD (R114): the oldest edge word presented by the MU is added into its element. -/
def execEdgeWordAdd (site : Site) (ecc : Option EccKind) (s : State) : Host.Outcome State Fault Refusal :=
  live s fun s => s.onUnits site fun t =>
    match t.mu.edges with
    | w :: ws => ({ t with mu := { t.mu with edges := ws } }).addEdge site w ecc
    | [] => t

/-- ZERO (R123). -/
def execZero (site : Site) (s : State) : Host.Outcome State Fault Refusal :=
  live s fun s => s.onUnits site fun t => t.startOp .la 1 laMalformed (t.laReady (s.cycleOf site)) t.laZero

/-- PRELOAD (R124). -/
def execPreload (site : Site) (ph : Phys) (s : State) : Host.Outcome State Fault Refusal :=
  live s fun s => s.onUnits site fun t => t.startOp .la 2 laMalformed (t.laReady (s.cycleOf site)) fun c => (t.phys ph).laPreload site c

/-- DRAIN (R126). -/
def execDrain (site : Site) (ph : Phys) (s : State) : Host.Outcome State Fault Refusal :=
  live s fun s => s.onUnits site fun t =>
    t.startOp .la 3 laMalformed (t.laReady (s.cycleOf site)) fun c => (t.phys ph).laDrain site c (s.steward.feature 1)

/-- EXPORT (R130). -/
def execExportRows (site : Site) (ph : Phys) (s : State) : Host.Outcome State Fault Refusal :=
  live s fun s => s.onUnits site fun t =>
    t.startOp .la 4 laMalformed (t.laReady (s.cycleOf site)) fun c => (t.phys ph).laExport site c (s.steward.feature 1)

end Sys2Proof.Machine
end

