-- ==== Sys2Proof/Machine/Matrix.lean ====
section
/-! DEFINITION. The matrix unit: its command, operand layouts, exact column sums and products, residue checks, and the edge
words it presents to the long accumulator (R66 to R108). -/

namespace Sys2Proof.Machine

/-! ## The command (R74 to R77) -/

def muFw (c : Cmd) : Nat := fld (c.w 0) 20 4
def muFa (c : Cmd) : Nat := fld (c.w 0) 16 4
def muM (c : Cmd) : Nat := fld (c.w 0) 10 6
def muKlen (c : Cmd) : Nat := fld (c.w 0) 4 6
def muWsrc (c : Cmd) : Bool := bitOf (c.w 0) 3
def muAsrc (c : Cmd) : Bool := bitOf (c.w 0) 2
def muKeepw (c : Cmd) : Bool := bitOf (c.w 0) 1
def muNlen (c : Cmd) : Nat := fld (c.w 1) 24 8
def muWaddr (c : Cmd) : Nat := fld (c.w 1) 12 12
def muWscl (c : Cmd) : Nat := fld (c.w 1) 0 12
def muWsoff (c : Cmd) : Nat := fld (c.w 2) 28 4
def muAaddr (c : Cmd) : Nat := fld (c.w 2) 16 12
def muAscl (c : Cmd) : Nat := fld (c.w 2) 4 12
def muWsel (c : Cmd) : Bool := bitOf (c.w 2) 3
def muI0 (c : Cmd) : Nat := fld (c.w 3) 20 12
def muLrow (c : Cmd) : Nat := fld (c.w 3) 14 5
def muDmode (c : Cmd) : Nat := fld (c.w 3) 12 2
def muBrep (c : Cmd) : Bool := bitOf (c.w 3) 11

/-- Input row i is fed (R74 word 4, R85). -/
def muFed (c : Cmd) (i : Nat) : Bool := bitOf (c.w 4) i

/-- The classes of R67. -/
inductive MuClass where
  | single | paired | bf16
deriving DecidableEq, Repr

/-- The class of a format pair, if R67 allows it. -/
def muClass (fa fw : Nat) : Option MuClass :=
  if fa = 3 && fw = 3 then some .single
  else if fa = 2 && fw = 2 then some .bf16
  else if fmtMx fa && fmtMx fw then
    if 7 ≤ fa && 7 ≤ fw then some .paired else some .single
  else none

/-- The pitch of a skew line and the lines in a scratchpad row (R70). -/
def linePitch (fa : Nat) : Nat := if fa = 2 then 64 else if fa = 9 then 16 else 32
def linesPerRow (fa : Nat) : Nat := 512 / linePitch fa

/-- Element rows of an MM weight block (R69). -/
def mmWeightRows (fw : Nat) : Nat := if fw = 2 then 4 else if fmtSix fw then 3 else if fw = 9 then 1 else 2

/-- KEEPW is allowed (R76): MM, after an MM of the same FMT_W with nothing between that forbids it, on a block that an MM has
loaded (R108, assumption 66). -/
def Tile.keepOk (t : Tile) (c : Cmd) : Bool :=
  c.op == 1 && t.mu.active.isSome && t.mu.loaded && t.mu.prev == some (BitVec.ofNat 4 (muFw c))

/-- The tile register that WADDR or AADDR names: bits [15:12] of word 1, bits [19:16] of word 2. -/
def muReg (addr : Nat) : Nat := addr % 16

/-- The weight reads of a command stay within the scratchpad, and WSRC, WSEL and WSOFF are as R68 to R74 require. With WSRC = 1
a nonzero bit above the register number makes the command malformed (assumption 67). -/
def muWeightOk (c : Cmd) : Bool :=
  let fw := muFw c
  match c.op with
  | 1 =>
    if muWsrc c then (fw == 2 || fw == 3) && muWaddr c < 16 && !muWsel c
    else muWaddr c + mmWeightRows fw ≤ 4096 && (fmtSix fw || !muWsel c)
  | 2 => !muWsrc c && !muWsel c && planeEnd fw (muWaddr c) (planeBytes fw 4096) ≤ 4096 && muWsoff c ≤ 12
  | _ =>
    let n := if muBrep c then 1 else muM c
    (fmtSix fw || !muWsel c) &&
      (if muWsrc c then (fw == 2 || fw == 3) && muWaddr c < 16
       else planeEnd fw (muWaddr c) (blockBytes fw * n) ≤ 4096)

/-- The input reads of a command stay within the scratchpad or register (R70 to R74). With ASRC = 1 a nonzero bit above the
register number, and in DIAG a run past register row 31, makes the command malformed (assumption 67). -/
def muInputOk (c : Cmd) : Bool :=
  let fa := muFa c
  let last := muI0 c + muM c - 1
  let scaleOk := !fmtMx fa || muAscl c + last / 512 ≤ 4095
  match c.op with
  | 1 => !muAsrc c && muI0 c + muM c ≤ 4096 && muAaddr c + (last + 31) / linesPerRow fa ≤ 4095 && scaleOk
  | _ =>
    if muAsrc c then (fa == 2 || fa == 3) && muAaddr c < 16 && muI0 c + muM c ≤ 32
    else planeEnd fa (muAaddr c) (blockBytes fa * (last + 1)) ≤ 4096 && scaleOk

/-- An MU command is malformed (R74 to R76); its reserved bits, and DMODE outside DIAG, are ignored (R13). -/
def Tile.muMalformed (t : Tile) (c : Cmd) : Bool :=
  let m := muM c
  let n := muNlen c
  let base := c.verOk && (muClass (muFa c) (muFw c)).isSome && 1 ≤ m && 1 ≤ n
  let form := match c.op with
    | 1 => m ≤ 32 && muKlen c ≤ 32 && n ≤ 32 && muLrow c + m ≤ 32
    | 2 => m ≤ 8 && muKlen c ≤ 32 && n ≤ 128 && muLrow c + m ≤ 8
    | 3 => m ≤ 32 && muKlen c == 0 && n ≤ 32 && (muDmode c == 1 || muDmode c == 3 || muLrow c + m ≤ 32)
    | _ => false
  !(base && form && (if muKeepw c then t.keepOk c else muWeightOk c) && muInputOk c)

/-! ## Column passes (R78 to R82) -/

/-- The step u of a format as a power of two (R78); for BF16 the exponent of each product comes from its operands. -/
def stepLog (fmt : Nat) : Int :=
  match fmt with
  | 4 => -6 | 5 => -9 | 6 => -16 | 7 => -4 | 8 => -3 | 9 => -1 | _ => 0

/-- An operand element: its value and whether its row is poisoned. -/
abbrev Operand := Val × Bool

/-- A sum of products as the MU forms it: TAG, LSBEXP, SUM and whether an operand came from a poisoned row. -/
structure Pass where
  tag : BitVec 2
  lsb : Int
  sum : Int
  poison : Bool
deriving DecidableEq, Repr

/-- The TAG of a set of products (R81). -/
def tagOf (ps : List Val) : BitVec 2 := ps.foldl (fun t p => combineTag t p.tag) 0

/-- The products of a column pass: NaN where either scale is 0xFF (R81). -/
def products (sa sw : Nat) (ps : List (Operand × Operand)) : List Val :=
  ps.map fun (a, w) => if sa = 0xFF || sw = 0xFF then .nan else a.1.mul w.1

/-- The significand and exponent of a value over the exponent `e`: zero for a value that is not finite. -/
def Val.over (v : Val) (e : Int) : Int :=
  match v with
  | .fin m x => if m = 0 then 0 else m * pow2 (x - e)
  | _ => 0

/-- A column pass of the single or paired class (R78): SUM in units of u_A × u_W, one combined scale. -/
def colPass (fa fw sa sw : Nat) (ps : List (Operand × Operand)) : Pass :=
  let vs := products sa sw ps
  let tag := tagOf vs
  let u := stepLog fa + stepLog fw
  let lsb : Int := if fmtMx fa then u + (sa : Int) - 127 + (sw : Int) - 127 else 0
  let sum := vs.foldl (fun a v => a + v.over u) 0
  { tag := tag, lsb := lsb, sum := if tag = 0 then sum else 0, poison := ps.any fun (a, w) => a.2 || w.2 }

/-- A single product (R80 to R82, R100): the significand product, at most 17 bits with its sign, and its exponent, the scales of both
sides in it. A BF16 operand has the scale byte 127. -/
def onePass (sa sw : Nat) (a w : Operand) : Pass :=
  match a.1, w.1 with
  | .fin m e, .fin n f =>
    if sa = 0xFF || sw = 0xFF then { tag := 3, lsb := 0, sum := 0, poison := a.2 || w.2 }
    else { tag := 0, lsb := e + f + ((sa : Int) - 127) + ((sw : Int) - 127), sum := m * n, poison := a.2 || w.2 }
  | _, _ => { tag := tagOf (products sa sw [(a, w)]), lsb := 0, sum := 0, poison := a.2 || w.2 }

/-- A word of the edge: its element, its column, its weight class, and the checked sums that make it up, each with the cycle in
which it is checked, counted from the first of its command: one, or the sub-pass sums that a fold adds (R92, R97, R102). -/
structure EdgeForm where
  elem : Nat
  col : Nat
  wt : Bool
  parts : List (Nat × Pass)

/-- The change that a fault of the array makes to the n-th checked sum of a command (assumption 7). -/
def residOf (ph : Phys) (n : Nat) : Int := (ph.resid.filter fun e => e.1 == n).foldl (fun a e => a + e.2) 0

/-- One checked sum with its fault applied (R103, R104): the 72-bit sum, and whether the residue check finds the change of it. A sum
without a TAG is checked whatever the TAG of the edge word that it is folded into (assumption 66). -/
def checkPass (ph : Phys) (n : Nat) (p : Pass) : Pass × Bool :=
  if p.tag ≠ 0 then (p, false)
  else
    let sum := sext ((p.sum + residOf ph n) % 2 ^ 72).toNat 72
    ({ p with sum := sum }, (sum - p.sum) % 3 != 0)

/-- A residue mismatch recorded and raised (R103). -/
def Tile.residue (t : Tile) (me : Site) (op elem col : Nat) : Tile :=
  let t := ((t.flagBit Reg.MU_ERR 1).count Reg.MU_RES_COUNT 1).setReg Reg.MU_RES_LAST
    (at32 (op % 4) 24 ||| at32 col 10 ||| at32 elem 0)
  t.raise me 0x04 0 (t.reg Reg.MU_ERR)

/-- Mismatches in the order of their cycles; those of one cycle in the order of their words. -/
def insertMiss (m : Nat × Nat × Nat) : List (Nat × Nat × Nat) → List (Nat × Nat × Nat)
  | [] => [m]
  | x :: xs => if m.1 < x.1 then m :: x :: xs else x :: insertMiss m xs

/-- Edge words formed from their checked sums, with poison; each sum whose check fails is recorded and raised, in the order of
their cycles (R82, R97, R103, R107, R239, assumption 66). -/
def Tile.formEdges (t : Tile) (me : Site) (c : Cmd) (ph : Phys) (fs : List EdgeForm) : Tile × Bool :=
  let en := bitOf (t.act 0 56) 0
  let mark := bitOf (t.act 0 56) 1
  let (_, es, misses) := fs.foldl (fun (a : Nat × List EdgeWord × List (Nat × Nat × Nat)) f =>
    let (n, es, misses) := a
    let chk := (List.range f.parts.length).map fun i =>
      let p := f.parts.getD i (0, ⟨0, 0, 0, false⟩)
      (p.1, checkPass ph (n + i) p.2)
    let bad := if en then chk.filter (·.2.2) else []
    let tag := chk.foldl (fun x p => combineTag x p.2.1.tag) 0
    let w : EdgeWord :=
      { cmd := c.stamp, buf := muBuf c, elem := f.elem, tag := tag, wt := f.wt
        poison := (!bad.isEmpty && mark) || f.parts.any (·.2.poison)
        lsb := (f.parts.getD 0 (0, ⟨0, 0, 0, false⟩)).2.lsb
        sum := if tag = 0 then chk.foldl (fun x p => x + p.2.1.sum) 0 else 0 }
    (n + f.parts.length, es ++ [w], bad.foldl (fun ms p => insertMiss (p.1, f.elem, f.col) ms) misses)) (0, [], [])
  let t := misses.foldl (fun t m => t.residue me c.op m.2.1 m.2.2) t
  ({ t with mu := { t.mu with edges := t.mu.edges ++ es } }, !misses.isEmpty)

/-! ## Operand reads -/

/-- A byte-plane element with the poison of the rows that hold it; the scale is not applied. -/
def planeElem (x : Rows) (fmt addr off i : Nat) : Operand :=
  (decodeElem fmt (elemAt fmt (fun b => x.plane addr (off + b)) i),
    x.poison (addr + (off + i * fmtBits fmt / 8) / 512) ||
      x.poison (addr + (off + (i * fmtBits fmt + fmtBits fmt - 1) / 8) / 512))

/-- An element of a tile register as an MU operand (R73). -/
def Tile.trfElem (t : Tile) (fmt reg r c : Nat) : Operand := (t.trfVal fmt reg r c, false)

/-- Element k of run row i in the skewed layout (R70). -/
def skewElem (x : Rows) (fa addr i k : Nat) : Operand :=
  let line := i + k
  let row := addr + line / linesPerRow fa
  let off := line % linesPerRow fa * linePitch fa
  (decodeElem fa (elemAt fa (fun b => x.byte row (off + b)) k), x.poison row)

/-- The scale byte of a block and the poison of its row; 127 where the format has no scale. -/
def scaleOf (x : Rows) (fmt row b : Nat) : Nat × Bool :=
  if fmtMx fmt then (x.byte (row + b / 512) (b % 512), x.poison (row + b / 512)) else (127, false)

/-- What a started MU command has in hand: the rows read, and the weights by column and depth. -/
structure MuIn where
  tile : Tile
  x : Rows
  gated : Bool

/-- The rows of weights and weight scales that a command reads (R69, R72). -/
def muWeightRows (c : Cmd) : List Nat :=
  let fw := muFw c
  if muKeepw c || muWsrc c then [] else
    (match c.op with
    | 1 => upto (muWaddr c) (mmWeightRows fw)
    | 2 => upto (muWaddr c) ((planeBytes fw 4096 + 511) / 512)
    | _ => planeRows fw (muWaddr c) 0 (blockBytes fw * (if muBrep c then 1 else muM c))) ++
    (if fmtMx fw then [muWscl c] else [])

/-- The rows that a command reads (R43, R69 to R72, R92, R96, R102): weights, weight scales, inputs, input scales. -/
def muRows (c : Cmd) : List Nat :=
  let fa := muFa c
  let m := muM c
  let i0 := muI0 c
  let a := if muAsrc c then [] else
    match c.op with
    | 1 =>
      let r0 := muAaddr c + i0 / linesPerRow fa
      upto r0 (muAaddr c + (i0 + m + 30) / linesPerRow fa - r0 + 1)
    | _ => planeRows fa (muAaddr c) (blockBytes fa * i0) (blockBytes fa * (i0 + m))
  let sc := if muAsrc c || !fmtMx fa then [] else
    upto (muAscl c + i0 / 512) ((i0 + m - 1) / 512 - i0 / 512 + 1)
  muWeightRows c ++ a ++ sc

/-- The weights of an MM or MMW command as they enter the cells: zero at depths from KLEN on (R68, R69, R73, R85). -/
def Tile.loadWeights (t : Tile) (x : Rows) (c : Cmd) (cols : Nat) : Weights :=
  let fw := muFw c
  let off := if c.op = 1 && muWsel c then 768 else 0
  let code := fun j k =>
    if muKlen c ≤ k then 0
    else if muWsrc c then (t.trfGet (muReg (muWaddr c)) k j).toNat % 2 ^ fmtBits fw
    else elemAt fw (fun b => x.plane (muWaddr c) (off + b)) (32 * j + k)
  let bad := fun j k => if muWsrc c || muKlen c ≤ k then false else (planeElem x fw (muWaddr c) off (32 * j + k)).2
  let pairs := (List.range cols).flatMap fun j => (List.range 32).map fun k => (j, k)
  { fmt := BitVec.ofNat 4 fw
    codes := pairs.map fun e => code e.1 e.2
    scales := (List.range cols).map fun j => if fmtMx fw then x.byte (muWscl c) (32 * muWsoff c + j) else 127
    bad := pairs.map fun e => bad e.1 e.2
    badScale := fmtMx fw && x.poison (muWscl c) }

/-- Weight (k, j) of the cells. -/
def Weights.elem (w : Weights) (codes : Array Nat) (bad : Array Bool) (j k : Nat) : Operand :=
  (decodeElem w.fmt.toNat (codes.getD (32 * j + k) 0), bad.getD (32 * j + k) false || w.badScale)

/-- Input element k of input row i, and the row's scale (R70 to R73). -/
def Tile.muInput (t : Tile) (x : Rows) (c : Cmd) (i k : Nat) : Operand :=
  let fa := muFa c
  let v := if muAsrc c then t.trfElem fa (muReg (muAaddr c)) (muI0 c + i) k
    else if c.op = 1 then skewElem x fa (muAaddr c) (muI0 c + i) k
    else planeElem x fa (muAaddr c) 0 (32 * (muI0 c + i) + k)
  (v.1, v.2 || (!muAsrc c && (scaleOf x fa (muAscl c) (muI0 c + i)).2))

/-- The bytes that a command's staging reads deliver, element rows or register rows first, then the scale row (R89). -/
def Tile.staged (t : Tile) (x : Rows) (c : Cmd) : List Byte :=
  if muWsrc c then
    (List.range 32).flatMap fun r => bytesOfWords (t.trfRow (muReg (muWaddr c)) r)
  else (muWeightRows c).flatMap fun r => (List.range 512).map fun i => BitVec.ofNat 8 (x.byte r i)

/-- A staging buffer filled, the two by turns (R89). -/
def MuSt.stage (m : MuSt) (bs : List Byte) : MuSt :=
  if m.nextStage then { m with stage1 := bs, nextStage := false } else { m with stage0 := bs, nextStage := true }

/-- A set of fold registers takes the fold values of an MMW command at their rows and columns, the two sets by turns (R97). What stands
at a row or column that is not fed stays as it was; no command reads it before writing it (R108). -/
def MuSt.fold (m : MuSt) (vs : List (Nat × BitVec 72)) : MuSt :=
  if m.nextFold then { m with fold1 := Map.setAll (fun _ => 0) m.fold1 vs, nextFold := false }
  else { m with fold0 := Map.setAll (fun _ => 0) m.fold0 vs, nextFold := true }

/-- The place of an MMW edge word in the fold registers: 128 for each input row, and the column (R96, R97). -/
def foldKey (c : Cmd) (elem : Nat) : Nat := elem - 128 * muLrow c

/-! ## Forms -/

/-- Cycles that one input row of MM takes at the array, by class, and cycles of one MMW sub-pass (R92, R96). -/
def mmRowTime (fa fw i : Nat) : Nat := if fa = 2 then 4 * i else if 7 ≤ fa && 7 ≤ fw then i / 2 else i
def mmwPass (fa fw m : Nat) : Nat := if fa = 2 then max (4 * m) 16 else max m (if 7 ≤ fw then 4 else 8)

/-- The edge words of MM and MMW (R78, R80, R83, R85, R92, R97): fed rows, columns below NLEN, depths below KLEN; in the MMW form
each sub-pass of eight depths is checked on its own. -/
def arrayForms (c : Cmd) (w : Weights) (a : Nat → Nat → Operand) (sa : Nat → Nat) : List EdgeForm :=
  let fa := muFa c
  let codes := w.codes.toArray
  let bad := w.bad.toArray
  let rowLen := if c.op = 1 then 32 else 128
  let deep := (List.range 32).filter fun k => k < muKlen c
  if deep.isEmpty then [] else
  ((List.range (muM c)).filter (muFed c)).flatMap fun i => (List.range (muNlen c)).flatMap fun j =>
    let elem := rowLen * (muLrow c + i) + j
    let op := fun k => (a i k, w.elem codes bad j k)
    let fw := w.fmt.toNat
    let pass := fun ks => colPass fa fw (sa i) (w.scales.getD j 127) (List.map op ks)
    if fa = 2 then
      deep.map fun k =>
        let at' := if c.op = 1 then mmRowTime fa fw i + k / 8 + j else k / 8 * mmwPass fa fw (muM c) + 4 * i + k % 8 / 2 + j % 32
        { elem := elem, col := j, wt := false, parts := [(at', onePass 127 127 (op k).1 (op k).2)] }
    else if c.op = 1 then
      [{ elem := elem, col := j, wt := true, parts := [(mmRowTime fa fw i + j, pass deep)] }]
    else
      [{ elem := elem, col := j, wt := true
         parts := (List.range 4).filterMap fun p =>
           let ks := deep.filter fun k => k / 8 == p
           if ks.isEmpty then none else some (p * mmwPass fa fw (muM c) + i + j % 32, pass ks) }]

/-- The edge words of DIAG (R100 to R102). A sum over the columns has no column of its own and counts as column 0
(assumption 68). -/
def diagForms (c : Cmd) (a b : Nat → Nat → Operand) (sa sb : Nat → Nat) : List EdgeForm :=
  let fa := muFa c
  let cols := List.range (muNlen c)
  let l := muLrow c
  let elem := fun i j =>
    match muDmode c with
    | 0 => 32 * (l + i) + j
    | 1 => 32 * l + j
    | 2 => 32 * (l + i)
    | _ => 32 * l
  ((List.range (muM c)).filter (muFed c)).flatMap fun i =>
    let bi := if muBrep c then 0 else i
    if fa = 2 then
      cols.map fun j =>
        { elem := elem i j, col := j, wt := false
          parts := [(if 2 ≤ muDmode c then 4 * i + j / 8 else i, onePass 127 127 (a i j) (b bi j))] }
    else if 2 ≤ muDmode c then
      [{ elem := elem i 0, col := 0, wt := true
         parts := [(i, colPass fa (muFw c) (sa i) (sb bi) (cols.map fun j => (a i j, b bi j)))] }]
    else
      cols.map fun j =>
        { elem := elem i j, col := j, wt := true, parts := [(i, onePass (sa i) (sb bi) (a i j) (b bi j))] }

/-- A started MU command joins those in progress; poisoned reads and residue mismatches make it DATAERR (R206, R239). A
conflict of a privileged read of the MU is flagged (R107). -/
def Tile.muBegin (t : Tile) (c : Cmd) (ph : Phys) (bad gated : Bool) : Tile :=
  let conf := ph.conf.any fun k => (fixConflict k).any fun k => confHas k 6
  let t := if conf then t.flagBit Reg.MU_ERR 2 else t
  (if gated then t.err 1 else t).begin .mu { cmd := c, dataerr := bad, conflict := conf, errRaised := gated }

/-- MM and MMW: weights loaded or kept, inputs streamed, edge words formed (R90, R92, R95 to R97). -/
def Tile.muArray (t : Tile) (me : Site) (c : Cmd) (ph : Phys) : Tile :=
  let (t, x, gated) := (t.physOf 6 ph).fetch me (muRows c)
  let (w, mu) := match muKeepw c, t.mu.active with
    | true, some w => (w, t.mu)
    | _, _ => (t.loadWeights x c (if c.op = 1 then 32 else 128), t.mu.stage (t.staged x c))
  let prev := if c.op = 1 then some w.fmt else none
  let t := { t with mu := { mu with active := some w, shadow := some w, prev := prev, loaded := c.op = 1 } }
  let fs := arrayForms c w (t.muInput x c) fun i => (scaleOf x (muFa c) (muAscl c) (muI0 c + i)).1
  let old := t.mu.edges.length
  let (t, hit) := t.formEdges me c ph fs
  let t := if c.op = 2 && muFa c ≠ 2 then
      { t with mu := t.mu.fold ((t.mu.edges.drop old).map fun e => (foldKey c e.elem, BitVec.ofInt 72 e.sum)) } else t
  t.muBegin c ph (hit || !x.bad.isEmpty || fs.any fun f => f.parts.any (·.2.poison)) gated

/-- DIAG (R100, R101). The weights in the cells stay. -/
def Tile.muDiag (t : Tile) (me : Site) (c : Cmd) (ph : Phys) : Tile :=
  let (t, x, gated) := (t.physOf 6 ph).fetch me (muRows c)
  let fw := muFw c
  let b := fun i k =>
    if muWsrc c then t.trfElem fw (muReg (muWaddr c)) i k
    else
      let v := planeElem x fw (muWaddr c) 0 (32 * i + k)
      (v.1, v.2 || (scaleOf x fw (muWscl c) i).2)
  let fs := diagForms c (t.muInput x c) b (fun i => (scaleOf x (muFa c) (muAscl c) (muI0 c + i)).1)
    fun i => (scaleOf x fw (muWscl c) i).1
  let t := { t with mu := { t.mu with prev := none } }
  let (t, hit) := t.formEdges me c ph fs
  t.muBegin c ph (hit || !x.bad.isEmpty) gated

/-- A rejected MU command is the previous command of the next one: after a rejected MM, KEEPW with its FMT_W uses the block that
an MM has loaded, in the format it was loaded in (R76, R203, assumption 66). -/
def Tile.muStart (t : Tile) (now op : Nat) (run : Cmd → Tile) : Tile :=
  match t.units.mu.queue with
  | c :: _ =>
    if c.op = op && (c.badFence || t.muMalformed c) then
      let t := t.reject .mu c
      { t with mu := { t.mu with prev := if op = 1 then some (BitVec.ofNat 4 (muFw c)) else none } }
    else t.startOp .mu op (fun _ => false) (t.muReady now) run
  | [] => t

/-! ## The rows of the table -/

/-- MM (R92). -/
def execMm (site : Site) (ph : Phys) (s : State) : Host.Outcome State Fault Refusal :=
  live s fun s => s.onUnits site fun t => t.muStart (s.cycleOf site) 1 fun c => t.muArray site c ph

/-- MMW (R96). -/
def execMmw (site : Site) (ph : Phys) (s : State) : Host.Outcome State Fault Refusal :=
  live s fun s => s.onUnits site fun t => t.muStart (s.cycleOf site) 2 fun c => t.muArray site c ph

/-- DIAG (R100). -/
def execDiag (site : Site) (ph : Phys) (s : State) : Host.Outcome State Fault Refusal :=
  live s fun s => s.onUnits site fun t => t.muStart (s.cycleOf site) 3 fun c => t.muDiag site c ph

end Sys2Proof.Machine
end

