-- ==== Sys2Proof/Machine/Weave.lean ====
section
/-! DEFINITION. Tokens, queues, credits, sequencers and steering units of a tile (R259 to R295), head tokens and markers
(R310 to R312), and spilled tokens (R320), as operations on one tile. -/

namespace Sys2Proof.Machine

/-! ## Tokens (R261) -/

def tokKind (t : BitVec 64) : Nat := fld t 56 4
def tokEpoch (t : BitVec 64) : Nat := fld t 60 4
def tokPoison (t : BitVec 64) : Bool := bitOf t 55
def tokAux (t : BitVec 64) : Nat := fld t 32 16
def tokPayload (t : BitVec 64) : Nat := fld t 0 32
def tokIsMark (t : BitVec 64) : Bool := tokKind t == 4

/-- A token of the given fields (R261). -/
def mkToken (epoch kind : Nat) (poison : Bool) (aux payload : Nat) : BitVec 64 :=
  BitVec.ofNat 64 ((epoch % 16) <<< 60 ||| (kind % 16) <<< 56 ||| (if poison then 1 <<< 55 else 0) |||
    (aux % 65536) <<< 32 ||| payload % 2 ^ 32)

/-- An EMARK (R311): the epoch it closes, the stitch and NEW. -/
def mkMark (epoch stitch new : Nat) : BitVec 64 := mkToken epoch 4 false 0 (stitch <<< 16 ||| new % 16)

/-- Queue codes of a tile: five units with eight queues, four steering units with five (R262). -/
def queueOk (u q : Nat) : Bool := (u < 5 && q < 8) || (8 ≤ u && u < 12 && q < 5)

/-- The group that owns a unit's queues (R296, R312). -/
def groupOfUnit (u : Nat) : Nat := if u < 5 then u else 5

/-- The units and steering units of a group. -/
def unitsOfGroup (g : Nat) : List Nat := if g < 5 then [g] else if g = 5 then [8, 9, 10, 11] else []

def noQueue : Nat → Queue := fun _ => Queue.reset

def Tile.queue (t : Tile) (u q : Nat) : Queue := Map.get noQueue t.queues (8 * u + q)

def Tile.setQueue (t : Tile) (u q : Nat) (x : Queue) : Tile :=
  { t with queues := Map.set noQueue t.queues (8 * u + q) x }

/-- Tokens of a queue that take its 16 entries; markers have their own (R262, R311). -/
def Queue.depth (x : Queue) : Nat := (x.toks.filter fun e => !tokIsMark e.tok).length

def noPortSt : Nat → PortSt := fun _ => PortSt.reset

/-- An output port of a unit (0 to 3) or steering unit (0, 1). -/
def Tile.portSt (t : Tile) (u p : Nat) : PortSt := Map.get noPortSt t.ports (4 * u + p)

def Tile.setPortSt (t : Tile) (u p : Nat) (x : PortSt) : Tile :=
  { t with ports := Map.set noPortSt t.ports (4 * u + p) x }

def noSeq : Nat → SeqSt := fun _ => SeqSt.reset

def Tile.seq (t : Tile) (u : Nat) : SeqSt := Map.get noSeq t.seqs u

def Tile.setSeq (t : Tile) (u : Nat) (x : SeqSt) : Tile := { t with seqs := Map.set noSeq t.seqs u x }

/-- The destination word of a port (R289). -/
def Tile.dstWord (t : Tile) (u p : Nat) : Word := if u < 5 then t.act u (50 + p) else t.act 5 (4 + 2 * (u - 8) + p)

/-- CREDITS of a port (R289). -/
def Tile.portCredits (t : Tile) (u p : Nat) : Nat := fld (t.dstWord u p) 4 5

/-- A steering unit's configuration (R291). -/
def Tile.suCfg (t : Tile) (n : Nat) : Word := t.act 5 n

/-- A unit under its sequencer, or an enabled steering unit, takes tokens (R262). -/
def Tile.takesTokens (t : Tile) (u : Nat) : Bool := if u < 5 then t.cmdsrc u else bitOf (t.suCfg (u - 8)) 31

/-! ## Credits (R265, R266) -/

/-- Credits come back to a port: one for a token to an old destination is discarded, and the port never holds more than
CREDITS (R265). -/
def Tile.addCredits (t : Tile) (u p n gen : Nat) : Tile :=
  let x := t.portSt u p
  if gen = x.gen then
    t.setPortSt u p { x with credits := min (x.credits + n) (t.portCredits u p), outstanding := x.outstanding - n }
  else t

/-- Credits of one producer's tokens go back to it: at once to a port of this tile, over the wires of the warp link, or in
CREDIT packets on VC0 (R266, R267, R444). A hemmed tile emits none (R462). -/
def Tile.returnCredit (t : Tile) (me : Site) (src : TokSrc) : Tile :=
  if t.hemmed then t else
  match src with
  | .seq site u p path gen =>
    if path = 0 then t.addCredits u.toNat p.toNat 1 gen
    else if path = 1 then { t with wires := t.wires ++ [(site, .credit me u p gen)] }
    else t.post { src := .tile me, dst := .site site, cls := 0, flits := 1, body := .credit u p 1 gen }
  | .loom a p => t.post { src := .tile me, dst := .att a, cls := 0, flits := 1, body := .credit 0xF p 1 0 }

/-- A token dropped at its receiver: its credit returns, an EMARK's none (R262, R311). -/
def Tile.dropCredit (t : Tile) (me : Site) (tok : BitVec 64) (src : TokSrc) : Tile :=
  if tokIsMark tok then t else t.returnCredit me src

/-! ## Arrival (R262, R305, R311) -/

/-- A token dropped for a reason of R262: flagged, counted, its credit returned. -/
def Tile.dropToken (t : Tile) (me : Site) (flag : Nat) (tok : BitVec 64) (src : TokSrc) : Tile :=
  ((t.flagBit Reg.TC_WV_ERR flag).count Reg.TC_WVDROP_COUNT 1).dropCredit me tok src

/-- A token arrives at a queue and is queued or dropped (R262, R305, R311, R462). -/
def Tile.tokenArrive (t : Tile) (me : Site) (u q : Nat) (tok : BitVec 64) (src : TokSrc) : Tile :=
  if t.hemmed then t.count Reg.TC_WVDROP_COUNT 1
  else if !queueOk u q || tokKind tok = 0 || 4 < tokKind tok || !t.takesTokens u || (t.group (groupOfUnit u)).patbad then
    t.dropToken me 1 tok src
  else
    let x := t.queue u q
    if tokIsMark tok then
      if x.toks.any fun e => tokIsMark e.tok then (t.flagBit Reg.TC_EP_ERR 2).count Reg.TC_EPDROP_COUNT 1
      else t.setQueue u q { x with toks := x.toks ++ [⟨tok, src⟩] }
    else if 16 ≤ x.depth then t.dropToken me 0 tok src
    else t.setQueue u q { x with toks := x.toks ++ [⟨tok, src⟩] }

/-! ## Spool advances (R241 to R245) -/

def noSpool : Nat → Spool := fun _ => Spool.reset

def Tile.spool (t : Tile) (n : Nat) : Spool := Map.get noSpool t.sp.spools n

def Tile.setSpool (t : Tile) (n : Nat) (x : Spool) : Tile :=
  t.onSp fun s => { s with spools := Map.set noSpool s.spools n x }

/-- SP_SPOOLn_CFG (R255). -/
def Tile.spoolCfg (t : Tile) (n : Nat) : Word := t.act 3 (57 + n)

def spoolSize (cfg : Word) : Nat := fld cfg 16 13
def spoolBase (cfg : Word) : Nat := fld cfg 0 12

/-- COUNT of a spool (R241). -/
def Tile.spoolCount (t : Tile) (n : Nat) : Nat :=
  let x := t.spool n
  let size := spoolSize (t.spoolCfg n)
  if x.full then size else (x.tail + size - x.head) % size

/-- A head or tail advance keeps its limit, and its spool is enabled (R243). -/
def Tile.advanceOk (t : Tile) (n : Nat) (tailEnd : Bool) (rows : Nat) : Bool :=
  bitOf (t.spoolCfg n) 31 &&
    if tailEnd then rows + t.spoolCount n + (t.spool n).rsv ≤ spoolSize (t.spoolCfg n) else rows ≤ t.spoolCount n

/-- A spool's end advanced (R241). -/
def Tile.advanceTo (t : Tile) (n : Nat) (tailEnd : Bool) (rows : Nat) : Tile :=
  let x := t.spool n
  let size := spoolSize (t.spoolCfg n)
  if tailEnd then
    let tail := (x.tail + rows) % size
    t.setSpool n { x with tail := tail, full := x.full || (rows != 0 && tail == x.head) }
  else t.setSpool n { x with head := (x.head + rows) % size, full := x.full && rows == 0 }

/-- A head or tail advance, refused when it breaks its limit or names a disabled spool (R243). -/
def Tile.spoolAdvance (t : Tile) (n : Nat) (tailEnd : Bool) (rows : Nat) : Tile × Bool :=
  if t.advanceOk n tailEnd rows then (t.advanceTo n tailEnd rows, true) else (t.flagBit Reg.SP_ERR 4, false)

/-! ## Head tokens (R312, R320) -/

/-- The head of a queue: a token read back from the spill spool, or the oldest one; none while a spilled token has not been
read back (R320). -/
def Queue.head (x : Queue) : Option (BitVec 64) :=
  match x.back with
  | b :: _ => some b
  | [] => if x.spills.isEmpty then x.toks.head?.map (·.tok) else none

/-- What a head token is for its group (R312). -/
inductive HeadFate where
  | none | consumable | held | switchMark | reMark | drop | dropMix
deriving DecidableEq, Repr

/-- Group `g` is named in the open stitch (R310). -/
def Tile.named (t : Tile) (g : Nat) : Bool := t.stitch.mode != .idle && bitOf t.stitch.gmask g

/-- The fate of a token at the head of a queue of group `g` (R310, R312). -/
def Tile.fate (t : Tile) (g : Nat) (tok : BitVec 64) : HeadFate :=
  let a := (t.group g).epoch.toNat
  let armed := (t.stitch.mode = .armed || t.stitch.mode = .committed) && bitOf t.stitch.pend g
  if tokIsMark tok then
    if tokEpoch tok ≠ a then .drop
    else if t.named g then
      if tokPayload tok / 65536 = t.stitch.num.toNat then .switchMark else .dropMix
    else .reMark
  else if tokEpoch tok = a then .consumable
  else if armed && tokEpoch tok = t.stitch.new.toNat then .held
  else .drop

/-- The fate of a queue's head token. -/
def Tile.headFate (t : Tile) (u q : Nat) : HeadFate :=
  match (t.queue u q).head with
  | some tok => t.fate (groupOfUnit u) tok
  | none => .none

/-- The head of the spill spool passes every row at its front whose tokens have all been consumed (R320). -/
def Tile.passSpills (t : Tile) : List (Nat × Bool) → Tile
  | [] => { t with spillOrder := [] }
  | (off, freed) :: rest =>
    if freed then Tile.passSpills (t.spoolAdvance (fld (t.act 6 3) 0 5) false 1).1 rest
    else { t with spillOrder := (off, freed) :: rest }

/-- Every token of the spill row at an offset has been consumed (R320). -/
def Tile.freeSpill (t : Tile) (off : Nat) : Tile :=
  t.passSpills (t.spillOrder.map fun e : Nat × Bool => if e.1 = off then (e.1, true) else e)

/-- The head token taken from a queue, with its producer; a token read back from the spill spool has given its credit back
already (R319, R321). -/
def Tile.pop (t : Tile) (u q : Nat) : Option (BitVec 64 × Option TokSrc) × Tile :=
  let x := t.queue u q
  match x.back with
  | b :: bs =>
    match x.spills with
    | r :: rs =>
      if r.left ≤ 1 then (some (b, none), (t.setQueue u q { x with back := bs, spills := rs }).freeSpill r.off)
      else (some (b, none), t.setQueue u q { x with back := bs, spills := { r with left := r.left - 1 } :: rs })
    | [] => (some (b, none), t.setQueue u q { x with back := bs })
  | [] =>
    if x.spills.isEmpty then
      match x.toks with
      | e :: es => (some (e.tok, some e.src), t.setQueue u q { x with toks := es })
      | [] => (none, t)
    else (none, t)

/-! ## Current tokens (R266) -/

/-- Consumed tokens that are no longer current and that no unfinished firing uses are released; their credits return
(R266). -/
def Tile.release (t : Tile) (me : Site) : Tile :=
  let gone := t.helds.filter fun h : Held => !h.cur && h.uses = 0
  let t := { t with helds := t.helds.filter fun h : Held => h.cur || h.uses != 0 }
  gone.foldl (fun t h => t.returnCredit me h.src) t

/-- The current token of a queue, which governs its firings (R266). -/
def Tile.current (t : Tile) (u q : Nat) : Option Held := t.helds.find? fun h => h.unit = u && h.queue = q && h.cur

/-- A queue has a current token that has not been released (R294). -/
def Tile.unreleased (t : Tile) (u q : Nat) : Bool := t.helds.any fun h : Held => h.unit = u && h.queue = q

/-- The current tokens of a unit cease to be current (R266, end of a run). -/
def Tile.endCurrent (t : Tile) (u : Nat) : Tile :=
  { t with helds := t.helds.map fun h : Held => if h.unit = u then { h with cur := false } else h }

/-- A producer that takes no credit: the mark of a token that has given its credit back (R321). -/
def spilledSrc : TokSrc := .seq 0 0xF 0 0 0

/-- A needed token is popped and becomes its queue's current token (R266, R270). -/
def Tile.consume (t : Tile) (u q : Nat) : Tile :=
  match t.pop u q with
  | (none, t') => t'
  | (some e, t') =>
    let old := t'.helds.map fun h : Held => if h.unit = u && h.queue = q then { h with cur := false } else h
    { t' with
      helds := old ++ [{ id := t'.nextFiring, unit := u, queue := q, tok := e.1, src := e.2.getD spilledSrc
                         cur := true, uses := 0 }]
      nextFiring := t'.nextFiring + 1 }

/-! ## Sequencers (R268 to R272) -/

/-- The counters at a firing as xx_SEQ_POS reports them (R286). -/
def SeqSt.pos (s : SeqSt) : Word := at32 s.c3 24 ||| at32 s.c2 16 ||| at32 s.c1 8 ||| at32 s.c0 0

/-- A queue of the given need level is needed at this counter position (R269). -/
def SeqSt.needs (s : SeqSt) (lvl : Nat) : Bool :=
  match lvl with
  | 1 => true
  | 2 => s.c0 == 0
  | 3 => s.c0 == 0 && s.c1 == 0
  | 4 => s.c0 == 0 && s.c1 == 0 && s.c2 == 0
  | 5 => s.c0 == 0 && s.c1 == 0 && s.c2 == 0 && s.c3 == 0
  | _ => false

/-- An action of the given level happens at this counter position (R269). -/
def SeqSt.acts (s : SeqSt) (lim : Word) (lvl : Nat) : Bool :=
  let l0 := s.c0 == fld lim 0 8
  let l1 := s.c1 == fld lim 8 8
  let l2 := s.c2 == fld lim 16 8
  let l3 := s.c3 == fld lim 24 8
  match lvl with
  | 1 => true
  | 2 => l0
  | 3 => l0 && l1
  | 4 => l0 && l1 && l2
  | 5 => l0 && l1 && l2 && l3
  | _ => false

/-- The counters after a firing, and whether the run ends (R268). -/
def SeqSt.advance (s : SeqSt) (lim : Word) : SeqSt × Bool :=
  if s.c0 < fld lim 0 8 then ({ s with c0 := s.c0 + 1 }, false)
  else if s.c1 < fld lim 8 8 then ({ s with c0 := 0, c1 := s.c1 + 1 }, false)
  else if s.c2 < fld lim 16 8 then ({ s with c0 := 0, c1 := 0, c2 := s.c2 + 1 }, false)
  else if s.c3 < fld lim 24 8 then ({ s with c0 := 0, c1 := 0, c2 := 0, c3 := s.c3 + 1 }, false)
  else ({ s with c0 := 0, c1 := 0, c2 := 0, c3 := 0 }, true)

/-- The need level of queue `q` (R288). -/
def Tile.needLevel (t : Tile) (u q : Nat) : Nat := fld (t.act u 2) (3 * q) 3

/-- The queues needed at a unit's present counter position (R269). -/
def Tile.needed (t : Tile) (u : Nat) : List Nat :=
  (List.range 8).filter fun q => (t.seq u).needs (t.needLevel u q)

/-- The queues a group's unit needs at any level in its active slot (R313); a reserved level needs none (R14, R288). -/
def Tile.everNeeded (t : Tile) (u : Nat) : List Nat :=
  if u < 5 then (List.range 8).filter fun q => 1 ≤ t.needLevel u q && t.needLevel u q ≤ 5
  else if bitOf (t.suCfg (u - 8)) 31 then List.range (fld (t.suCfg (u - 8)) 28 2 + 2) else []

/-- A port of a sequencer is in use: EN and a kind of token (R289). -/
def Tile.outEn (t : Tile) (u p : Nat) : Bool :=
  bitOf (t.act u (42 + p)) 31 && fld (t.act u (42 + p)) 28 3 != 0 && fld (t.act u (42 + p)) 28 3 < 4

/-- Counter `k` of a sequencer. -/
def SeqSt.counter (s : SeqSt) (k : Nat) : Nat :=
  match k with
  | 0 => s.c0 | 1 => s.c1 | 2 => s.c2 | _ => s.c3

/-- The ports that emit at the present counter position (R269, R289). -/
def Tile.emitting (t : Tile) (u : Nat) : List Nat :=
  (List.range 4).filter fun p =>
    let x := t.act u (46 + p)
    t.outEn u p && (t.seq u).acts (t.act u 1) (fld (t.act u (42 + p)) 25 3) &&
      (!bitOf x 31 || (t.seq u).counter (fld x 29 2) == fld x 21 8)

/-- Command words of a unit: fixed, or 7 + NSTG for the VC (R199, R271). -/
def cmdLen (u : Nat) (w0 : Word) : Nat :=
  match u with
  | 0 => 5 | 1 => 4 | 2 => 7 + fld w0 25 3 | 3 => 2 | _ => 6

/-- What TSRC selects of a queue's current token (R271, R287). -/
def tsrcValue (tsrc : Nat) (tok : Option (BitVec 64)) : Nat :=
  match tok with
  | none => 0
  | some tk =>
    match tsrc with
    | 1 => fld tk 20 12
    | 2 => fld tk 8 12 + 1
    | 3 => tokPayload tk
    | 4 => tokAux tk
    | _ => 0

/-- The value of a generator at a firing: template field + T + strides times counters, mod 2^width (R271). -/
def Tile.genValue (t : Tile) (u n : Nat) : Nat :=
  let gw := t.act u (18 + n)
  let sa := t.act u (26 + n)
  let sb := t.act u (34 + n)
  let s := t.seq u
  let width := fld gw 17 5 + 1
  let base := fld (t.act u (4 + fld gw 27 4)) (fld gw 22 5) width
  let tok := (t.current u (fld gw 11 3)).map (·.tok)
  let v : Int := base + tsrcValue (fld gw 14 3) tok + sext (fld sa 0 16) 16 * s.c0 + sext (fld sa 16 16) 16 * s.c1 +
    sext (fld sb 0 16) 16 * s.c2 + sext (fld sb 16 16) 16 * s.c3
  (v % (2 ^ width : Int)).toNat

/-- The command of a firing (R271). -/
def Tile.buildCmd (t : Tile) (u : Nat) : List Word :=
  let w0 := t.act u 4
  let tmpl := (List.range (cmdLen u w0)).map fun k => t.act u (4 + k)
  (List.range 8).foldl (fun ws n =>
    let gw := t.act u (18 + n)
    if bitOf gw 31 then
      ws.modify (fld gw 27 4) fun w => setFld w (fld gw 22 5) (fld gw 17 5 + 1) (t.genValue u n)
    else ws) tmpl

/-- The token a port will emit for this firing (R272); of a generator that is not enabled, ROWGEN takes the value that it would have
(assumption 81). -/
def Tile.emission (t : Tile) (u p : Nat) : Emission :=
  let o := t.act u (42 + p)
  let kind := fld o 28 3
  let aux := if bitOf o 19 then ((t.current u (fld o 16 3)).map fun h : Held => tokAux h.tok).getD 0 else 0
  let vsrc := fld o 20 2
  let val : Nat := if vsrc = 2 then (t.seq u).pos.toNat else 0
  let payload := if kind = 1 then (t.genValue u (fld o 22 3) % 4096) <<< 20 ||| (fld (t.act u (46 + p)) 0 12) <<< 8
    else if kind = 2 then val else min val 3
  { port := p, kind := BitVec.ofNat 4 kind, epoch := (t.group u).epoch, aux := BitVec.ofNat 16 aux
    payload := BitVec.ofNat 32 payload, fromStatus := kind != 1 && vsrc == 1 }

/-- The spool advances of this firing (R274). -/
def Tile.firingAdvs (t : Tile) (u : Nat) : List (Nat × Bool × Nat) :=
  ([54, 55].filter fun k => bitOf (t.act u k) 31 && (t.seq u).acts (t.act u 1) (fld (t.act u k) 27 3)).map fun k =>
    let w := t.act u k
    (fld w 22 5, bitOf w 30, fld w 0 12)

/-- The live counter at a tile-space offset increased by one. -/
def Tile.countLive (t : Tile) (off : Nat) : Tile :=
  { t with live := Map.set trfZero t.live off (satAdd (Map.get trfZero t.live off) 1) }

/-- The tile-space base of the counters of a unit or steering unit, and of its queue counters (R569, R570). -/
def stallBase (u : Nat) : Nat := if u < 5 then unitBase u + Reg.STALL_FIRE else 0x400 + 0x80 * (u - 8)
def starveBase (u : Nat) : Nat := if u < 5 then unitBase u + Reg.Q_STARVE else 0x400 + 0x80 * (u - 8) + 0x10
def fullBase (u : Nat) : Nat := if u < 5 then unitBase u + Reg.Q_FULL else 0x400 + 0x80 * (u - 8) + 0x30

/-- The queues of the units in `p` that hold 16 tokens count a FULL cycle (R284). -/
def Tile.fullCycle (t : Tile) (p : Nat → Bool) : Tile :=
  (t.queues.filter fun e : Nat × Queue => p (e.1 / 8) && 16 ≤ e.2.depth).foldl
    (fun t e => t.countLive (fullBase (e.1 / 8) + 4 * (e.1 % 8))) t

/-- A tile fires nothing while it is frozen, held, waiting for its ready handshake, being released or hemmed (R323, R443,
R462, R463, R478). A freeze waits for the open stitch to end. -/
def Tile.mayFire (t : Tile) : Bool :=
  !((t.freeze.soft || t.freeze.halt || t.freeze.slice) && t.stitch.mode == .idle) && !t.freeze.frozen &&
    !t.freeze.seghold && !t.freeze.handshake && !t.freeze.releasing && !t.hemmed && !t.asleep

/-- The firing rule of a sequencer (R270). -/
def Tile.canFire (t : Tile) (u : UnitC) : Bool :=
  let c := unitCode u
  t.mayFire && (t.seq c).run && !(t.seq c).halted && t.cmdsrc c && bitOf (t.act c 0) 31 &&
    (t.unit u).queue.length < queueEntries u && (t.needed c).all (fun q => t.headFate c q == .consumable) &&
    (t.emitting c).all (fun p => 0 < (t.portSt c p).credits)

/-- Credits reserved at ports for one token each (R265, R270). -/
def Tile.reserve (t : Tile) (u : Nat) (ps : List Nat) : Tile :=
  ps.foldl (fun t p =>
    let x := t.portSt u p
    t.setPortSt u p { x with credits := x.credits - 1, outstanding := x.outstanding + 1 }) t

/-- A run of a group waits for its end: it is named, committed, and switches at the run's end (R313). -/
def Tile.waitsRunEnd (t : Tile) (g : Nat) : Bool :=
  t.stitch.mode == .committed && bitOf t.stitch.pend g && (t.stitch.points.any fun e => e.1 = g && e.2 = .runEnd)

/-- The sequencer's counters after a firing: with REPEAT = 1 the next run starts at once (R268), unless the group switches
at the end of this one (R313). A token governs no firing from the next one that needs its queue on (R266). -/
def Tile.afterFiring (t : Tile) (u : Nat) : Tile :=
  let (s, ended) := ({ t.seq u with fired := true }).advance (t.act u 1)
  if ended then
    let again := bitOf (t.act u 0) 30 && !t.waitsRunEnd (groupOfUnit u)
    (t.setSeq u { s with run := again, fired := false }).endCurrent u
  else
    let t := t.setSeq u s
    { t with helds := t.helds.map fun h : Held => if h.unit = u && (t.needed u).contains h.queue then { h with cur := false } else h }

/-- A firing (R270): needed tokens popped, credits reserved, the command built and accepted, counters advanced. A firing on a
poisoned token issues no command (R448). -/
def Tile.fire (t : Tile) (me : Site) (uc : UnitC) : Tile :=
  let u := unitCode uc
  let t := (t.needed u).foldl (fun t q => t.consume u q) (t.fullCycle fun v => v == u)
  let curs := t.helds.filter fun h : Held => h.unit = u && h.cur
  let poison := curs.any fun h => tokPoison h.tok
  let ids := curs.map (·.id)
  let t := { t with helds := t.helds.map fun h : Held => if h.unit = u && h.cur then { h with uses := h.uses + 1 } else h }
  let f : Firing := { id := t.nextFiring, unit := u, tokens := ids, emits := (t.emitting u).map (t.emission u)
                      advs := t.firingAdvs u, poison := poison, dropped := poison }
  let words := t.buildCmd u
  let t := t.reserve u (t.emitting u)
  let t := { t with firings := t.firings ++ [f], nextFiring := t.nextFiring + 1, prog := true }
  let t := if poison then t.err 1 else t.accept uc words (.seq f.id)
  ((t.countLive (stallBase u)).afterFiring u).release me

/-! ## Emission (R267, R276) -/

/-- What a tile sees around it: its site, and for each side the warp neighbour (R276) or the redirect of R470. -/
structure Env where
  me : Site
  nbr : List (Option Site)
  redirect : List (Option Site)

/-- A token leaves on a port: into a queue of this tile, onto a warp link, or into the weft (R267, R276, R470). On the reserved PATH 0x3,
which only a pattern record stores, nothing is sent (R14, R289; assumption 81). -/
def Tile.emit (t : Tile) (e : Env) (u p : Nat) (tok : BitVec 64) : Tile :=
  let d := t.dstWord u p
  let path := fld d 30 2
  let du := fld d 12 4
  let dq := fld d 9 3
  let src : TokSrc := .seq e.me (BitVec.ofNat 4 u) (BitVec.ofNat 2 p) (BitVec.ofNat 2 path) (t.portSt u p).gen
  let weft := fun (t : Tile) (s : Site) (src : TokSrc) =>
    t.post { src := .tile e.me, dst := .site s, cls := 1, flits := 1
             body := .token (BitVec.ofNat 4 du) (BitVec.ofNat 3 dq) tok src }
  if t.hemmed then t
  else if path = 0 then t.tokenArrive e.me du dq tok src
  else if path = 1 then
    let side := fld d 28 2
    match e.redirect.getD side none with
    | some s => weft t s (.seq e.me (BitVec.ofNat 4 u) (BitVec.ofNat 2 p) 2 (t.portSt u p).gen)
    | none =>
      match e.nbr.getD side none with
      | some _ =>
        { t with warpq := t.warpq ++ [{ side := BitVec.ofNat 2 side, crossed := 0
                                        body := .token (BitVec.ofNat 4 du) (BitVec.ofNat 3 dq) tok src }] }
      | none => (t.flagBit Reg.TC_WV_ERR 4).count Reg.TC_WVDROP_COUNT 1
  else if path = 2 then
    match siteAt (fld d 22 6) (fld d 16 6) with
    | some s => weft t s src
    | none => t
  else t

/-- The tokens of a finished firing (R272): POISON as the completion and the tokens used say; VALUE from the status. -/
def Tile.emitAll (t : Tile) (e : Env) (f : Firing) (poison : Bool) (value : BitVec 16) : Tile :=
  f.emits.foldl (fun t m =>
    let v : Nat := if m.fromStatus then (if m.kind = 3 then min value.toNat 3 else value.toNat) else m.payload.toNat
    t.emit e f.unit m.port (mkToken m.epoch.toNat m.kind.toNat poison m.aux.toNat v)) t

/-- The use of its tokens by a finished firing ends (R266). -/
def Tile.unuse (t : Tile) (me : Site) (f : Firing) : Tile :=
  ({ t with helds := t.helds.map fun h : Held => if h.id ∈ f.tokens then { h with uses := h.uses - 1 } else h
            firings := t.firings.filter fun g : Firing => g.id ≠ f.id }).release me

/-- The reserved credits of a firing that emits nothing return (R273). -/
def Tile.unreserve (t : Tile) (f : Firing) : Tile :=
  f.emits.foldl (fun t m => t.addCredits f.unit m.port 1 (t.portSt f.unit m.port).gen) t

/-! ## Advances of firings (R274, R448) -/

/-- The spool advances of a finished firing (R274): the two ends of one spool are checked as it stood before either (R245). -/
def Tile.applyAdvs (t : Tile) (f : Firing) : Tile :=
  let adv := fun (u : Tile) (a : Nat × Bool × Nat) =>
    if t.advanceOk a.1 a.2.1 a.2.2 then u.advanceTo a.1 a.2.1 a.2.2 else u.flagBit Reg.SP_ERR 4
  match f.advs with
  | [a, b] =>
    if a.1 = b.1 && a.2.1 != b.2.1 then (if a.2.1 then adv (adv t b) a else adv (adv t a) b)
    else (((t.spoolAdvance a.1 a.2.1 a.2.2).1).spoolAdvance b.1 b.2.1 b.2.2).1
  | l => l.foldl (fun t a => (t.spoolAdvance a.1 a.2.1 a.2.2).1) t

/-- A dropped firing at the head of its unit's firings emits its poisoned tokens and applies its advances (R448). -/
def Tile.emitDropped (t : Tile) (e : Env) (u : Nat) : Tile :=
  match t.firings.find? (fun f : Firing => f.unit = u) with
  | some f => if f.dropped then ((t.emitAll e f true 0).applyAdvs f).unuse e.me f else t
  | none => t

/-! ## Steering units (R280 to R282) -/

/-- The token that a steering unit forwards (R282). -/
def forwarded (epoch : Nat) (tok : BitVec 64) (poison : Bool) : BitVec 64 :=
  mkToken epoch (tokKind tok) (tokPoison tok || poison) (tokAux tok) (tokPayload tok)

/-- The selection of a control token: a bad one selects Q1 and poisons (R282). -/
def selection (ctl : BitVec 64) (nin : Nat) : Nat × Bool :=
  let sel := tokPayload ctl % 4
  if tokKind ctl ≠ 3 || tokPoison ctl || nin < sel then (0, true) else (sel, false)

/-- A popped token released at once. -/
def Tile.takeToken (t : Tile) (me : Site) (u q : Nat) : Option (BitVec 64) × Tile :=
  match t.pop u q with
  | (some (tok, src), t) => (some tok, match src with | some s => t.returnCredit me s | none => t)
  | (none, t) => (none, t)

/-- One firing of a steering unit in PAIR mode (R280): with a poisoned token among those it takes, every port emits with POISON = 1 and
a data error is raised (R448). NIN 0x0 is reserved, and a unit that holds it does not fire (R14, R291). -/
def Tile.pairFire (t : Tile) (e : Env) (n : Nat) : Tile :=
  let u := 8 + n
  let cfg := t.suCfg n
  let nin := fld cfg 28 2
  let disc := bitOf cfg 27
  let ok := t.mayFire && bitOf cfg 31 && !bitOf cfg 30 &&
    nin != 0 && (List.range (nin + 2)).all (fun q => t.headFate u q == .consumable) && 0 < (t.portSt u 0).credits &&
    (!disc || 0 < (t.portSt u 1).credits)
  if !ok then t else
  let epoch := (t.group 5).epoch.toNat
  match (t.fullCycle fun v => v == u).takeToken e.me u 0 with
  | (none, t) => t
  | (some ctl, t) =>
    let (sel, bad) := selection ctl nin
    let t := if bad then t.flagBit Reg.TC_WV_ERR 5 else t
    let (toks, t) := (List.range (nin + 1)).foldl (fun (a : List (BitVec 64) × Tile) q =>
      match a.2.takeToken e.me u (q + 1) with
      | (some tok, t) => (a.1 ++ [tok], t)
      | (none, t) => (a.1, t)) ([], t)
    let poison := tokPoison ctl || toks.any tokPoison
    let t := (if poison then t.err 1 else t).reserve u [0]
    let t := t.emit e u 0 (forwarded epoch (toks.getD sel 0) (bad || poison))
    let t := if disc then
        ((List.range (nin + 1)).filter (· ≠ sel)).foldl (fun t q =>
          (t.reserve u [1]).emit e u 1 (forwarded epoch (toks.getD q 0) poison)) t
      else t
    { t with prog := true
             live := (t.countLive (stallBase u)).live }

/-- One firing of a steering unit in MERGE mode (R281, R448). -/
def Tile.mergeFire (t : Tile) (e : Env) (n : Nat) : Tile :=
  let u := 8 + n
  let cfg := t.suCfg n
  let nin := fld cfg 28 2
  if !(t.mayFire && nin != 0 && bitOf cfg 31 && bitOf cfg 30 && t.headFate u 0 == .consumable && 0 < (t.portSt u 0).credits) then t
  else
    match (t.queue u 0).head with
    | none => t
    | some ctl =>
      let (sel, bad) := selection ctl nin
      if t.headFate u (sel + 1) != .consumable then t else
      let t := ((t.fullCycle fun v => v == u).takeToken e.me u 0).2
      match t.takeToken e.me u (sel + 1) with
      | (none, t) => t
      | (some tok, t) =>
        let t := if bad then t.flagBit Reg.TC_WV_ERR 5 else t
        let t := if tokPoison ctl || tokPoison tok then t.err 1 else t
        let t := (t.reserve u [0]).emit e u 0 (forwarded (t.group 5).epoch.toNat tok (bad || tokPoison ctl))
        { t with prog := true
                 live := (t.countLive (stallBase u)).live }

/-! ## Warp neighbours (R20, R275 to R279) -/

/-- The bits of WF_PASS that always latch at a site: its seam-facing registers (R20). -/
def seamMask (n : Nat) : Word :=
  flag32 (siteX n == 24) 3 ||| flag32 (siteX n == 23) 2 ||| flag32 (siteY n == 25) 1 ||| flag32 (siteY n == 24) 0

/-- An image word as a site stores it: the bits of group WF that always latch at a seam are zero (R20). -/
def seamWord (n : Site) (g : Nat) (w : Word) : Word := if g = 7 then w &&& ~~~(seamMask n.val) else w

/-- The pass bits of a site: WF_PASS without the registers that always latch (R20, R292). -/
def Tile.passBits (t : Tile) (n : Nat) : Word := t.act 7 0 &&& ~~~(seamMask n)

/-- The WF_PASS bit of traffic sent on a side: 0 −Y, 1 +X, 2 +Y, 3 −X (R215, R292). -/
def passBit (side : Nat) : Nat :=
  match side with
  | 0 => 0 | 1 => 3 | 2 => 1 | _ => 2

/-- The next site on a side. -/
def stepSide (n : Site) (side : Nat) : Option Site :=
  match side with
  | 0 => if siteY n.val = 0 then none else siteAt (siteX n.val) (siteY n.val - 1)
  | 1 => siteAt (siteX n.val + 1) (siteY n.val)
  | 2 => siteAt (siteX n.val) (siteY n.val + 1)
  | _ => if siteX n.val = 0 then none else siteAt (siteX n.val - 1) (siteY n.val)

/-- The first tile along a side whose register latches, within `fuel` sites; a fenced site ends the search (R276). -/
def State.findNbr (s : State) (side : Nat) : Nat → Site → Option Site
  | 0, _ => none
  | fuel + 1, n =>
    match stepSide n side with
    | none => none
    | some m =>
      if s.steward.site m.val = 0 then none
      else if bitOf ((s.tile m).passBits m.val) (passBit side) then s.findNbr side fuel m
      else some m

/-- The warp neighbour of a tile on a side; a tile whose own register passes that direction has none (R276). -/
def State.warpNbr (s : State) (n : Site) (side : Nat) : Option Site :=
  if bitOf ((s.tile n).passBits n.val) (passBit side) then none else s.findNbr side 50 n

/-- The redirect of a side under R470. -/
def Tile.redirect (t : Tile) (side : Nat) : Option Site :=
  let w := t.reg (if side < 2 then Reg.WF_WREDIR0 else Reg.WF_WREDIR1)
  let (v, n) := if side % 2 = 1 then (bitOf w 31, fld w 16 12) else (bitOf w 15, fld w 0 12)
  if v then (if h : n < 2400 then some ⟨n, h⟩ else none) else none

def State.env (s : State) (n : Site) : Env :=
  { me := n, nbr := [0, 1, 2, 3].map (s.warpNbr n), redirect := [0, 1, 2, 3].map (s.tile n).redirect }

/-! ## Counters of cycles in which nothing fires (R284) -/

/-- One cycle in which a unit waits for its queues: IN, and STARVE of each that lacks a consumable token. -/
def Tile.starved (t : Tile) (u off : Nat) (lacking : List Nat) : Tile :=
  lacking.foldl (fun t q => t.countLive (starveBase u + 4 * q)) (t.countLive (stallBase u + off))

/-- A sequencer's cycle without a firing, frozen or not: CMD, IN, or else OUT (R284). -/
def Tile.seqCycle (t : Tile) (uc : UnitC) : Tile :=
  let u := unitCode uc
  let x := t.seq u
  if !t.hemmed && x.run && !x.halted && t.cmdsrc u && bitOf (t.act u 0) 31 then
    let lacking := (t.needed u).filter fun q => t.headFate u q != .consumable
    if queueEntries uc ≤ (t.unit uc).queue.length then t.countLive (stallBase u + 4)
    else if !lacking.isEmpty then t.starved u 8 lacking
    else t.countLive (stallBase u + 12)
  else t

/-- The queues that a steering unit needs now (R280, R281). -/
def Tile.suNeeds (t : Tile) (n : Nat) : List Nat :=
  let cfg := t.suCfg n
  let nin := fld cfg 28 2
  if !bitOf cfg 30 then List.range (nin + 2)
  else if t.headFate (8 + n) 0 != .consumable then [0]
  else match (t.queue (8 + n) 0).head with
    | some ctl => [0, (selection ctl nin).1 + 1]
    | none => [0]

/-- A steering unit's cycle without a firing (R284). -/
def Tile.suCycle (t : Tile) (n : Nat) : Tile :=
  if !t.hemmed && bitOf (t.suCfg n) 31 then
    let lacking := (t.suNeeds n).filter fun q => t.headFate (8 + n) q != .consumable
    if !lacking.isEmpty then t.starved (8 + n) 4 lacking else t.countLive (stallBase (8 + n) + 8)
  else t

/-- The counters of one tile cycle in which nothing fires (R284). -/
def Tile.idleCycle (t : Tile) : Tile :=
  let t := t.fullCycle fun _ => true
  let t := [UnitC.mu, .la, .vc, .sp, .sh].foldl Tile.seqCycle t
  [0, 1, 2, 3].foldl Tile.suCycle t

end Sys2Proof.Machine
end

