-- ==== Sys2Proof/Machine/Scratch.lean ====
section
/-! DEFINITION. The scratchpad's own commands (R213, R214), write-back and patrol (R238, R240), bank gating (R250, R251), and
the rows that arrive from other tiles (R221, R244, R337, R344). -/

namespace Sys2Proof.Machine

/-! ## SP commands (R213, R214) -/

def spRow (c : Cmd) : Nat := fld (c.w 0) 12 12
def spArg (c : Cmd) : Nat := fld (c.w 0) 0 12

/-- An SP command is malformed (R214). -/
def spMalformed (c : Cmd) : Bool :=
  !c.verOk || match c.op with
  | 1 => 4095 < spRow c + spArg c
  | 2 => 127 < spArg c
  | 3 => 4095 < spRow c + spArg c || c.w 1 != 0
  | 4 => spRow c != 0 || spArg c == 0 || !zeroBits (c.w 1) 0 26
  | _ => true

/-- Whole rows written with one 32-bit value, in increasing order (R214). -/
def Tile.fillRows (t : Tile) (me : Site) (c : Cmd) (v : Word) : Tile :=
  let n := spArg c + 1
  let row := (List.replicate 128 (leBytes 4 v.toNat)).flatten
  let t := (upto (spRow c) n).foldl (fun t r => t.writeRow me r 0 row false 4) t
  t.begin .sp { cmd := c, writes := [(spRow c, n)] }

/-- One word of a row written under a byte mask (R214). -/
def Tile.spPoke (t : Tile) (me : Site) (c : Cmd) : Tile :=
  (t.writeRow me (spRow c) (4 * spArg c) (leBytes 4 (c.w 1).toNat) false 4).begin .sp
    { cmd := c, writes := [(spRow c, 1)] }

/-- A spool pointer advanced, or the command refused (R214, R243). -/
def Tile.spAdv (t : Tile) (c : Cmd) : Tile :=
  let (t, ok) := t.spoolAdvance (fld (c.w 1) 27 5) (bitOf (c.w 1) 26) (spArg c)
  t.begin .sp { cmd := c, refused := !ok }

def execFill (site : Site) (ph : Phys) (s : State) : Host.Outcome State Fault Refusal :=
  live s fun s => s.onUnits site fun t =>
    t.startOp .sp 1 spMalformed (fun _ => true) fun c => (t.phys ph).fillRows site c (c.w 1)

def execPoke (site : Site) (ph : Phys) (s : State) : Host.Outcome State Fault Refusal :=
  live s fun s => s.onUnits site fun t =>
    t.startOp .sp 2 spMalformed (fun _ => true) fun c => (t.phys ph).spPoke site c

def execScrub (site : Site) (ph : Phys) (s : State) : Host.Outcome State Fault Refusal :=
  live s fun s => s.onUnits site fun t =>
    t.startOp .sp 3 spMalformed (fun _ => true) fun c => (t.phys ph).fillRows site c 0

def execSpadv (site : Site) (s : State) : Host.Outcome State Fault Refusal :=
  live s fun s => s.onUnits site fun t => t.startOp .sp 4 spMalformed (fun _ => true) t.spAdv

/-! ## Write-back and patrol (R238, R240) -/

/-- The oldest corrected word is written back with fresh check bits (R238). -/
def Tile.writeback (t : Tile) : Tile :=
  match t.sp.writeback with
  | w :: ws =>
    t.onSp fun s =>
      { s with writeback := ws
               bad := if Map.get noBad s.bad w = some .ce then Map.drop s.bad w else s.bad }
  | [] => t

def execEccWriteback (site : Site) (s : State) : Host.Outcome State Fault Refusal :=
  live s fun s => s.onUnits site Tile.writeback

/-- The next row for the patrol from row `r` on, skipping gated banks; none where every bank is gated (R240). -/
def Tile.patrolRow (t : Tile) (r : Nat) : Option Nat :=
  (List.range 17).findSome? fun k =>
    let b := (bankOf r + k) % 16
    if t.gated b then none else some (if k = 0 then r else 256 * b)

/-- One patrol read (R240, R252). -/
def Tile.patrolRead (t : Tile) (me : Site) : Tile :=
  if bitOf (t.reg Reg.SP_CFG) 1 then
    match t.patrolRow t.sp.patrol.toNat with
    | some r =>
      let t := if t.waking' (bankOf r) then (t.flagBit Reg.SP_ERR 7).err 1 else t.checkRow me r
      t.onSp fun s => { s with patrol := BitVec.ofNat 12 (r + 1) }
    | none => t
  else t

def execPatrolScrub (site : Site) (ph : Phys) (s : State) : Host.Outcome State Fault Refusal :=
  live s fun s => s.onUnits site fun t => if bitOf (t.reg Reg.SP_CFG) 1 then (t.phys ph).patrolRead site else t

/-! ## Bank gating (R250, R251) -/

/-- Rows `a` to `b - 1` made zero with fresh check bits, POISON clear. -/
def Tile.wipeRows (t : Tile) (a b : Nat) : Tile :=
  t.onSp fun s =>
    { s with mem := Memory.zero s.mem (512 * a) (512 * b), poison := Map.clear s.poison a b
             bad := Map.clear s.bad (64 * a) (64 * b)
             writeback := s.writeback.filter fun w => w / 64 < a || b ≤ w / 64 }

/-- A write to SP_PWR.GATE; a 0 to the bit of a gated bank wakes it (R250, R251). -/
def Tile.setGate (t : Tile) (g : BitVec 16) : Tile :=
  let t := t.setReg Reg.SP_PWR (g.setWidth 32)
  (List.range 16).foldl (fun t b => if t.gated b && !bitOf g b then t.wakeBank b else t) t

def execBankGate (site : Site) (gate : BitVec 16) (s : State) : Host.Outcome State Fault Refusal :=
  live s fun s => if s.powered site then s.onTile site fun t => t.setGate gate else s

/-! ## Arriving rows (R221, R244) -/

/-- The enabled spool with FLOWCTL = 1 that a row lies in (R244). -/
def Tile.flowSpool (t : Tile) (row : Nat) : Option Nat :=
  (List.range 32).find? fun n =>
    let c := t.spoolCfg n
    bitOf c 31 && bitOf c 30 && spoolBase c ≤ row && row < spoolBase c + spoolSize c

/-- A tile takes incoming transfers: its site is enabled, its compute section is not hemmed, and it is not asleep, waking or
being scrubbed (R220, R253, R462, R477). -/
def Tile.takesRows (t : Tile) (siteState : BitVec 2) : Bool :=
  siteState == 1 && !t.hemmed && !t.asleep && !t.waking && !t.scrubbing

/-- A tile takes the rows of transfers that it has admitted, also while a kill scrub runs (R253). -/
def Tile.takesAdmitted (t : Tile) (siteState : BitVec 2) : Bool := siteState == 1 && !t.hemmed && !t.asleep && !t.waking

/-- A transfer of which a row has been seen. -/
def Tile.knows (t : Tile) (src : Site) (tag : Nat) : Bool :=
  (t.sp.inX.any fun e => e.src = src && e.tag = tag) ||
    t.sp.spools.any fun e => e.2.xfers.any fun x => x.src = src && x.tag = tag

/-- The first row of an incoming transfer is checked (R244). -/
def Tile.incoming (t : Tile) (takes : Bool) (x : Transfer) : Tile :=
  let note := fun (t : Tile) (ok : Bool) => t.onSp fun s => 
    { s with inX := s.inX ++ [{ src := x.src, tag := x.tag, ok := ok, row := x.row.toNat, left := x.n.toNat }] }
  if t.knows x.src x.tag then t
  else if !takes then note t false
  else match t.flowSpool x.row.toNat with
    | none => note t true
    | some n =>
      let cfg := t.spoolCfg n
      let p := t.spool n
      let size := spoolSize cfg
      let off := (p.tail + p.rsv) % size
      if x.row.toNat = spoolBase cfg + off && x.n.toNat + t.spoolCount n + p.rsv ≤ size then
        t.setSpool n { p with
          rsv := p.rsv + x.n.toNat
          xfers := p.xfers ++ [{ src := x.src, tag := x.tag, row := x.row.toNat, n := x.n.toNat, off := off, past := 0, ended := false }] }
      else note (t.flagBit Reg.SP_ERR 4) false

/-- The rows of a transfer that have been sent to a site and not been taken. -/
def State.sentRows (s : State) (site : Site) (x : Transfer) : List DataRow :=
  let mine := fun d : DataRow => d.src = x.src && d.tag = x.tag
  ((s.net.filterMap fun p => match p.dst, p.body with
    | .site m, .data d => if m = site && mine d then some d else none
    | _, _ => none) ++ (s.tile site).sp.arrived.filter mine)

/-- A transfer as its first row names it: that row, and the rows that it names (R244); one of which no row is known to the model is
taken as it is given (assumption 8). -/
def State.named (s : State) (site : Site) (x : Transfer) : Transfer :=
  match s.sentRows site x with
  | [] => x
  | d :: ds =>
    let f := ds.foldl (fun a b : DataRow => if a.rem.toNat < b.rem.toNat then b else a) d
    { x with row := f.row, n := BitVec.ofNat 13 (f.rem.toNat + 1) }

def execIncomingTransfer (site : Site) (x : Transfer) (s : State) : Host.Outcome State Fault Refusal :=
  live s fun s => s.onTile site fun t => t.incoming (t.takesRows (s.steward.site site.val)) (s.named site x)

/-- The tail passes every transfer at the front of a spool that has ended (R244). -/
def Spool.finish (size : Nat) : List InXfer → Spool → Spool
  | [], p => { p with xfers := [] }
  | x :: xs, p =>
    if x.ended then
      let tail := (p.tail + x.n) % size
      Spool.finish size xs { p with tail := tail, rsv := p.rsv - x.n, full := p.full || (x.n != 0 && tail == p.head) }
    else { p with xfers := x :: xs }

/-- The spool and the transfer that a row belongs to. -/
def Tile.spoolOf (t : Tile) (d : DataRow) : Option (Nat × InXfer) :=
  t.sp.spools.findSome? fun e => (e.2.xfers.find? fun x => x.src = d.src && x.tag = d.tag).map fun x => (e.1, x)

/-- The answer to a row: an ACK on VC0, or over the wires of a warp link (R275, R337). -/
def Tile.answerRow (t : Tile) (me : Site) (d : DataRow) (warp ok : Bool) : Tile :=
  let st : BitVec 2 := if ok then 0 else 1
  if warp then { t with wires := t.wires ++ [(d.src, .row me d.row st)] }
  else t.post { src := .tile me, dst := .site d.src, cls := 0, flits := 1, body := .ack d.row st }

/-- A row of a transfer has been written, refused or skipped (R218, R237, R244): the transfer goes on, and at its last row its spool's tail
advances; a row that is not skipped is answered. -/
def Tile.rowEnds (t : Tile) (me : Site) (d : DataRow) (warp ok : Bool) : Tile :=
  let t := match t.spoolOf d with
    | some (n, _) =>
      let p := t.spool n
      let xs := p.xfers.map fun y =>
        if y.src = d.src && y.tag = d.tag then { y with past := d.row.toNat + 1 - y.row, ended := d.rem = 0 } else y
      t.setSpool n (if d.rem = 0 then Spool.finish (spoolSize (t.spoolCfg n)) xs p else { p with xfers := xs })
    | none => t.onSp fun s => { s with
        inX := if d.rem = 0 then s.inX.filter fun e => !(e.src = d.src && e.tag = d.tag)
          else s.inX.map fun e => if e.src = d.src && e.tag = d.tag then { e with row := d.row.toNat + 1, left := d.rem.toNat } else e }
  if d.skip then t else t.answerRow me d warp ok

/-- What follows a write that is done: of an arrived row, the answer goes out and the transfer goes on (R237, R244); a remote write is
answered (R419). -/
def Tile.writeEnds (t : Tile) (me : Site) (h : HeldWrite) : Tile :=
  let t := match h.came with
    | some (d, warp) => t.rowEnds me d warp true
    | none => t
  match h.reply with
  | some p => t.post p
  | none => t

/-- A write that waited for a bank's wake, or that may have to: it ends once it is applied (R251). -/
def Tile.applyWrite (t : Tile) (me : Site) (h : HeldWrite) : Tile :=
  let n := t.sp.held.length
  let t := t.writeRow me h.row h.off h.data h.poison h.eng
  if t.sp.held.length = n then t.writeEnds me h
  else t.onSp fun s => { s with held := s.held.take n ++ (s.held.drop n).map fun x => { x with came := h.came, reply := h.reply } }

/-- An arrived row written by SH-IN at a row of the scratchpad (R244). -/
def Tile.writeIn (t : Tile) (me : Site) (row : Nat) (d : DataRow) (warp : Bool) : Tile :=
  t.applyWrite me { eng := 3, row := row, off := d.off.toNat, data := d.data, poison := d.poison, came := some (d, warp) }

/-- An arrived row is written where its transfer puts it, or refused, and answered (R221, R244, R344); a commit that has changed the spool
since the check changes where its later rows go (assumption 80). A row of a transfer whose first row has not been checked waits. A skipped
row writes nothing and has no answer (R218). -/
def Tile.rowArrives (t : Tile) (me : Site) (takes : Bool) (d : DataRow) : Tile :=
  let warp := d ∈ t.sp.arrived
  let t := t.onSp fun s => { s with arrived := s.arrived.erase d }
  let enter := fun (t : Tile) (ok : Bool) (row : Nat) => if ok && !d.skip then t.writeIn me row d warp else t.rowEnds me d warp ok
  match t.spoolOf d with
  | some (n, x) => enter t takes (spoolBase (t.spoolCfg n) + (x.off + (d.row.toNat - x.row)) % spoolSize (t.spoolCfg n))
  | none =>
    match t.sp.inX.find? fun e => e.src = d.src && e.tag = d.tag with
    | some e => enter t (e.ok && takes) d.row.toNat
    | none => t

/-- A bank's wake ends: its rows are zero, and the writes that waited for it are applied, each engine's in order (R251). -/
def Tile.endWake (t : Tile) (me : Site) (b : Nat) : Tile :=
  if t.waking' b then
    let t := t.setReg Reg.SP_PWR_STATE (t.reg Reg.SP_PWR_STATE &&& ~~~(at32 1 (16 + b)))
    let t := t.wipeRows (256 * b) (256 * b + 256)
    t.sp.held.foldl (fun t h => t.applyWrite me h) (t.onSp fun s => { s with held := [] })
  else t

def execBankWakeEnd (site : Site) (bank : Fin 16) (s : State) : Host.Outcome State Fault Refusal :=
  live s fun s => s.onUnits site fun t => t.endWake site bank.val

def execDataRowWrite (site : Site) (d : DataRow) (ph : Phys) (s : State) : Host.Outcome State Fault Refusal :=
  live s fun s =>
    let t := s.tile site
    if t.knows d.src d.tag && !s.bankTested site d.row.toNat then
      s.receive (fun p => !(d ∈ t.sp.arrived) && p.dst = .site site && p.body = .data d) fun s =>
        s.onTile site fun t => (t.phys ph).rowArrives site (t.takesAdmitted (s.steward.site site.val)) d
    else s

end Sys2Proof.Machine
end

