-- ==== Sys2Proof/Machine/Shuttle.lean ====
section
/-! DEFINITION. The shuttle (R215 to R221), the twin converter (R55 to R62), and the tile's side of reach (R406, R407). -/

namespace Sys2Proof.Machine

/-! ## Fields (R215) -/

def shSfmt (c : Cmd) : Nat := fld (c.w 0) 20 4
def shDfmt (c : Cmd) : Nat := fld (c.w 0) 16 4
def shKind (c : Cmd) : Nat := fld (c.w 0) 14 2
def shVch (c : Cmd) : Nat := fld (c.w 0) 12 2
def shBulk (c : Cmd) : Bool := bitOf (c.w 0) 9
def shPlane (c : Cmd) : Bool := bitOf (c.w 0) 8
def shPlanes (c : Cmd) : Nat := if bitOf (c.w 0) 7 then 3 else 2
def shShift (c : Cmd) : Int := sext (fld (c.w 0) 0 7) 7
def shLrow (c : Cmd) : Nat := fld (c.w 1) 20 12
def shLscl (c : Cmd) : Nat := fld (c.w 1) 8 12
def shCount (c : Cmd) : Nat := fld (c.w 2) 10 22
def shRrow (c : Cmd) : Nat := if shKind c = 0 then fld (c.w 3) 20 12 else fld (c.w 3) 8 12
def shRscl (c : Cmd) : Nat := if shKind c = 0 then fld (c.w 3) 8 12 else fld (c.w 4) 20 12
def shSite (c : Cmd) : Option Site := siteAt (fld (c.w 3) 26 6) (fld (c.w 3) 20 6)
def shSide (c : Cmd) : Nat := fld (c.w 3) 30 2
def shGaddr (c : Cmd) : Nat := (c.w 3).toNat + 2 ^ 32 * fld (c.w 4) 0 28
def shIdxrow (c : Cmd) : Nat := fld (c.w 5) 20 12
def shIrows (c : Cmd) : Nat := fld (c.w 5) 8 12

/-- Source and destination formats are the same: the data move unchanged (R217). -/
def shSame (c : Cmd) : Bool := shSfmt c == shDfmt c

/-- Blocks of 32 elements, the last perhaps short. -/
def shBlocks (c : Cmd) : Nat := (shCount c + 31) / 32

/-- Bytes that `n` elements of a format take. -/
def elemsBytes (fmt n : Nat) : Nat := (n * fmtBits fmt + 7) / 8

/-- Bytes of the destination's element plane of a conversion: whole blocks of an MX format, whole three-row groups of a 6-bit
one (R58). -/
def packBytes (fmt count : Nat) : Nat :=
  let nb := (count + 31) / 32
  if fmtSix fmt then 1536 * ((nb + 63) / 64) else if fmtMx fmt then blockBytes fmt * nb else elemsBytes fmt count

/-- Bytes that an unchanged move carries: of the element plane, or of the scale plane (R217). -/
def sameBytes (c : Cmd) : Nat := if shPlane c then shBlocks c else elemsBytes (shSfmt c) (shCount c)

/-! ## Rows of a command -/

/-- A range of rows, the first and one past the last. -/
abbrev RowRange := Nat × Nat

/-- Rows of `n` bytes from row `a` on. -/
def byteRows (a n : Nat) : RowRange := (a, a + (n + 511) / 512)

/-- Rows of `n` bytes of a format's plane from row `a` on, whole groups of a 6-bit one (R43). -/
def fmtRows (fmt a n : Nat) : RowRange := (a, planeEnd fmt a n)

/-- Local rows that a command reads; of a GATHER, as R221 counts them. -/
def shReads (c : Cmd) : List RowRange :=
  match c.op with
  | 4 => [(shIdxrow c, 4096), (shLrow c, 4096)]
  | 2 => []
  | 5 => []
  | _ =>
    if shPlane c then [byteRows (shLscl c) (shBlocks c)]
    else fmtRows (shSfmt c) (shLrow c) (elemsBytes (shSfmt c) (shCount c)) ::
      (if fmtMx (shSfmt c) && !shSame c then [byteRows (shLscl c) (shBlocks c)] else [])

/-- Skew lines of a SKEW (R70). -/
def skewRows (c : Cmd) : Nat := (shCount c / 32 + 31 + linesPerRow (shDfmt c) - 1) / linesPerRow (shDfmt c)

/-- Destination rows that a command names in a scratchpad. -/
def shDest (c : Cmd) : List RowRange :=
  let scl := fun r => if fmtMx (shDfmt c) && !shSame c then [byteRows r (shBlocks c)] else []
  let dense := fun a r =>
    if shPlane c then [byteRows r (shBlocks c)]
    else if shSame c then fmtRows (shDfmt c) a (sameBytes c) :: []
    else fmtRows (shDfmt c) a (packBytes (shDfmt c) (shCount c)) :: scl r
  match c.op with
  | 2 => dense (shLrow c) (shLscl c)
  | 3 => (shRrow c, shRrow c + skewRows c) :: scl (shRscl c)
  | 4 => [(shRrow c, shRrow c + shCount c * shIrows c)]
  | 6 => (List.range (shPlanes c)).map fun p => byteRows (shRrow c + p * shIrows c) (2 * shCount c)
  | _ => if shKind c = 3 then [] else dense (shRrow c) (shRscl c)

/-- Local rows that a command writes. -/
def shWrites (c : Cmd) : List RowRange := if c.op == 2 || shKind c = 0 then shDest c else []

/-! ## Malformed commands (R220) -/

/-- A pair that the twin converter packs or unpacks (R55, R56). -/
def cvtPair (s d : Nat) : Bool :=
  if d == 1 then s == 2 || s == 3 || fmtMx s
  else if d == 2 then s == 1 || s == 3 || fmtMx s
  else (d == 3 || fmtMx d) && (s == 1 || s == 2)

/-- The formats of a command are allowed (R216, R217, R219, R220). -/
def shFormatsOk (c : Cmd) : Bool :=
  let s := shSfmt c
  let d := shDfmt c
  fmtValid d && (if c.op = 5 then s == 0 else fmtValid s) &&
    match c.op with
    | 4 => s == d
    | 5 => true
    | 6 => s == 1 && d == 2
    | 3 => (s == d || cvtPair s d) && d != 1
    | _ => s == d || (cvtPair s d && !(shKind c == 3 && fmtMx (if c.op = 1 then d else s)))

/-- The reserved bits of the words are zero (R215). -/
def shReservedOk (c : Cmd) : Bool :=
  zeroBits (c.w 1) 0 8 && zeroBits (c.w 2) 0 10 && zeroBits (c.w 5) 0 8 &&
    match shKind c with
    | 0 => zeroBits (c.w 3) 0 8 && c.w 4 == 0
    | 1 => zeroBits (c.w 3) 0 8 && zeroBits (c.w 4) 0 20
    | 2 => zeroBits (c.w 3) 20 10 && zeroBits (c.w 3) 0 8 && zeroBits (c.w 4) 0 20
    | _ => zeroBits (c.w 4) 28 4

/-- The remote kinds that an operation allows (R216). -/
def shKindOk (c : Cmd) : Bool :=
  match c.op with
  | 1 => true
  | 2 => shKind c == 3
  | 6 => shKind c == 0
  | _ => shKind c != 3

/-- The other fields of a command are allowed (R215, R220). -/
def shFieldsOk (c : Cmd) : Bool :=
  zeroBits (c.w 0) 10 2 &&
    (if shKind c == 1 || shKind c == 3 then shVch c == 1 || shVch c == 2 else shVch c == 0) &&
    (shShift c == 0 || (shDfmt c == 3 && !shSame c)) &&
    (!shPlane c || ((c.op == 1 || c.op == 2) && shSame c && fmtMx (shSfmt c))) &&
    (!bitOf (c.w 0) 7 || c.op == 6) &&
    (if c.op == 4 || c.op == 6 then shIrows c != 0 else shIrows c == 0) && (c.op == 4 || shIdxrow c == 0) &&
    (shKind c != 1 || (shSite c).isSome)

/-- COUNT is in its range (R215, R219, R220). -/
def shCountOk (c : Cmd) : Bool :=
  1 ≤ shCount c && shCount c ≤ (if c.op = 4 then 4096 else 2097152) &&
    (!(c.op == 3 || c.op == 5) || shCount c % 32 == 0)

/-- A shuttle command is malformed (R220). -/
def shMalformed (c : Cmd) : Bool :=
  !(c.verOk && 1 ≤ c.op && c.op ≤ 6 && shFormatsOk c && shReservedOk c && shKindOk c && shFieldsOk c && shCountOk c &&
    (shDest c).all (fun r => r.2 ≤ 4096) &&
    (if c.op = 4 then shIdxrow c + (4 * shCount c + 511) / 512 ≤ 4096 else (shReads c).all fun r => r.2 ≤ 4096))

/-! ## Starting (R221) -/

def rangesMeet (a b : List RowRange) : Bool := a.any fun x => b.any fun y => x.1 < y.2 && y.1 < x.2

/-- A command may start: fewer than four in progress, and none of its local rows is written by one in progress, nor does it
write rows that one in progress reads (R221). -/
def Tile.shReady (t : Tile) (c : Cmd) : Bool :=
  let going := (t.unit .sh).running.filter fun r => !r.malformed
  going.length < 4 && going.all fun r =>
    !rangesMeet (shReads c ++ shWrites c) (shWrites r.cmd) && !rangesMeet (shWrites c) (shReads r.cmd)

/-! ## The twin converter (R55 to R58, R62) -/

/-- Where a command's source bytes come from: bytes of the element and scale planes, and whether each came poisoned. -/
structure ByteSrc where
  elem : Nat → Nat
  scale : Nat → Nat
  badElem : Nat → Bool
  badScale : Nat → Bool

/-- A block of 32 elements as it is written: element codes by plane, scale, poison and events (R60). -/
structure CvtBlock where
  codes : List (List Nat)
  scale : Nat
  bad : Bool
  flags : Word
deriving DecidableEq, Repr

/-- The BF16 parts of an FP32 value (R62). -/
def splitVal (planes : Nat) (v : Val) : List Nat :=
  let hi := (encodeElem 2 none v).code
  match v with
  | .nan => hi :: List.replicate (planes - 1) 0
  | .inf _ => hi :: List.replicate (planes - 1) 0
  | v =>
    let hi := if hi % 0x8000 = 0x7F80 then hi - 1 else hi
    let r := v.add (decodeElem 2 hi).neg
    let lo := (encodeElem 2 none r.plain).code
    let lo' := (encodeElem 2 none ((r.add (decodeElem 2 lo).neg).plain)).code
    if planes = 3 then [hi, lo, lo'] else [hi, lo]

/-- Values converted to a format (R55 to R58), with the flags of SH_CVT_FLAGS (R60). -/
def cvtVals (fmt : Nat) (shift : Int) (vals : List Val) : List Nat × Nat × Word :=
  if fmtMx fmt then
    let b := packBlock fmt [] (vals ++ List.replicate (32 - vals.length) .zero)
    (b.codes, b.scale, flag32 b.sat 0 ||| flag32 (b.nanBlk) 1 ||| flag32 b.clamp 3)
  else
    let es := vals.map fun v => encodeElem fmt none (if fmt = 3 then v.scale shift else v)
    (es.map fun e => if e.lost then 0 else e.code, 0, flag32 (es.any (·.sat)) 0 ||| flag32 (es.any (·.lost)) 2)

/-- Block `b` of a command's source, converted as the command says. -/
def shBlock (c : Cmd) (x : ByteSrc) (b : Nat) : CvtBlock :=
  let s := shSfmt c
  let n := min 32 (shCount c - 32 * b)
  let els := (List.range n).map fun i => elemAt s x.elem (32 * b + i)
  let lo := elemByte s (32 * b)
  let badE := (List.range (elemsBytes s n)).any fun i => x.badElem (lo + i)
  if shSame c then { codes := [els], scale := 0, bad := badE, flags := 0 }
  else
    let mx := fmtMx s
    let vals := els.map fun e => if mx then scaled (x.scale b) (decodeElem s e) else decodeElem s e
    let bad := badE || (mx && x.badScale b)
    if c.op = 6 then
      let ps := vals.map (splitVal (shPlanes c))
      { codes := (List.range (shPlanes c)).map fun p => ps.map fun l => l.getD p 0, scale := 0, bad := bad, flags := 0 }
    else
      let (codes, scale, flags) := cvtVals (shDfmt c) (shShift c) vals
      { codes := [codes], scale := scale, bad := bad, flags := flags }

/-- A plane to be written: its bytes from the first byte of its base row on, and the poisoned ranges of them. -/
structure OutPlane where
  row : Nat
  bytes : List Byte
  bad : List (Nat × Nat)
deriving DecidableEq, Repr

/-- The bytes `lo` to `hi - 1` of a plane hold poisoned data. -/
def OutPlane.badIn (p : OutPlane) (lo hi : Nat) : Bool := p.bad.any fun r => r.1 < hi && lo < r.2

/-- The element planes and the scale plane of converted blocks (R57, R58, R62). -/
def blockPlanes (c : Cmd) (row scl : Nat) (bs : List CvtBlock) : List OutPlane :=
  let d := shDfmt c
  let size := blockBytes d
  let badOf := fun w => (List.range bs.length).filterMap fun b =>
    if (bs.getD b ⟨[], 0, false, 0⟩).bad then some (w * b, w * b + w) else none
  let np := if c.op = 6 then shPlanes c else 1
  let elems := (List.range np).map fun p =>
    let bytes := bs.flatMap fun b => packElems d (b.codes.getD p [])
    { row := row + p * shIrows c, bytes := sliceBytes bytes 0 (packBytes d (shCount c)), bad := badOf size : OutPlane }
  if fmtMx d then elems ++ [{ row := scl, bytes := bs.map fun b => BitVec.ofNat 8 b.scale, bad := badOf 1 }] else elems

/-- The skew lines of blocks: line t holds element k of block t − k in slot k, other slots zero (R70, R71, R216). -/
def skewPlanes (c : Cmd) (bs : List CvtBlock) : List OutPlane :=
  let d := shDfmt c
  let pitch := linePitch d
  let r := bs.length
  let arr := bs.toArray
  let at' := fun i => arr.getD i ⟨[], 0, false, 0⟩
  let line := fun t => sliceBytes (packElems d ((List.range 32).map fun k =>
    if k ≤ t && t - k < r then ((at' (t - k)).codes.getD 0 []).getD k 0 else 0)) 0 pitch
  let bad := (List.range r).filterMap fun b => if (at' b).bad then some (pitch * b, pitch * (b + 32)) else none
  let lines : OutPlane := { row := shRrow c, bytes := (List.range (r + 31)).flatMap line, bad := bad }
  if fmtMx d && !shSame c then
    [lines, { row := shRscl c, bytes := bs.map fun b => BitVec.ofNat 8 b.scale
              bad := (List.range r).filterMap fun b => if (at' b).bad then some (b, b + 1) else none }]
  else [lines]

/-! ## Where the rows go -/

/-- The destination of a command's rows (R215, R216, R276, R470). -/
inductive Sink where
  | here
  | weft (s : Site) (vch : Nat)
  | warp (side : Nat) (s : Site)
  | nowhere
deriving DecidableEq, Repr

/-- The sink of a command as the tile stands; a redirected side goes over the weft on VC1 (R470). -/
def shSink (e : Env) (c : Cmd) : Sink :=
  match shKind c with
  | 0 => .here
  | 1 => match shSite c with
    | some s => .weft s (shVch c)
    | none => .nowhere
  | _ => match e.redirect.getD (shSide c) none with
    | some s => .weft s 1
    | none => match e.nbr.getD (shSide c) none with
      | some s => .warp (shSide c) s
      | none => .nowhere

/-- One row of a transfer: its row, the rows of the transfer still to be sent after it, bytes from byte 0 on, and poison. -/
structure OutRow where
  row : Nat
  rem : Nat
  data : List Byte
  poison : Bool
  skip : Bool := false
deriving DecidableEq, Repr

/-- The engine of a shuttle command: the bulk path, or the slotted one (R230, R233). -/
def shEng (t : Tile) (stamp : Nat) : Nat := if (t.unit .sh).running.any fun r => r.cmd.stamp = stamp && shBulk r.cmd then 7 else 2

/-- One row written or sent for the command with a stamp (R216, R221, R337); with no warp neighbour it is refused (R276). -/
def Tile.sendRow (t : Tile) (me : Site) (sink : Sink) (stamp tag : Nat) (r : OutRow) : Tile :=
  let d : DataRow := { src := me, tag := tag, row := BitVec.ofNat 12 r.row, rem := BitVec.ofNat 12 r.rem, off := 0
                       data := r.data, poison := r.poison, skip := r.skip }
  let wait := fun (t : Tile) (s : Site) =>
    if r.skip then t else t.onRun .sh stamp fun x => { x with left := x.left + 1, acks := x.acks ++ [(s.val, r.row)] }
  match sink with
  | .here =>
    if r.skip then t
    else (t.writeRow me r.row 0 r.data r.poison (shEng t stamp)).onRun .sh stamp fun x => { x with writes := x.writes ++ [(r.row, 1)] }
  | .weft s vch =>
    wait (t.post { src := .tile me, dst := .site s, cls := if vch = 2 then 2 else 1, flits := 8, body := .data d }) s
  | .warp side s =>
    wait { t with warpq := t.warpq ++ [{ side := BitVec.ofNat 2 side, crossed := 0, body := .data d }] } s
  | .nowhere => (t.flagBit Reg.TC_WV_ERR 4).onRun .sh stamp fun x => { x with refused := true }

/-- The first transfer tag of the next command of a tile: each command has four, one for each of its planes. -/
def Tile.newTag (t : Tile) : Nat × Tile := (4 * t.sh.nextXfer, { t with sh := { t.sh with nextXfer := t.sh.nextXfer + 1 } })

/-- The rows of a plane in increasing order, each poisoned if bytes that it carries are (R221, R239). -/
def OutPlane.rows (p : OutPlane) : List OutRow :=
  let n := (p.bytes.length + 511) / 512
  (List.range n).map fun k =>
    { row := p.row + k, rem := n - 1 - k, data := (p.bytes.drop (512 * k)).take 512
      poison := p.badIn (512 * k) (min (512 * k + 512) p.bytes.length) }

/-- Rows sent as one transfer. -/
def Tile.sendRows (t : Tile) (me : Site) (sink : Sink) (stamp tag : Nat) (rows : List OutRow) : Tile :=
  rows.foldl (fun t r => t.sendRow me sink stamp tag r) t

/-- Planes sent in order, each as a transfer of its own (R237, R244; assumption 80). -/
def Tile.sendPlanes (t : Tile) (me : Site) (sink : Sink) (stamp : Nat) (ps : List OutPlane) : Tile :=
  let (tag, t) := t.newTag
  (List.range ps.length).foldl (fun t i => t.sendRows me sink stamp (tag + i) (ps.getD i ⟨0, [], []⟩).rows) t

/-! ## Reach requests (R405 to R407) -/

/-- The port that SH_REACH.PORT names: the home port until the steward changes it (R405). -/
def Tile.reachPort (t : Tile) (me : Site) : PortIx :=
  let w := t.reg Reg.SH_REACH
  let n := if bitOf w 7 then fld w 0 7 else homePort me.val
  if h : n < 96 then ⟨n, h⟩ else 0

/-- Data flits of a reach packet (R407). -/
def reachFlits (addr len : Nat) : Nat := (addr % 64 + len + 63) / 64

/-- The bytes of a request that each of its data flits carries: the first, and the one after the last (R407). -/
def flitSpans (addr len : Nat) : List (Nat × Nat) :=
  (List.range (reachFlits addr len)).map fun k => (64 * k - addr % 64, min len (64 * k + 64 - addr % 64))

/-- One of bytes `lo` to `hi - 1` of a request came in a poisoned flit (R406). -/
def flitsHit (addr len : Nat) (bad : List Bool) (lo hi : Nat) : Bool :=
  ((flitSpans addr len).zip bad).any fun x => x.2 && x.1.1 < hi && lo < x.1.2

/-- The budget class of a tile's reach requests (R357, R361). -/
def ReachUser.cls : ReachUser → Fin 8
  | .cmd _ => 1
  | .scan => 3
  | .darn => 4

/-- The first reach tag from `n` on that is not in use. -/
def Tile.freeTag (t : Tile) : Nat :=
  ((List.range 33).find? fun k =>
    !(t.sh.out.any fun o => o.rtag.toNat = (t.sh.nextTag + k) % 4096)).elim t.sh.nextTag fun k => (t.sh.nextTag + k) % 4096

/-- One reach request sent to the tile's port (R406, R407). -/
def Tile.sendReach (t : Tile) (me : Site) (q : ReachReq) : Tile :=
  let tag := t.freeTag
  let stream := t.reg Reg.TC_STREAM
  let sv := bitOf stream 31
  let h : ReachHdr := { rtag := BitVec.ofNat 12 tag, addr := BitVec.ofNat 60 q.addr, len := BitVec.ofNat 9 (q.len - 1)
                        stream := if sv then BitVec.ofNat 14 (fld stream 0 14) else 0, sv := sv, orig := false }
  let (flits, body) : Nat × PktBody := match q.data with
    | some d => (1 + reachFlits q.addr q.len, .preq h d q.poison)
    | none => (1, .greq h)
  { t.post { src := .tile me, dst := .port (t.reachPort me), cls := q.user.cls, flits := flits, body := body } with
    sh := { t.sh with out := t.sh.out ++ [{ rtag := BitVec.ofNat 12 tag, user := q.user, goff := q.goff, len := q.len }]
                      nextTag := (tag + 1) % 4096 } }

/-- Requests that wait are sent while fewer than 32 are outstanding (R406). -/
def Tile.pumpReach (t : Tile) (me : Site) : Tile :=
  let n := 32 - t.sh.out.length
  let now := t.sh.toSend.take n
  now.foldl (fun t q => t.sendReach me q) { t with sh := { t.sh with toSend := t.sh.toSend.drop n } }

/-- Requests join the line, in increasing address order. -/
def Tile.askReach (t : Tile) (me : Site) (qs : List ReachReq) : Tile :=
  ({ t with sh := { t.sh with toSend := t.sh.toSend ++ qs } }).pumpReach me

/-- The pieces of a global range: offset and length of each, cut at every 512 B boundary (R406). -/
def reachPieces (addr len : Nat) : List (Nat × Nat) :=
  (List.range ((addr % 512 + len + 511) / 512)).map fun k =>
    let lo := max addr (addr / 512 * 512 + 512 * k)
    let hi := min (addr + len) (addr / 512 * 512 + 512 * k + 512)
    (lo - addr, hi - lo)

/-! ## The operations -/

/-- The source bytes of local rows. -/
def localSrc (c : Cmd) (x : Rows) : ByteSrc :=
  { elem := fun i => x.plane (shLrow c) i, scale := fun i => x.plane (shLscl c) i
    badElem := fun i => x.poison (shLrow c + i / 512), badScale := fun i => x.poison (shLscl c + i / 512) }

/-- The bytes of an unchanged move from local rows. -/
def samePlane (c : Cmd) (x : Rows) (row : Nat) : OutPlane :=
  let a := if shPlane c then shLscl c else shLrow c
  let n := sameBytes c
  { row := row, bytes := (List.range n).map fun i => BitVec.ofNat 8 (x.plane a i)
    bad := (List.range ((n + 511) / 512)).filterMap fun k =>
      if x.poison (a + k) then some (512 * k, 512 * k + 512) else none }

/-- The events of conversions are flagged; NANLOSS raises a numeric error and makes the status DATAERR (R44, R60, R206). -/
def Tile.cvtFlags (t : Tile) (stamp : Nat) (f : Word) : Tile :=
  let t := if f = 0 then t else t.flag Reg.SH_CVT_FLAGS f
  if bitOf f 2 then
    let first := !(t.unit .sh).running.any fun r => r.cmd.stamp = stamp && r.numeric
    (if first then t.err 2 else t).onRun .sh stamp fun r => { r with dataerr := true, numeric := true }
  else t

/-- A shuttle command starts: its rows are read, and it joins the commands in progress with the status that its reads give
(R206, R235, R252). -/
def Tile.shBegin (t : Tile) (me : Site) (c : Cmd) (ph : Phys) (rows : List Nat) : Tile × Rows :=
  let (t, x, gated) := (t.physOf (if shBulk c then 7 else 2) ph).fetch me rows
  let conf := shBulk c && ph.conf.any fun k => (fixConflict k).any fun k => confHas k 7
  let t := if conf then t.flagBit Reg.SH_ERR 1 else t
  let t := if gated then t.err 1 else t
  (t.begin .sh { cmd := c, dataerr := !x.bad.isEmpty, conflict := conf, errRaised := gated }, x)

/-- The rows of ranges in order. -/
def rangeRows (l : List RowRange) : List Nat := l.flatMap fun r => upto r.1 (r.2 - r.1)

/-- The converted blocks of a source. -/
def shConvert (c : Cmd) (x : ByteSrc) : List CvtBlock := (List.range (shBlocks c)).map (shBlock c x)

/-- PUT, SKEW and SPLIT (R216, R217, R219). -/
def Tile.shPut (t : Tile) (e : Env) (c : Cmd) (ph : Phys) : Tile :=
  let (t, x) := t.shBegin e.me c ph (rangeRows (shReads c))
  let moved := c.op = 1 && shSame c
  let bs := if moved then [] else shConvert c (localSrc c x)
  let t := t.cvtFlags c.stamp (bs.foldl (fun a b => a ||| b.flags) 0)
  let row := if shPlane c then shRscl c else shRrow c
  let planes := if moved then [samePlane c x row]
    else if c.op = 3 then skewPlanes c bs else blockPlanes c (shRrow c) (shRscl c) bs
  if shKind c = 3 then
    let p := planes.headD ⟨0, [], []⟩
    let qs := (reachPieces (shGaddr c) p.bytes.length).map fun g =>
      { user := .cmd c.stamp, goff := g.1, addr := (shGaddr c + g.1) % 2 ^ 60, len := g.2
        data := some ((p.bytes.drop g.1).take g.2)
        poison := (flitSpans (shGaddr c + g.1) g.2).map fun x => p.badIn (g.1 + x.1) (g.1 + x.2) : ReachReq }
    (t.onRun .sh c.stamp fun r => { r with left := qs.length }).askReach e.me qs
  else t.sendPlanes e.me (shSink e c) c.stamp planes

/-- The index of a GATHER's item, or none where the item is skipped (R218). -/
def gatherIndex (c : Cmd) (x : Rows) (k : Nat) : Option Nat :=
  let w := elemAt 1 (x.plane (shIdxrow c)) k
  if x.poison (shIdxrow c + 4 * k / 512) then none
  else match decodeElem 1 w with
    | .fin m e =>
      if 0 ≤ m && (if 0 ≤ e then true else m % pow2 (-e) == 0) then
        let v := (if 0 ≤ e then m * pow2 e else m / pow2 (-e)).toNat
        if shLrow c + (v + 1) * shIrows c ≤ 4096 then some v else none
      else none
    | _ => none

/-- GATHER (R218): one transfer of COUNT * IROWS rows, in which the rows of a skipped item are skipped. -/
def Tile.shGather (t : Tile) (e : Env) (c : Cmd) (ph : Phys) : Tile :=
  let ir := shIrows c
  let idxRows := upto (shIdxrow c) ((4 * shCount c + 511) / 512)
  let (t, ix) := t.shBegin e.me c ph idxRows
  let items := (List.range (shCount c)).map (gatherIndex c ix)
  let need := (items.filterMap id).flatMap fun v => upto (shLrow c + v * ir) ir
  let (t, x, gated) := t.fetch e.me need
  let skipped := (items.filter (·.isNone)).length
  let t := if gated && !(t.unit .sh).running.any (fun r => r.cmd.stamp = c.stamp && r.errRaised) then t.err 1 else t
  let t := t.onRun .sh c.stamp fun r =>
    { r with dataerr := r.dataerr || !x.bad.isEmpty || skipped != 0, errRaised := r.errRaised || gated
             value := BitVec.ofNat 16 skipped }
  let rows := (List.range items.length).flatMap fun k =>
    match items.getD k none with
    | some v => (List.range ir).map fun j =>
        { row := shRrow c + k * ir + j, rem := 0
          data := (List.range 512).map fun i => BitVec.ofNat 8 (x.byte (shLrow c + v * ir + j) i)
          poison := x.poison (shLrow c + v * ir + j) : OutRow }
    | none => (List.range ir).map fun j =>
        { row := shRrow c + k * ir + j, rem := 0, data := [], poison := false, skip := true : OutRow }
  let (tag, t) := t.newTag
  t.sendRows e.me (shSink e c) c.stamp tag
    ((List.range rows.length).map fun i => { rows.getD i ⟨0, 0, [], false, false⟩ with rem := rows.length - 1 - i })

/-- GET (R216, R406): one read request for each piece; the rows are written as the answers come. -/
def Tile.shGet (t : Tile) (me : Site) (c : Cmd) (ph : Phys) : Tile :=
  let (t, _) := t.shBegin me c ph []
  let n := if shSame c then sameBytes c else elemsBytes (shSfmt c) (shCount c)
  let qs := (reachPieces (shGaddr c) n).map fun g =>
    { user := .cmd c.stamp, goff := g.1, addr := (shGaddr c + g.1) % 2 ^ 60, len := g.2, data := none
      poison := [] : ReachReq }
  let t := { t with sh := { t.sh with gets := t.sh.gets ++ [({ cmd := c, parts := [], left := qs.length, done := [] } : GetSt)] } }
  (t.onRun .sh c.stamp fun r => { r with left := qs.length }).askReach me qs

/-- EXPFWD (R219) starts; the rows of the export queue come to it one by one. -/
def Tile.shExpfwd (t : Tile) (me : Site) (c : Cmd) (ph : Phys) : Tile :=
  let (t, _) := t.shBegin me c ph []
  let (tag, t) := t.newTag
  let t := { t with sh := { t.sh with exps := t.sh.exps ++
    [({ cmd := c, tag := tag, k := 0, row := 0, buf := [], bufBad := false, scales := [], scaleBad := [] } : ExpSt)] } }
  t.onRun .sh c.stamp fun r => { r with left := shCount c / 32 }

/-- The values of an exported row converted to the destination format, or its codes where the formats agree (R219). -/
def expBlock (c : Cmd) (x : ExpRow) : CvtBlock :=
  let codes := x.vals.map (·.toNat)
  if x.fmt.toNat = shDfmt c then { codes := [codes], scale := 0, bad := x.poison, flags := 0 }
  else
    let (k, s, f) := cvtVals (shDfmt c) (shShift c) (codes.map (decodeElem x.fmt.toNat))
    { codes := [k], scale := s, bad := x.poison, flags := f }

/-- The bytes gathered for an EXPFWD's destination rows are sent: every whole row, and at the end what is left. What remains
after a row was sent is poisoned if `carry` says so. -/
def Tile.expFlush (t : Tile) (e : Env) (x : ExpSt) (last carry : Bool) : Nat → ExpSt × Tile
  | 0 => (x, t)
  | fuel + 1 =>
    if 512 ≤ x.buf.length || (last && !x.buf.isEmpty) then
      let n := (packBytes (shDfmt x.cmd) (shCount x.cmd) + 511) / 512
      let rest := x.buf.drop 512
      let t := t.sendRow e.me (shSink e x.cmd) x.cmd.stamp x.tag
        { row := shRrow x.cmd + x.row, rem := n - 1 - x.row, data := x.buf.take 512, poison := x.bufBad }
      Tile.expFlush t e { x with row := x.row + 1, buf := rest, bufBad := carry && !rest.isEmpty } last carry fuel
    else (x, t)

/-- EXPFWD_ROW (R219): the oldest row of the export queue goes to the oldest EXPFWD in progress. -/
def Tile.expRow (t : Tile) (e : Env) (ph : Phys) : Tile :=
  match t.la.exports, t.sh.exps with
  | r :: rs, x :: xs =>
    let c := x.cmd
    let d := shDfmt c
    let conf := shBulk c && ph.conf.any fun k => (fixConflict k).any fun k => confHas k 7
    let t := t.physOf (if shBulk c then 7 else 2) ph
    let t := if conf then (t.flagBit Reg.SH_ERR 1).onRun .sh c.stamp fun q => { q with conflict := true } else t
    let t := { t with la := { t.la with exports := rs }.enter [] }
    let b := expBlock c r
    let t := t.cvtFlags c.stamp b.flags
    let t := t.onRun .sh c.stamp fun q => { q with left := q.left - 1, dataerr := q.dataerr || b.bad }
    let k := x.k + 1
    let x := { x with
      k := k, buf := x.buf ++ packElems d (b.codes.getD 0 []), bufBad := x.bufBad || b.bad
      scales := x.scales ++ [BitVec.ofNat 8 b.scale]
      scaleBad := if b.bad then x.scaleBad ++ [k - 1] else x.scaleBad }
    let (x, t) := t.expFlush e x false b.bad 2
    if k = shCount c / 32 then
      let x := { x with buf := x.buf ++ List.replicate (packBytes d (shCount c) - blockBytes d * k) 0 }
      let (_, t) := t.expFlush e x true false 4
      let t := { t with sh := { t.sh with exps := xs } }
      if fmtMx d then
        let p : OutPlane := { row := shRscl c, bytes := x.scales, bad := x.scaleBad.map fun i => (i, i + 1) }
        p.rows.foldl (fun t r => t.sendRow e.me (shSink e c) c.stamp (x.tag + 1) r) t
      else t
    else { t with sh := { t.sh with exps := x :: xs } }
  | _, _ => t

/-! ## Answers (R406, R421) -/

/-- The bytes `lo` to `hi - 1` of a GET have all arrived. -/
def GetSt.has (g : GetSt) (lo hi : Nat) : Bool :=
  (g.parts.filter fun p => p.1 < hi && lo < p.1 + p.2.1.length).foldl
    (fun a p => a + (min hi (p.1 + p.2.1.length) - max lo p.1)) 0 == hi - lo

/-- Byte `i` of a GET, zero where it has not arrived. -/
def GetSt.byte (g : GetSt) (i : Nat) : Byte :=
  match g.parts.find? fun p => p.1 ≤ i && i < p.1 + p.2.1.length with
  | some p => p.2.1.getD (i - p.1) 0
  | none => 0

/-- One of bytes `lo` to `hi - 1` of a GET arrived in a poisoned flit (R406). -/
def GetSt.bad (g : GetSt) (lo hi : Nat) : Bool :=
  g.parts.any fun p => flitsHit (shGaddr g.cmd + p.1) p.2.1.length p.2.2 (lo - p.1) (hi - p.1)

/-- The rows of an unchanged GET that are whole are written; after its last answer, what has arrived of the others (R237,
R406). -/
def Tile.getRows (t : Tile) (me : Site) (g : GetSt) : GetSt × Tile :=
  let n := sameBytes g.cmd
  let base := if shPlane g.cmd then shLscl g.cmd else shLrow g.cmd
  (List.range ((n + 511) / 512)).foldl (fun (a : GetSt × Tile) k =>
    let lo := 512 * k
    let hi := min n (512 * k + 512)
    if k ∈ a.1.done then a
    else if a.1.has lo hi then
      ({ a.1 with done := k :: a.1.done },
       a.2.writeRow me (base + k) 0 ((upto lo (hi - lo)).map a.1.byte) (a.1.bad lo hi) (if shBulk g.cmd then 7 else 2))
    else if a.1.left = 0 then
      (a.1, (a.1.parts.filter fun p => p.1 < hi && lo < p.1 + p.2.1.length).foldl (fun t p =>
        let l := max lo p.1
        let h := min hi (p.1 + p.2.1.length)
        t.writeRow me (base + k) (l - lo) ((p.2.1.drop (l - p.1)).take (h - l)) (g.bad l h) (if shBulk g.cmd then 7 else 2)) a.2)
    else a) (g, t)

/-- The element rows of a converting GET whose blocks are all there are written, each once; after the last answer, what there is of the
others, and the scale rows (R217, R237). -/
def Tile.getConvert (t : Tile) (me : Site) (g : GetSt) : GetSt × Tile :=
  let c := g.cmd
  let s := shSfmt c
  let d := shDfmt c
  let x : ByteSrc := { elem := fun i => (g.byte i).toNat, scale := fun _ => 0, badElem := fun i => g.bad i (i + 1)
                       badScale := fun _ => false }
  let there := fun b => g.has (elemByte s (32 * b)) (min (elemsBytes s (shCount c)) (elemByte s (32 * b + 32)))
  let eng := if shBulk c then 7 else 2
  let size := blockBytes d
  let used := if fmtMx d then size * shBlocks c else elemsBytes d (shCount c)
  let total := packBytes d (shCount c)
  let (g, t) := (List.range ((total + 511) / 512)).foldl (fun (a : GetSt × Tile) k =>
    let ks := (upto (512 * k / size) ((512 * k + 511) / size - 512 * k / size + 1)).filter (· < shBlocks c)
    let whole := ks.all there
    if k ∈ a.1.done || !(whole || g.left = 0) then a
    else
      let bs := (ks.filter there).map fun b => (b, shBlock c x b)
      let t := a.2.cvtFlags c.stamp (bs.foldl (fun a b => a ||| b.2.flags) 0)
      let elems := bs.map fun b => (512 * shLrow c + elemByte d (32 * b.1), packElems d (b.2.codes.getD 0 []))
      let pad := if whole then [(512 * shLrow c + used, List.replicate (total - used) (0 : Byte))] else []
      let cut := ((rowWrites (elems ++ pad)).filter fun w => w.1 = shLrow c + k).map fun w => (512 * w.1 + w.2.1, w.2.2)
      ({ a.1 with done := k :: a.1.done }, (t.writePieces me eng cut fun _ => bs.any fun b => b.2.bad).1)) (g, t)
  if g.left = 0 && fmtMx d then
    let bs := ((List.range (shBlocks c)).filter there).map fun b => (b, shBlock c x b)
    (g, (t.writePieces me eng (bs.map fun b => (512 * shLscl c + b.1, [BitVec.ofNat 8 b.2.scale]))
      fun r => bs.any fun b => b.2.bad && b.1 / 512 == r - shLscl c).1)
  else (g, t)

/-- An answer to a GET's request (R406): the bytes of an accepted one, or a refusal. -/
def Tile.getAnswer (t : Tile) (me : Site) (stamp goff : Nat) (ok : Bool) (data : List Byte) (poison : List Bool) : Tile :=
  match t.sh.gets.find? fun g => g.cmd.stamp = stamp with
  | none => t
  | some g =>
    let g := { g with parts := if ok then g.parts ++ [(goff, data, poison)] else g.parts, left := g.left - 1 }
    let t := t.onRun .sh stamp fun r =>
      { r with left := r.left - 1, refused := r.refused || !ok, dataerr := r.dataerr || (ok && poison.any id) }
    let same := shSame g.cmd
    let (g, t) := if same then t.getRows me g else t.getConvert me g
    let others := t.sh.gets.filter fun h => h.cmd.stamp ≠ stamp
    let t := { t with sh := { t.sh with
      gets := if g.left = 0 then others else t.sh.gets.map fun h => if h.cmd.stamp = stamp then g else h } }
    if g.left = 0 then
      t.onRun .sh stamp fun r => { r with writes := (shWrites g.cmd).map fun w => (w.1, w.2 - w.1) }
    else t

/-- The outstanding request with a tag, taken from the list, and the next ones sent. -/
def Tile.takeReach (t : Tile) (me : Site) (rtag : BitVec 12) : Option ReachOut × Tile :=
  match t.sh.out.find? fun o => o.rtag = rtag with
  | some o => (some o, ({ t with sh := { t.sh with out := t.sh.out.erase o } }).pumpReach me)
  | none => (none, t)

/-- A row counted accepted or refused toward its sending command's completion (R205, R220, R350, R352). -/
def Tile.rowCounted (t : Tile) (dst : Site) (row : Nat) (ok : Bool) : Tile :=
  let count := fun r : Run =>
    { r with left := r.left - 1, acks := List.erase r.acks (dst.val, row), refused := r.refused || !ok }
  let t := { t with freeze := { t.freeze with scanAcks := t.freeze.scanAcks.erase (dst.val, row) } }
  t.onUnit .sh fun x => { x with running := onFirst (fun r : Run => r.acks.contains (dst.val, row)) count x.running }

/-! ## The rows of the table -/

def execPut (site : Site) (ph : Phys) (s : State) : Host.Outcome State Fault Refusal :=
  live s fun s => s.onUnits site fun t => t.startOp .sh 1 shMalformed t.shReady fun c => t.shPut (s.env site) c ph

def execGet (site : Site) (ph : Phys) (s : State) : Host.Outcome State Fault Refusal :=
  live s fun s => s.onUnits site fun t => t.startOp .sh 2 shMalformed t.shReady fun c => t.shGet site c ph

def execSkew (site : Site) (ph : Phys) (s : State) : Host.Outcome State Fault Refusal :=
  live s fun s => s.onUnits site fun t => t.startOp .sh 3 shMalformed t.shReady fun c => t.shPut (s.env site) c ph

def execGather (site : Site) (ph : Phys) (s : State) : Host.Outcome State Fault Refusal :=
  live s fun s => s.onUnits site fun t => t.startOp .sh 4 shMalformed t.shReady fun c => t.shGather (s.env site) c ph

def execExpfwd (site : Site) (ph : Phys) (s : State) : Host.Outcome State Fault Refusal :=
  live s fun s => s.onUnits site fun t => t.startOp .sh 5 shMalformed t.shReady fun c => t.shExpfwd site c ph

def execSplit (site : Site) (ph : Phys) (s : State) : Host.Outcome State Fault Refusal :=
  live s fun s => s.onUnits site fun t => t.startOp .sh 6 shMalformed t.shReady fun c => t.shPut (s.env site) c ph

def execExpfwdRow (site : Site) (ph : Phys) (s : State) : Host.Outcome State Fault Refusal :=
  live s fun s => s.onUnits site fun t => t.expRow (s.env site) ph

/-- ACK (R337): a row counts accepted or refused. -/
def execAck (site : Site) (src : Site) (row : BitVec 12) (status : BitVec 2) (s : State) : Host.Outcome State Fault Refusal :=
  live s fun s => s.receive (fun p => p.dst = .site site && p.src = .tile src && p.body = .ack row status) fun s =>
    if status.toNat < 2 then s.onTile site fun t => t.rowCounted src row.toNat (status = 0) else s

/-- WARP_ACK (R275): what the wires of a warp link bring back; `site` is the tile that sent the row or token. -/
def execWarpAck (site : Site) (a : WarpAck) (s : State) : Host.Outcome State Fault Refusal :=
  live s fun s =>
    match a with
    | .row src row status =>
      let s := s.onTile src fun t => { t with wires := t.wires.erase (site, a) }
      if status.toNat < 2 then s.onTile site fun t => t.rowCounted src row.toNat (status = 0) else s
    | .credit src unit port gen =>
      let s := s.onTile src fun t => { t with wires := t.wires.erase (site, a) }
      s.onTile site fun t => t.addCredits unit.toNat port.toNat 1 gen

/-- A token word, and not a data word. -/
def warpToken (w : WarpWord) : Bool := match w.body with | .token _ _ _ _ => true | .data _ => false

/-- A word of the tile's own, and not one that it holds for onward travel (R277). -/
def warpOwn (w : WarpWord) (me : Site) : Bool :=
  match w.body with
  | .data d => d.src == me
  | .token _ _ _ (.seq n _ _ _ _) => n == me
  | .token _ _ _ (.loom _ _) => false

/-- Two data words belong to one command of a tile. -/
def warpCommand (a b : WarpWord) : Bool :=
  a.side == b.side && match a.body, b.body with
  | .data x, .data y => x.src == y.src && x.tag / 4 == y.tag / 4
  | .token _ _ _ _, _ => false
  | _, .token _ _ _ _ => false

/-- The next word of a side that a tile sends, of tokens or of data words: held ones first, each in its order (R278). -/
def Tile.warpNext (t : Tile) (me : Site) (side : BitVec 2) (token : Bool) : Option WarpWord :=
  let line := t.warpq.filter fun w => w.side = side && warpToken w = token
  (line.find? fun w => !warpOwn w me).orElse fun _ => line.head?

/-- A word sent: the rest of an own command's words goes behind those of the others, so that each sends one word in turn (R278). -/
def Tile.warpSent (t : Tile) (me : Site) (w : WarpWord) : Tile :=
  let l := t.warpq.erase w
  { t with warpq := if warpOwn w me then l.filter (fun x => !warpCommand w x) ++ l.filter (warpCommand w) else l }

/-- The tile, at most `fuel` hops back from `m`, from which a warp word reaches `m` through registers that pass, with the hops
left (R276, R277). -/
def State.wordFrom (s : State) (w : WarpWord) : Nat → Site → Option (Site × Nat)
  | 0, _ => none
  | fuel + 1, m =>
    match stepSide m ((w.side.toNat + 2) % 4) with
    | none => none
    | some n =>
      if (s.tile n).warpNext n w.side (warpToken w) == some w then some (n, fuel)
      else if s.steward.site n.val != 0 && bitOf ((s.tile n).passBits n.val) (passBit w.side.toNat) then
        s.wordFrom w fuel n
      else none

/-- WARP_WORD_HOLD (R275 to R278): a word that a tile back along its side has sent is held here. At a register that latches, a
token joins its queue and a row waits for an SH-IN slot; at the fifth pass register the word goes on from here. -/
def execWarpWordHold (site : Site) (w : WarpWord) (s : State) : Host.Outcome State Fault Refusal :=
  live s fun s =>
    let passes := bitOf ((s.tile site).passBits site.val) (passBit w.side.toNat)
    match s.wordFrom w 5 site with
    | none => s
    | some (n, left) =>
      let gone := s.onTile n fun t => t.warpSent n w
      if s.steward.site site.val = 0 then s
      else if !passes then
        match w.body with
        | .data d => gone.onTile site fun t => t.onSp fun p => { p with arrived := p.arrived ++ [d] }
        | .token u q tok src => if s.seqTested site then s else gone.onTile site fun t => t.tokenArrive site u.toNat q.toNat tok src
      else if left = 0 then gone.onTile site fun t => { t with warpq := t.warpq ++ [w] }
      else s

/-! ## Gating a bank (R250) -/

/-- The rows that a GET has still to write: of its first plane, those not yet written, and its scale plane (R237). -/
def GetSt.rowsDue (g : GetSt) : List Nat :=
  match shWrites g.cmd with
  | r :: rs => ((upto r.1 (r.2 - r.1)).filter fun n => !(g.done.contains (n - r.1))) ++ rangeRows rs
  | [] => []

/-- The rows that an EXPFWD has still to write (R219). -/
def ExpSt.rowsDue (x : ExpSt) : List Nat :=
  match shWrites x.cmd with
  | r :: rs => upto (r.1 + x.row) (r.2 - r.1 - x.row) ++ rangeRows rs
  | [] => []

/-- The rows that an accepted transfer into a spool has still to write (R244). -/
def InXfer.rowsDue (x : InXfer) (cfg : Word) : List Nat :=
  (upto x.past (x.n - x.past)).map fun k => spoolBase cfg + (x.off + k) % spoolSize cfg

/-- A write to a bank is outstanding: held, still to be issued by a GET or EXPFWD in progress, or of an accepted transfer (R250). -/
def Tile.bankBusy (t : Tile) (b : Nat) : Bool :=
  let here := fun n : Nat => bankOf n == b
  (t.sp.held.any fun h => here h.row) || (t.sp.inX.any fun x => x.ok && (upto x.row x.left).any here) ||
    (t.sh.gets.any fun g => g.rowsDue.any here) || (t.sh.exps.any fun x => x.rowsDue.any here) ||
    t.sp.spools.any fun e => e.2.xfers.any fun x => !x.ended && (x.rowsDue (t.spoolCfg e.1)).any here

/-- A requested bank is gated, and its contents are discarded (R250). -/
def Tile.gateBank (t : Tile) (b : Nat) : Tile :=
  if bitOf (t.reg Reg.SP_PWR) b && !t.gated b && !t.waking' b && !t.bankBusy b then
    (t.wipeRows (256 * b) (256 * b + 256)).setReg Reg.SP_PWR_STATE (t.reg Reg.SP_PWR_STATE ||| at32 1 b)
  else t

def execBankGated (site : Site) (bank : Fin 16) (s : State) : Host.Outcome State Fault Refusal :=
  live s fun s => s.onUnits site fun t => t.gateBank bank.val

end Sys2Proof.Machine
end

