-- ==== Sys2Proof/Machine/Flow.lean ====
section
/-! DEFINITION. The commands of the weave: tokens, credits, sequencers, steering units, the completion of unit commands (R205,
R206, R259 to R285, R312, R447, R448). -/

namespace Sys2Proof.Machine

/-! ## Completion of unit commands (R205, R206, R273) -/

/-- The status of a completed command: the highest of those that apply (R206). -/
def Run.status (r : Run) : Nat :=
  if r.malformed then 1 else if r.aborted then 4 else if r.refused then 5 else if r.conflict then 3
  else if r.dataerr then 2 else 0

/-- The status word of a completed command (R206). -/
def Run.word (r : Run) : Word := at32 r.status 28 ||| at32 r.value.toNat 0

/-- Everything that a command in progress waits for has happened (R205). -/
def Tile.runDone (t : Tile) (u : UnitC) (r : Run) : Bool :=
  r.malformed || r.aborted ||
    (r.left == 0 && r.acks.isEmpty && !t.holdsRows (unitEngines u) r.writes && (u != .la || r.cmd.op != 4 || t.la.late.isEmpty) && (u != .mu || !t.mu.edges.any fun w => w.cmd = r.cmd.stamp))

/-- A sequencer's firing that still stands behind an earlier one of its unit which has not emitted (R448). -/
def Tile.behind (t : Tile) (u id : Nat) : Bool :=
  match t.firings.find? fun f : Firing => f.unit = u with
  | some f => f.id != id
  | none => false

/-- The end of a core command: its status word is kept among the newest 64, and the error summary takes a status other than
OK (R204, R206, R208). -/
def UnitSt.finish (x : UnitSt) (r : Run) : UnitSt :=
  let k := (x.kept ++ [(x.done + 1, r.word)])
  { x with done := x.done + 1, kept := k.drop (k.length - 64), errSum := x.errSum || r.status != 0 }

/-- The end of a sequencer's command: its tokens are emitted and its spool advances applied, or, MALFORMED or ABORTED, neither;
a malformed one halts the sequencer (R272 to R274). -/
def Tile.endFiring (t : Tile) (e : Env) (u id : Nat) (r : Run) : Tile :=
  match t.firings.find? fun f : Firing => f.id = id with
  | none => t
  | some f =>
    if r.malformed || r.aborted then
      let t := (t.unreserve f).unuse e.me f
      if r.malformed then
        let t := ((t.setSeq u { t.seq u with run := false, halted := true }).endCurrent u).release e.me
        let t := t.flagBit Reg.TC_WV_ERR 2
        t.raise e.me 0x07 u (t.reg ((unitOfCode u).elim Reg.TC_WV_ERR errReg))
      else t
    else ((t.emitAll e f (f.poison || r.status != 0) r.value).applyAdvs f).unuse e.me f

/-- The oldest command in progress of a unit ends (R205, R206, R447). -/
def Tile.complete (t : Tile) (e : Env) (u : UnitC) (r : Run) : Tile :=
  let t := t.onUnit u fun x => { x with running := x.running.drop 1 }
  let t := if (r.dataerr || r.refused) && !r.errRaised && !r.malformed && !r.aborted then t.err 1 else t
  let t := if u == .sh && r.refused then t.flagBit Reg.SH_ERR 2 else t
  match r.cmd.src with
  | .core _ _ => t.onUnit u fun x => x.finish r
  | .seq id => t.endFiring e (unitCode u) id r
  | .old => t

/-- A reserved OP at the head of a unit's queue makes its command malformed (R74, R117, R203, R213, R215). -/
def badOp (u : UnitC) (op : Nat) : Bool :=
  match u with
  | .mu => op = 0 || 3 < op
  | .la => op = 0 || 4 < op
  | .vc => false
  | .sp => op = 0 || 4 < op
  | .sh => op = 0 || 6 < op

/-- A command with a reserved OP that has reached the head of its queue is rejected. -/
def Tile.rejectOp (t : Tile) (u : UnitC) : Tile :=
  match (t.unit u).queue with
  | c :: _ =>
    if badOp u c.op then
      let t := t.reject u c
      if u == .mu then t.noKeep else t
    else t
  | [] => t

/-- UNIT_COMMAND_COMPLETE (R205): the oldest command in progress of a unit completes if its work has ended. -/
def Tile.tryComplete (t : Tile) (e : Env) (u : UnitC) : Tile :=
  let t := if (t.unit u).running.isEmpty then t.rejectOp u else t
  match (t.unit u).running with
  | r :: _ =>
    let waits := match r.cmd.src with
      | .seq id => t.behind (unitCode u) id
      | _ => false
    if t.runDone u r && !waits then t.complete e u r else t
  | [] => t

/-! ## Discarding commands (R209) -/

/-- Every queued and running command of a unit is discarded with status ABORTED; a firing so ended emits nothing. -/
def Tile.abortUnit (t : Tile) (e : Env) (u : UnitC) : Tile :=
  let x := t.unit u
  let all := x.running ++ x.queue.map fun c => { cmd := c : Run }
  let t := t.setUnit u { x with running := [], queue := [] }
  all.foldl (fun t r =>
    let r := { r with aborted := true, malformed := false }
    match r.cmd.src with
    | .core _ _ => t.onUnit u fun x => x.finish r
    | .seq id => t.endFiring e (unitCode u) id r
    | .old => t) t

/-- What the discarded commands of the units would still have done is dropped with them: edge words, and the shuttle's requests,
GETs and EXPFWDs. -/
def Tile.dropWork (t : Tile) (u : UnitC) : Tile :=
  match u with
  | .mu => { t with mu := { t.mu with edges := [], prev := none } }
  | .la => { t with la := { t.la with late := [] } }
  | .sh => { t with sh := { t.sh with toSend := t.sh.toSend.filter (fun q => q.user == .scan || q.user == .darn)
                                      gets := [], exps := [] } }
  | _ => t

/-- The units of a tile. -/
def allUnits : List UnitC := [.mu, .la, .vc, .sp, .sh]

/-- Every queued and running command of the listed units is discarded (R209). -/
def Tile.abortUnits (t : Tile) (e : Env) (us : List UnitC) : Tile :=
  us.foldl (fun t u => (t.abortUnit e u).dropWork u) t

/-! ## The tile core's registers and its waits for commands (R191, R194, R206 to R208) -/

/-- A scalar register; x0 reads zero. -/
def Tile.xreg (t : Tile) (i : Nat) : Word := if i = 0 then 0 else t.core.x.getD i 0

def Tile.onCore (t : Tile) (f : CoreSt → CoreSt) : Tile := { t with core := f t.core }

/-- A scalar register written; a write of x0 is discarded. -/
def Tile.setX (t : Tile) (rd : Nat) (w : Word) : Tile :=
  if rd = 0 then t else t.onCore fun c => { c with x := c.x.set rd w }

/-- Tile cycles that an instruction has taken (R194). -/
def Tile.spend (t : Tile) (n : Nat) : Tile := { t with cycles := t.cycles + n }

/-- An instruction retired: minstret, the pc and the cycles it took (R191, R194). -/
def Tile.retire (t : Tile) (next : Word) (cost : Nat) : Tile :=
  (t.onCore fun c => { c with pc := next, minstret := c.minstret + 1 }).spend cost

/-- What BK.POLL returns for a ticket (R206, R207). -/
def Tile.ticketStatus (t : Tile) (w : Word) : Word :=
  let bad : Word := at32 0xD 28
  match unitOfCode (fld w 28 4) with
  | none => bad
  | some u =>
    let x := t.unit u
    let q := fld w 0 16
    let back := (x.issued + 65535 - q) % 65535
    if fld w 16 12 ≠ 0 || q = 0 || x.issued ≤ back then bad
    else if x.done < x.issued - back then at32 0xE 28
    else match x.kept.find? fun e => e.1 = x.issued - back with
      | some (_, st) => st
      | none => at32 0xF 28

/-- The instruction that holds the core ends with a value in rd. -/
def Tile.bkEnd (t : Tile) (rd : Nat) (v : Word) : Tile :=
  (((t.setX rd v)).onCore fun c => { c with mode := .running, bk := .none }).retire (t.core.pc + 4) 1

/-- A wait for a ticket, or its end. -/
def Tile.waitTicket (t : Tile) (tk : Word) (rd : Nat) : Tile :=
  let st := t.ticketStatus tk
  if fld st 28 4 = 0xE then t.onCore fun c => { c with mode := .stalled, bk := .wait tk rd } else t.bkEnd rd st

/-- The units that a mask names. -/
def unitsOf (mask : Word) : List UnitC := allUnits.filter fun u => bitOf mask (unitCode u)

/-- The error summary of the named units, cleared as it is returned (R208). -/
def Tile.takeSummary (t : Tile) (mask : Word) : Word × Tile :=
  ((unitsOf mask).foldl (fun w u => w ||| flag32 (t.unit u).errSum (unitCode u)) 0,
   (unitsOf mask).foldl (fun t u => t.onUnit u fun x => { x with errSum := false }) t)

/-- A wait for units, or its end (R208). -/
def Tile.waitUnits (t : Tile) (targets : List (Nat × Nat)) (mask : Word) (rd : Nat) : Tile :=
  if targets.all fun (u, n) => match unitOfCode u with
      | some v => n ≤ (t.unit v).done
      | none => true then
    let (w, t) := t.takeSummary mask
    t.bkEnd rd w
  else t.onCore fun c => { c with mode := .stalled, bk := .waitu targets mask rd }

/-- A core stalled in BK.WAIT or BK.WAITU whose commands have completed retires (R207 to R209). -/
def Tile.endWait (t : Tile) : Tile :=
  match t.core.bk with
  | .wait tk rd => t.waitTicket tk rd
  | .waitu targets mask rd => t.waitUnits targets mask rd
  | _ => t

/-! ## The rows of the table -/

def execUnitCommandComplete (site : Site) (unit : UnitC) (s : State) : Host.Outcome State Fault Refusal :=
  live s fun s => s.onUnits site fun t => t.tryComplete (s.env site) unit

/-- TOKEN_ARRIVE (R262): a token that has come over the weft or from the loom arrives; a slice on the sequencers holds it (R496). -/
def execTokenArrive (site : Site) (unit : BitVec 4) (queue : BitVec 3) (tok : BitVec 64) (src : TokSrc) (s : State) :
    Host.Outcome State Fault Refusal :=
  live s fun s => if s.seqTested site then s else
    s.receive (fun p => p.dst = .site site && p.body = .token unit queue tok src) fun s =>
    s.onUnits site fun t => t.tokenArrive site unit.toNat queue.toNat tok src

/-- A head token that R312 drops is removed, flagged and counted; its credit returns (R262). -/
def Tile.dropHead (t : Tile) (me : Site) (u q : Nat) : Tile :=
  let f := t.headFate u q
  if f == .drop || f == .dropMix then
    match t.pop u q with
    | (some (tok, src), t) =>
      let t := (t.flagBit Reg.TC_EP_ERR 0).count Reg.TC_EPDROP_COUNT 1
      let t := if f == .dropMix then t.flagBit Reg.TC_EP_ERR 3 else t
      match src with
      | some p => t.dropCredit me tok p
      | none => t
    | (none, t) => t
  else t

def execHeadTokenDrop (site : Site) (unit : BitVec 4) (queue : BitVec 3) (s : State) : Host.Outcome State Fault Refusal :=
  live s fun s => s.onUnits site fun t => t.dropHead site unit.toNat queue.toNat

def execSeqFire (site : Site) (unit : UnitC) (s : State) : Host.Outcome State Fault Refusal :=
  live s fun s => s.onUnits site fun t => if t.canFire unit then t.fire site unit else t

def execDroppedFiringEmit (site : Site) (unit : BitVec 4) (s : State) : Host.Outcome State Fault Refusal :=
  live s fun s => s.onUnits site fun t => t.emitDropped (s.env site) unit.toNat

/-- CREDIT_ARRIVE (R265): a CREDIT packet reaches the tile of the port. -/
def execCreditArrive (site : Site) (unit : BitVec 4) (port : BitVec 2) (count : BitVec 5) (gen : Nat) (s : State) :
    Host.Outcome State Fault Refusal :=
  live s fun s => s.receive (fun p => p.dst = .site site && p.body = .credit unit port count gen) fun s =>
    s.onUnits site fun t => t.addCredits unit.toNat port.toNat count.toNat gen

def execSteerPairFire (site : Site) (su : Fin 4) (s : State) : Host.Outcome State Fault Refusal :=
  live s fun s => s.onUnits site fun t => t.pairFire (s.env site) su.val

def execSteerMergeFire (site : Site) (su : Fin 4) (s : State) : Host.Outcome State Fault Refusal :=
  live s fun s => s.onUnits site fun t => t.mergeFire (s.env site) su.val

/-- COUNTER_SNAP (R285): the live counters are copied to their read copies. -/
def execCounterSnap (site : Site) (s : State) : Host.Outcome State Fault Refusal :=
  live s fun s => if s.powered site then s.onTile site fun t => { t with snap := t.live } else s

/-- COUNTER_CLEAR (R285). -/
def execCounterClear (site : Site) (s : State) : Host.Outcome State Fault Refusal :=
  live s fun s => if s.powered site then s.onTile site fun t => { t with live := [] } else s

end Sys2Proof.Machine
end

