-- ==== Sys2Proof/Machine/Special.lean ====
section
/-! DEFINITION. The special-function stage: seed tables, the ROM programs of EXP, LOG, RCP and RSQRT, and micro-programs
(R166 to R182). -/

namespace Sys2Proof.Machine

/-! ## Functions to high precision -/

/-- Fraction bits of the fixed-point numbers in which the four functions are evaluated. -/
def fxBits : Nat := 160

def fxOne : Int := (2 ^ fxBits : Nat)

/-- A dyadic number in fixed point, rounded down. -/
def toFx (m e : Int) : Int :=
  let k := e + fxBits
  if 0 ≤ k then m * pow2 k else m.fdiv (pow2 (-k))

/-- Terms of the series of atanh z. -/
def atanhSum (z zz : Int) : Nat → Nat → Int → Int
  | 0, _, _ => 0
  | n + 1, k, pw => pw.fdiv ((2 * k + 1 : Nat) : Int) + atanhSum z zz n (k + 1) ((pw * zz).fdiv fxOne)

/-- The natural logarithm of a fixed-point number in [1/2, 2]. -/
def lnFx (x : Int) : Int :=
  let z := ((x - fxOne) * fxOne).fdiv (x + fxOne)
  2 * atanhSum z ((z * z).fdiv fxOne) 60 0 z

def ln2Fx : Int := lnFx (2 * fxOne)

/-- Terms of the series of e^r. -/
def expSum (r : Int) : Nat → Nat → Int → Int
  | 0, _, _ => 0
  | n + 1, k, term => term + expSum r n (k + 1) ((term * r).fdiv (fxOne * ((k + 1 : Nat) : Int)))

/-- e^r for a fixed-point number in [0, 1). -/
def expFx (r : Int) : Int := expSum r 50 0 fxOne

/-- The reciprocal of a nonzero number. -/
def rcpVal (m e : Int) : Val := .fin ((2 ^ 200 : Int).fdiv m) (-e - 200)

/-- 1 / √(m * 2^e) for a positive number. -/
def rsqrtVal (m e : Int) : Val :=
  let (m, e) := if e % 2 = 0 then (m, e) else (2 * m, e - 1)
  .fin (Nat.sqrt (2 ^ 320 / m.natAbs)) (-160 - e / 2)

/-- ln of a positive number. -/
def lnVal (m e : Int) : Val :=
  let k := floorLog m e
  .fin (k * ln2Fx + lnFx (toFx m (e - k))) (-fxBits)

/-- e^a for a number of moderate size. -/
def expVal (m e : Int) : Val :=
  let a := toFx m e
  let n := a.fdiv ln2Fx
  .fin (expFx (a - n * ln2Fx)) (n - fxBits)

/-- 2^f for a fixed-point fraction. -/
def exp2Val (f : Int) : Val := .fin (expFx ((f * ln2Fx).fdiv fxOne)) (-fxBits)

/-! ## Extended registers (R171) -/

/-- A value rounded to nearest even at a 40-bit significand; none where its exponent leaves the register's range. -/
def round40 (v : Val) : Option Val :=
  match v with
  | .fin m e =>
    if m = 0 then some .zero
    else
      let q := floorLog m e - 39
      let n : Int := roundMag m.natAbs e q none
      let r : Val := .fin (if m < 0 then -n else n) q
      if -32768 ≤ q + 39 && q + 39 ≤ 32767 then some r else none
  | v => some v

/-- A value whose exponent stays in the range of a register (R171). -/
def inRange (v : Val) : Option Val :=
  match v with
  | .fin m e => if m = 0 || (-32768 ≤ floorLog m e && floorLog m e ≤ 32767) then some v else none
  | v => some v

/-- A product with the sign of a zero. -/
def sMul (a b : Val) : Val :=
  let p := a.mul b
  if p.isZero then (if a.isNeg != b.isNeg then .nzero else .zero) else p

/-- A 40-bit ROM constant (R177). -/
def romConst (k : Nat) : Option Val :=
  match k with
  | 0 => round40 (.fin ((fxOne * fxOne).fdiv ln2Fx) (-fxBits))
  | 1 => round40 (.fin ln2Fx (-fxBits))
  | 2 => some (.fin 1 (-1))
  | 3 => (round40 (.fin ((fxOne * fxOne).fdiv ln2Fx) (-fxBits))).map Val.neg
  | _ => none

/-! ## Seeds (R172, R174, R179) -/

/-- A value and the two values latched at the ends of its segment, in order, with the direction in which CLAMP takes them. -/
structure Seed where
  y : Val
  a : Val
  b : Val
  dec : Bool

/-- An error held to `bound` units of 2^-40. -/
def heldError (table pos bound : Nat) : Int :=
  max (-(bound : Int)) (min (bound : Int) (Config.seedError table pos))

/-- The significand of a nonzero number as a 40-bit-fraction integer with its exponent: `s * 2^-80 * 2^k`, 1 ≤ s * 2^-80 < 2. -/
def signif (m e : Int) : Nat × Int :=
  let k := floorLog m e
  (if k - e ≤ 80 then m.natAbs * 2 ^ (80 - (k - e)).toNat else m.natAbs / 2 ^ (k - e - 80).toNat, k)

def fxMul (a b : Int) : Int := (a * b).fdiv fxOne
def fxDiv (a b : Int) : Int := (a * fxOne).fdiv b

/-- Newton's coefficients of the polynomial through points: divided differences of order `k` on, `n` of them, from the
differences `ys` of order `k - 1` over nodes `xs`. -/
def newtonCoeffs (xs : List Int) : Nat → Nat → List Int → List Int
  | 0, _, _ => []
  | n + 1, k, ys =>
    ys.headD 0 :: newtonCoeffs xs n (k + 1) ((List.range (ys.length - 1)).map fun i =>
      fxDiv (ys.getD (i + 1) 0 - ys.getD i 0) (xs.getD (i + k) 0 - xs.getD i 0))

/-- That polynomial at a point, exactly. -/
def polyAt : List Int → List Int → Val → Val
  | x :: xs, c :: cs, t => (Val.fin c (-fxBits)).add ((t.add (.fin (-x) (-fxBits))).mul (polyAt xs cs t))
  | _, _, _ => .zero

/-- Positions of a segment at which the model fixes a polynomial of the table's degree. -/
def seedNodes (degree : Nat) : List Int :=
  let at16 := fun k : Int => (k * fxOne).fdiv 16
  match degree with
  | 1 => [at16 2, at16 14]
  | 2 => [at16 1, at16 8, at16 15]
  | _ => [at16 1, at16 5, at16 11, at16 15]

/-- A seed polynomial of a segment over its position t in [0, 1]: the polynomial of the table's degree through the values of
`f` at the nodes, each with a free error of the segment held to `bound`, relative to the value or absolute (assumption 9). -/
def seedPoly (table seg degree : Nat) (rel : Bool) (bound : Nat) (f : Int → Int) (t : Val) : Val :=
  let xs := seedNodes degree
  let ys := (List.range xs.length).map fun i =>
    let v := f (xs.getD i 0)
    let err := heldError table (8 * seg + i) bound
    v + (if rel then (v * err).fdiv (2 ^ 40) else err * 2 ^ 120)
  polyAt xs (newtonCoeffs xs xs.length 1 ys) t

/-- The number `(a + t) / b` in fixed point. -/
def fxAt (a b : Nat) (t : Int) : Int := ((a : Int) * fxOne + t).fdiv b

/-- `1 / √x` in fixed point. -/
def rsqrtFx (x : Int) : Int := (Nat.sqrt (2 ^ 480 / x.toNat) : Nat)

/-- ln (1 + r) / r in fixed point, for r not zero. -/
def lnRatio (r : Int) : Int := fxDiv (lnFx (fxOne + r)) r

/-- The seed of RCP: linear in each segment (R172). -/
def rcpSeed (seg : Nat) (t : Val) : Val := seedPoly 0 seg 1 true (2 ^ 22) (fun x => fxDiv fxOne (fxAt (128 + seg) 128 x)) t

/-- The seed of RSQRT in binade `odd`: linear in each segment (R172). -/
def rsqrtSeed (odd seg : Nat) (t : Val) : Val :=
  seedPoly 1 (128 * odd + seg) 1 true (2 ^ 22) (fun x => rsqrtFx (2 ^ odd * fxAt (128 + seg) 128 x)) t

/-- The seed of LOG: a cubic in each segment; where the centre is 1, r times a quadratic in r (R172). -/
def logSeed (seg : Nat) (t : Val) : Val :=
  if seg = 0 then (t.scale (-7)).mul (seedPoly 2 0 2 true (2 ^ 11) (fun x => lnRatio (fxAt 0 128 x)) t)
  else if seg = 127 then
    ((t.add (.fin (-1) 0)).scale (-8)).mul (seedPoly 2 127 2 true (2 ^ 11) (fun x => lnRatio ((x - fxOne).fdiv 256)) t)
  else seedPoly 2 seg 3 false (2 ^ 11) (fun x => lnFx (fxAt (128 + seg) 128 x)) t

/-- The seed of EXP2: a quadratic in each segment (R172). -/
def exp2Seed (seg : Nat) (t : Val) : Val :=
  seedPoly 3 seg 2 true (2 ^ 12) (fun x => expFx (fxMul (fxAt seg 128 x) ln2Fx)) t

/-- The segment of an argument of a significand domain and its position in it, with the exponent's low bit; a zero or an
infinity has no fraction bits, and its low exponent bit is open (R177; assumption 9). -/
def signifAt (v : Val) : Nat × Val × Nat :=
  match v.plain with
  | .fin m e =>
    if m = 0 then (0, .zero, if Config.seedBinade false then 1 else 0)
    else
      let (s, k) := signif m e
      (s / 2 ^ 73 % 128, .fin (s % 2 ^ 73 : Nat) (-73), (k % 2).toNat)
  | _ => (0, .zero, if Config.seedBinade true then 1 else 0)

/-- The segment of an argument of a fraction domain and its position in it (R172, R177, R179); the fraction of an infinity is open
(assumption 9). -/
def fractionAt (v : Val) : Nat × Val :=
  match v.plain with
  | .fin m e =>
    if 0 ≤ e then (0, .zero)
    else
      let n : Int := (m.natAbs : Int) % pow2 (-e)
      let j := (128 * n).fdiv (pow2 (-e))
      (j.toNat, .fin (128 * n - j * pow2 (-e)) e)
  | _ => ((Config.infFrac % 65536) / 512, .fin (Config.infFrac % 512 : Nat) (-9))

/-- A value at a 40-bit significand, for a value whose exponent a register holds. -/
def at40 (v : Val) : Val := (round40 v).getD v

/-- The seed of a built-in table at |sa| (R172, R174). -/
def romSeed (table : Nat) (v : Val) : Seed :=
  if table = 3 then
    let (j, t) := fractionAt v
    ⟨at40 (exp2Seed j t), at40 (exp2Val ((j * fxOne).fdiv 128)), if j = 127 then .fin 2 0
      else at40 (exp2Val (((j + 1 : Nat) * fxOne).fdiv 128)), false⟩
  else
    let (seg, t, odd) := signifAt v
    match table with
    | 0 => ⟨at40 (rcpSeed seg t), at40 (rcpVal (128 + seg : Nat) (-7)), at40 (rcpVal (129 + seg : Nat) (-7)), true⟩
    | 1 => ⟨at40 (rsqrtSeed odd seg t), at40 (rsqrtVal (128 + seg : Nat) (odd - 7)), at40 (rsqrtVal (129 + seg : Nat) (odd - 7)),
        true⟩
    | _ =>
      let h : Int := if seg = 127 then -1 else 0
      let seam := fun i : Nat => at40 (.fin (lnFx (toFx i (h - 7))) (-fxBits))
      ⟨at40 (logSeed seg t), seam (128 + seg), seam (129 + seg), false⟩

/-- A word of the SF fields in force: the copy that a held commit has left active (R181), or the active slot. -/
def Tile.sfWord (t : Tile) (k : Nat) : Word :=
  match t.sfHeld with
  | some m => slotWord 2 m k
  | none => t.act 2 k

/-- A word of user table `k`. -/
def Tile.utbl (t : Tile) (k i : Nat) : Word := t.sfWord (344 + 386 * k + i)

/-- The seed of a user table at |sa|, before it is rounded to a register, with the seam values and TCFG bit 2 (R179). -/
def Tile.userSeed (t : Tile) (k : Nat) (v : Val) : Seed :=
  let (s, pt) :=
    if fld (t.utbl k 385) 0 2 = 1 then fractionAt v
    else
      let (s, pt, _) := signifAt v
      (s, pt)
  let w := fun i => fp32 (t.utbl k i).toNat
  ⟨(w (3 * s)).add (sMul (w (3 * s + 1)) pt), w (3 * s + 2), if s = 127 then w 384 else w (3 * (s + 1) + 2),
    bitOf (t.utbl k 385) 2⟩

/-! ## Steps (R176, R177) -/

/-- The state of a running program (R171): registers, N, the latched sign, the latched seam values with the direction of
CLAMP, and whether a CLAMP has changed a value. -/
structure SfRun where
  p : List Val
  n : Int
  neg : Bool
  latch : Option (Val × Val × Bool)
  hit : Bool

def SfRun.reg (r : SfRun) (i : Nat) : Val := r.p.getD i .zero

def SfRun.set (r : SfRun) (i : Nat) (v : Val) : SfRun := { r with p := r.p.set i v }

def sfOpc (w : Word) : Nat := fld w 27 5
def sfDst (w : Word) : Nat := fld w 24 3
def sfA (w : Word) : Nat := fld w 21 3
def sfB (w : Word) : Nat := fld w 18 3
def sfC (w : Word) : Nat := fld w 15 3
def sfMode (w : Word) : Nat := fld w 12 3
def sfK (w : Word) : Nat := fld w 8 4

/-- A step word. -/
def stepWord (opc dst a b c mode k : Nat) : Word :=
  at32 opc 27 ||| at32 dst 24 ||| at32 a 21 ||| at32 b 18 ||| at32 c 15 ||| at32 mode 12 ||| at32 k 8

/-- A value as integers, for the arguments of a free value. -/
def Val.ints : Val → List Int
  | .fin m e => [0, m, e]
  | .nzero => [1]
  | .inf neg => [2, if neg then 1 else 0]
  | .nan => [3]

/-- A value that no rule states, for step `w` of a program in this state: any value that a register holds (assumption 9). -/
def SfRun.free (r : SfRun) (w : Word) : Val :=
  let (k, m, e) := Config.sfValue w.toNat (r.n :: r.p.flatMap Val.ints)
  match k with
  | 0 => .nan
  | 1 => .inf (m < 0)
  | 2 => .nzero
  | _ => .fin (max (-(2 ^ 40 - 1)) (min (2 ^ 40 - 1) m)) (max (-32768) (min 32728 e))

/-- An N that no rule states (assumption 9), held to the exponents of a register. -/
def SfRun.freeN (r : SfRun) (w : Word) : Int :=
  max (-32768) (min 32767 (Config.sfValue w.toNat (r.n :: r.p.flatMap Val.ints)).2.2)

/-- A value held between the two latched ones in the direction of the table (R174, R179); none where their order is not the
direction's. -/
def clampVal (v : Val) (lo hi : Val) : Option Val :=
  if hi.lt lo then none else some (if v.lt lo then lo else if hi.lt v then hi else v)

/-- Round a dyadic number down, or to nearest even, to an integer. -/
def splitInt (m e : Int) (floor : Bool) : Int :=
  if 0 ≤ e then m * pow2 e
  else if floor then m.fdiv (pow2 (-e))
  else
    let n : Int := roundMag m.natAbs e 0 none
    if m < 0 then -n else n

/-- NORM (R177): the scaled magnitude and N. -/
def normStep (m e : Int) (mode : Nat) : Val × Int :=
  let k := floorLog m e
  let mag : Val := .fin m.natAbs e
  match mode with
  | 1 => let n := if k % 2 = 0 then k else k - 1; (mag.scale (-n), n)
  | 2 => let n := if (signif m e).1 / 2 ^ 73 % 128 = 127 then k + 1 else k; (mag.scale (-n), n)
  | _ => (mag.scale (-k), k)

/-- CLAMP (R174, R177, R179); between seams whose order is not the direction's no rule states the result (assumption 9). -/
def SfRun.clamp (r : SfRun) (w : Word) (a : Val) : SfRun :=
  match r.latch with
  | none => r.set (sfDst w) a
  | some (x, y, dec) =>
    if a.isNaN then r.set (sfDst w) .nan
    else
      let v := if x.isNaN || y.isNaN then .nan
        else ((if dec then clampVal a y x else clampVal a x y)).getD (r.free w)
      { r.set (sfDst w) v with hit := r.hit || !v.eqv a }

/-- One step (R44, R45, R177). A register value or an N that no rule states is free (assumption 9). -/
def Tile.sfStep (t : Tile) (r : SfRun) (w : Word) : SfRun :=
  let a := r.reg (sfA w)
  let b := r.reg (sfB w)
  let c := r.reg (sfC w)
  let put := fun v : Option Val => r.set (sfDst w) (v.getD (r.free w))
  match sfOpc w with
  | 0x01 => put (round40 (a.add b))
  | 0x02 => put (round40 (sMul a b))
  | 0x03 => put (round40 ((sMul a b).add c))
  | 0x04 => put (round40 (c.add (sMul a b).neg))
  | 0x05 => put (if sfMode w = 1 then romConst (sfK w) else some (fp32 (t.sfWord (56 + sfK w)).toNat))
  | 0x06 =>
    match a.plain with
    | .fin m e =>
      let n := splitInt m e (sfMode w == 1)
      { put (some (a.plain.add (.fin (-n) 0))) with n := max (-1024) (min 1024 n) }
    | .inf neg => { put (some .nan) with n := if neg then -1024 else 1024 }
    | _ => { put (some .nan) with n := r.freeN w }
  | 0x07 =>
    match a.plain with
    | .fin m e =>
      if m = 0 then { put (some .zero) with n := r.freeN w, neg := a.isNeg }
      else
        let (v, n) := normStep m e (sfMode w)
        { put (some v) with n := n, neg := m < 0 }
    | .inf neg => { put (some (.inf false)) with n := r.freeN w, neg := neg }
    | _ => { put (some .nan) with n := r.freeN w, neg := false }
  | 0x08 =>
    match sfMode w with
    | 0 => put (inRange (a.scale r.n))
    | 1 => put (inRange (a.scale (-r.n)))
    | _ =>
      match a with
      | .fin m _ => put (if r.n % 2 = 0 || m = 0 then inRange (a.scale (-(r.n / 2))) else none)
      | v => put (some v)
  | 0x09 =>
    if a.isNaN then { put (some .nan) with latch := some (.nan, .nan, false) }
    else
      let s := if sfMode w < 4 then romSeed (sfMode w) a else t.userSeed (sfMode w - 4) a
      { put (round40 s.y) with latch := some (s.a, s.b, s.dec) }
  | 0x0A => r.clamp w a
  | 0x0B => put (some (.fin r.n 0))
  | _ => r

/-- A program run to its END (R171): the result in binary32, and whether a CLAMP changed a value. -/
def Tile.sfProgram (t : Tile) : List Word → SfRun → Val × Bool
  | [], r => (roundTo 1 (if r.neg then (r.reg 0).neg else r.reg 0), r.hit)
  | w :: ws, r =>
    if sfOpc w = 0 then t.sfProgram [] r else t.sfProgram ws (t.sfStep r w)

/-- The state before the first step (R171). -/
def SfRun.start (a b : Val) : SfRun :=
  { p := [a, b, .zero, .zero, .zero, .zero, .zero, .fin 1 0], n := 0, neg := false, latch := none, hit := false }

/-- The built-in programs in ROM (R172). -/
def romProgram (fn : Nat) : List Word :=
  match fn with
  | 0x20 => [stepWord 5 2 0 0 0 1 0, stepWord 2 2 0 2 0 0 0, stepWord 6 2 2 0 0 1 0, stepWord 9 3 2 0 0 3 0,
      stepWord 10 3 3 0 0 0 0, stepWord 8 0 3 0 0 0 0, 0]
  | 0x21 => [stepWord 7 2 0 0 0 2 0, stepWord 9 3 2 0 0 2 0, stepWord 10 3 3 0 0 0 0, stepWord 11 4 0 0 0 0 0,
      stepWord 5 5 0 0 0 1 1, stepWord 3 0 4 5 3 0 0, 0]
  | 0x22 => [stepWord 7 2 0 0 0 0 0, stepWord 9 3 2 0 0 0 0, stepWord 4 4 2 3 7 0 0, stepWord 3 3 3 4 3 0 0,
      stepWord 10 3 3 0 0 0 0, stepWord 8 0 3 0 0 1 0, 0]
  | _ => [stepWord 7 2 0 0 0 1 0, stepWord 9 3 2 0 0 1 0, stepWord 2 4 3 3 0 0 0, stepWord 4 4 2 4 7 0 0,
      stepWord 5 5 0 0 0 1 2, stepWord 2 5 3 5 0 0 0, stepWord 3 3 5 4 3 0 0, stepWord 10 3 3 0 0 0 0,
      stepWord 8 0 3 0 0 2 0, 0]

/-! ## Results -/

/-- The outcome of the SF stage for one element: the result, DOMAIN, OVF and CLAMPHIT (R170). -/
structure SfOut where
  v : Val
  dom : Bool
  ovf : Bool
  hit : Bool

/-- The flags of R170 for an argument and its result. -/
def sfOut (a v : Val) (hit : Bool) : SfOut :=
  { v := v, dom := !a.isNaN && v.isNaN
    ovf := (match a, v with
      | .fin m _, .inf _ => m != 0
      | _, _ => false), hit := hit }

/-- The exact result of a built-in function at an argument that reaches the program. -/
def builtinExact (fn : Nat) (m e : Int) : Val :=
  match fn with
  | 0x20 => expVal m e
  | 0x21 => lnVal m e
  | 0x22 => rcpVal m e
  | _ => rsqrtVal m e

/-- A binary32 result held within the bound of R166: `k` ulps of the exact result (R167). -/
def holdUlps (k : Int) (f r : Val) : Val :=
  match f with
  | .fin m e =>
    let q := max (floorLog m e - 23) (-149)
    let lo := f.add (.fin (-k) q)
    let hi := f.add (.fin k q)
    let cut := fun (v : Val) (up : Bool) =>
      match v with
      | .fin m e =>
        let (m, e) := if e ≤ q then (m, e) else (m * pow2 (e - q), q)
        let d := pow2 (q - e)
        Val.fin (if up then -((-m).fdiv d) else m.fdiv d) q
      | v => v
    if r.lt lo then roundTo 1 (cut lo true) else if hi.lt r then roundTo 1 (cut hi false) else r
  | _ => r

/-- The arguments that R168 and R169 fix. -/
def builtinFixed (fn : Nat) (a : Val) : Option Val :=
  match a with
  | .nan => some .nan
  | .inf neg =>
    match fn with
    | 0x20 => some (if neg then .zero else .inf false)
    | 0x21 => some (if neg then .nan else .inf false)
    | 0x22 => some (if neg then .nzero else .zero)
    | _ => some (if neg then .nan else .zero)
  | .nzero =>
    match fn with
    | 0x20 => some (.fin 1 0)
    | _ => some (.inf true)
  | .fin m e =>
    if m = 0 then
      match fn with
      | 0x20 => some (.fin 1 0)
      | 0x21 => some (.inf true)
      | _ => some (.inf false)
    else
      let k := floorLog m e
      let pure2 := m.natAbs = 2 ^ Nat.log2 m.natAbs
      match fn with
      | 0x20 =>
        if !a.lt (fp32 0x42B17218) then some (.inf false)
        else if toFx m e ≤ -150 * ln2Fx then some .zero else none
      | 0x21 => if m < 0 then some .nan else if k = 0 && pure2 then some .zero else none
      | 0x22 => if pure2 then some (roundTo 1 (.fin (if m < 0 then -1 else 1) (-k))) else none
      | _ => if m < 0 then some .nan else if pure2 && k % 2 = 0 then some (.fin 1 (-(k / 2))) else none

/-- A built-in function (R166 to R170). -/
def Tile.builtin (t : Tile) (fn : Nat) (a : Val) : SfOut :=
  match builtinFixed fn a with
  | some v => sfOut a v false
  | none =>
    match a with
    | .fin m e =>
      let (v, hit) := t.sfProgram (romProgram fn) (SfRun.start a .zero)
      sfOut a (holdUlps (if fn < 0x22 then 3 else 1) (builtinExact fn m e) v) hit
    | v => sfOut a v false

/-- The value that a header action names (R178); none for `compute`. Code 0x7, which only a pattern record can bring and which the
check of R180 does not name, is taken as `compute` (assumption 64, DESIGN CHOICE). -/
def headerAction (code : Nat) (a : Val) : Option Val :=
  match code with
  | 1 => some .nan
  | 2 => some .zero
  | 3 => some .nzero
  | 4 => some (.inf false)
  | 5 => some (.inf true)
  | 6 => some a
  | _ => none

/-- Header of a micro-program slot. -/
def Tile.upHdr (t : Tile) (n : Nat) : Word := t.sfWord (72 + n)

/-- The steps of a micro-program slot, END included. -/
def Tile.upSteps (t : Tile) (n : Nat) : List Word :=
  (List.range (fld (t.upHdr n) 16 4 + 1)).map fun k => t.sfWord (88 + 16 * n + k)

/-- A micro-program (R178); `b` is +0 where the program uses no input b. -/
def Tile.microProgram (t : Tile) (n : Nat) (a b : Val) : SfOut :=
  if a.isNaN || b.isNaN then sfOut a .nan false
  else
    let h := t.upHdr n
    let code := match a with
      | .inf true => fld h 9 3
      | .inf false => fld h 6 3
      | v => if v.isZero then fld h 3 3 else if v.isNeg then fld h 12 3 else 0
    match headerAction code a with
    | some v => sfOut a v false
    | none =>
      let (v, hit) := t.sfProgram (t.upSteps n) (SfRun.start a b)
      sfOut a v hit

/-! ## Checks of micro-programs (R180) -/

/-- A step word is well formed (R177, R180). -/
def Tile.stepOk (t : Tile) (w : Word) : Bool :=
  zeroBits w 0 8 && sfOpc w < 0x0C && sfMode w ≤ sfModeMax (sfOpc w) &&
    (sfOpc w != 9 || sfMode w < 4 || (fld (t.utbl (sfMode w - 4) 385) 0 2 < 2 && fld (t.utbl (sfMode w - 4) 385) 3 29 == 0))

/-- A slot fails its check (R180). -/
def Tile.slotBad (t : Tile) (n : Nat) : Bool :=
  let steps := t.upSteps n
  !((steps.getLast?.map sfOpc) == some 0 && (steps.dropLast.all fun w => sfOpc w != 0) && steps.all t.stepOk)

/-- Every slot with VALID = 1 checked; SF_UPSTAT.BAD set or cleared (R180). -/
def Tile.checkSlots (t : Tile) : Tile :=
  t.setReg Reg.SF_UPSTAT ((List.range 16).foldl (fun w n =>
    if bitOf (t.upHdr n) 31 then (w &&& ~~~(at32 1 n)) ||| flag32 (t.slotBad n) n else w &&& ~~~(at32 1 n))
    (t.reg Reg.SF_UPSTAT))

/-- The registers that a step reads. -/
def stepReads (w : Word) : List Nat :=
  match sfOpc w with
  | 0x00 => [0]
  | 0x01 => [sfA w, sfB w]
  | 0x02 => [sfA w, sfB w]
  | 0x03 => [sfA w, sfB w, sfC w]
  | 0x04 => [sfA w, sfB w, sfC w]
  | 0x05 => []
  | 0x0B => []
  | _ => [sfA w]

/-- Whether a program reads p1 before it writes it, so that it uses input b (R146). -/
def usesB : List Word → Bool
  | [] => false
  | w :: ws => if 1 ∈ stepReads w then true else if sfOpc w = 0 || sfDst w = 1 then false else usesB ws

end Sys2Proof.Machine
end

