-- ==== Sys2Proof/Machine/Vector.lean ====
section
/-! DEFINITION. The vector chain: operations, selectors, function stages, masks, reductions, compress and expand, output
(R137 to R165), and the held SF fields (R181). -/

namespace Sys2Proof.Machine

/-! ## The operation (R141) -/

/-- An operand word, or the output word. -/
structure VcOpnd where
  fmt : Nat
  loc : Nat
  addr : Nat
  walk : Nat
  off : Nat
deriving DecidableEq, Repr

/-- A stage word. -/
structure VcStage where
  fn : Nat
  sa : Nat
  sb : Nat
  sc : Nat
  axis : Nat
  upi : Nat
deriving DecidableEq, Repr

def vcOpnd (w : Word) : VcOpnd := ⟨fld w 28 4, fld w 26 2, fld w 14 12, fld w 12 2, fld w 0 12⟩

def vcStage (w : Word) : VcStage := ⟨fld w 26 6, fld w 22 4, fld w 18 4, fld w 14 4, fld w 12 2, fld w 8 4⟩

def vcNstg (c : Cmd) : Nat := fld (c.w 0) 25 3 + 1
def vcMaskz (c : Cmd) : Bool := bitOf (c.w 0) 24
def vcMsel (c : Cmd) : Nat := fld (c.w 0) 20 4
def vcCount (c : Cmd) : Nat := fld (c.w 0) 7 13
def vcOperand (c : Cmd) (k : Nat) : VcOpnd := vcOpnd (c.w (1 + k))
def vcOut (c : Cmd) : VcOpnd := vcOpnd (c.w 5)
def vcStages (c : Cmd) : List VcStage := (List.range (vcNstg c)).map fun k => vcStage (c.w (6 + k))
def vcLast (c : Cmd) : VcStage := (vcStages c).getLastD ⟨0, 15, 15, 15, 0, 0⟩

def isReduction (fn : Nat) : Bool := 0x30 ≤ fn && fn ≤ 0x33
def isSf (fn : Nat) : Bool := 0x20 ≤ fn && fn ≤ 0x24
def isPackFn (fn : Nat) : Bool := fn == 0x38 || fn == 0x39

/-- The operation has an SF stage. -/
def vcHasSf (c : Cmd) : Bool := (vcStages c).any fun s => isSf s.fn

/-- Bytes of an element. -/
def elemBytes (fmt : Nat) : Nat := fmtBits fmt / 8

/-- The number of outputs of an operation (R154). -/
def vcOutCount (c : Cmd) : Nat :=
  let n := vcCount c
  let l := vcLast c
  if isReduction l.fn then
    match l.axis with
    | 0 => (n + 31) / 32
    | 1 => 32 * ((n + 1023) / 1024)
    | _ => 1
  else n

/-! ## Malformed operations (R144, R145, R156, R157, R180) -/

/-- Elements of an operand that its run covers. -/
def vcSpan (c : Cmd) (o : VcOpnd) : Nat := if o.walk = 0 then o.off + 1 else vcCount c

/-- A run of `n` elements stays within the scratchpad or the tile registers. -/
def vcRunOk (o : VcOpnd) (n : Nat) : Bool :=
  match o.loc with
  | 0 => 512 * o.addr + n * elemBytes o.fmt ≤ 512 * 4096
  | 1 => o.addr / 16 == 0 && o.addr + (n - 1) / 1024 ≤ 15
  | _ => true

/-- An operand word is well formed. -/
def vcOpndOk (c : Cmd) (k : Nat) : Bool :=
  let o := vcOperand c k
  if o.fmt = 0 then c.w (1 + k) == 0
  else o.walk != 3 && (o.walk == 0 || o.off == 0) &&
    (if o.loc < 2 then 1 ≤ o.fmt && o.fmt ≤ 6 && (o.walk != 2 || o.loc == 1) && vcRunOk o (vcSpan c o)
     else 4 ≤ o.fmt && o.fmt ≤ 9 && o.walk != 2 &&
       o.addr + (if o.walk = 0 then o.off else (vcCount c - 1) / 32) / 512 ≤ 4095)

/-- The output word is well formed. -/
def vcOutOk (c : Cmd) : Bool :=
  let o := vcOut c
  1 ≤ o.fmt && o.fmt ≤ 6 && o.loc < 2 && (o.walk == 1 || (o.walk == 2 && o.loc == 1)) &&
    vcRunOk o (vcOutCount c)

/-- A selector of stage `k` names a used operand or the result of an earlier stage. -/
def vcSelOk (c : Cmd) (k sel : Nat) : Bool :=
  if sel < 4 then (vcOperand c sel).fmt != 0 else 4 ≤ sel && sel ≤ 0xA && sel - 4 < k

/-- The number of inputs of a function, in the order a, b, c; none for a reserved code. UPROG takes b when its program reads
it (assumption 15). -/
def Tile.vcInputs (t : Tile) (s : VcStage) : Option Nat :=
  match s.fn with
  | 0x01 => some 1 | 0x02 => some 2 | 0x03 => some 2 | 0x04 => some 2 | 0x05 => some 3 | 0x06 => some 2
  | 0x07 => some 2 | 0x08 => some 1 | 0x09 => some 1 | 0x0A => some 2 | 0x0B => some 2 | 0x0C => some 2
  | 0x0D => some 3 | 0x0E => some 0 | 0x0F => some 1
  | 0x20 => some 1 | 0x21 => some 1 | 0x22 => some 1 | 0x23 => some 1
  | 0x24 => some (if usesB (t.upSteps s.upi) then 2 else 1)
  | 0x30 => some 1 | 0x31 => some 1 | 0x32 => some 1 | 0x33 => some 1 | 0x38 => some 1 | 0x39 => some 1
  | _ => none

/-- Stage `k` is well formed. -/
def Tile.vcStageOk (t : Tile) (c : Cmd) (k : Nat) : Bool :=
  let s := vcStage (c.w (6 + k))
  let last := k + 1 == vcNstg c
  match t.vcInputs s with
  | none => false
  | some n =>
    (if 1 ≤ n then vcSelOk c k s.sa else s.sa == 15) && (if 2 ≤ n then vcSelOk c k s.sb else s.sb == 15) &&
      (if 3 ≤ n then vcSelOk c k s.sc else s.sc == 15) &&
      (if isReduction s.fn then s.axis != 3 && last else s.axis == 0) && (s.fn == 0x24 || s.upi == 0) &&
      (s.fn != 0x38 || last)

/-- A slot that a UPROG stage names cannot run (R180). -/
def Tile.vcUndef (t : Tile) (c : Cmd) : Bool :=
  (vcStages c).any fun s => s.fn == 0x24 && (!bitOf (t.upHdr s.upi) 31 || bitOf (t.reg Reg.SF_UPSTAT) s.upi)

/-- The rules of EXPAND (R157). -/
def vcExpandOk (c : Cmd) : Bool :=
  match (List.range (vcNstg c)).find? fun k => (vcStage (c.w (6 + k))).fn == 0x39 with
  | none => true
  | some e =>
    let s := vcStage (c.w (6 + e))
    s.sa < 4 && (vcOperand c s.sa).walk == 1 && vcMsel c != 15 && vcMsel c != s.sa &&
      (vcMsel c < 4 || vcMsel c - 4 < e) &&
      (List.range (vcNstg c)).all fun k =>
        let x := vcStage (c.w (6 + k))
        k == e || (x.sa != s.sa && x.sb != s.sa && x.sc != s.sa)

/-- An operation is malformed (R145); its reserved bits are ignored (R13). -/
def Tile.vcMalformed (t : Tile) (c : Cmd) : Bool :=
  let n := vcNstg c
  let ms := vcMsel c
  let last := vcLast c
  !(c.verOk && 1 ≤ vcCount c && vcCount c ≤ 4096 &&
    (List.range 4).all (vcOpndOk c) && vcOutOk c && (List.range n).all (t.vcStageOk c) &&
    (ms == 15 || (ms < 4 && (vcOperand c ms).fmt != 0) || (4 ≤ ms && ms ≤ 0xA && ms - 4 + 1 < n)) &&
    ((vcStages c).filter fun s => isSf s.fn).length ≤ 1 && ((vcStages c).filter fun s => isPackFn s.fn).length ≤ 1 &&
    (!isReduction last.fn || !vcMaskz c) &&
    (last.fn != 0x38 || (ms != 15 && !vcMaskz c && (vcOut c).walk == 1)) && vcExpandOk c && !t.vcUndef c)

/-! ## binary32 arithmetic (R61, R146, R147) -/

def vAdd (a b : Val) : Val := roundTo 1 (a.add b)
def vMul (a b : Val) : Val := roundTo 1 (sMul a b)
def vFma (a b c : Val) : Val := roundTo 1 ((sMul a b).add c)

/-- The larger, or the smaller, of two values; of two zeros +0 is the larger. -/
def vMax (big : Bool) (a b : Val) : Val :=
  if a.isNaN || b.isNaN then .nan
  else if a.isZero && b.isZero then
    (if big then (if a.isNeg && b.isNeg then .nzero else .zero) else (if a.isNeg || b.isNeg then .nzero else .zero))
  else if a.lt b then (if big then b else a) else (if big then a else b)

/-- A comparison as binary32 1.0 or +0, NaN with a NaN input. -/
def vCmp (a b : Val) (r : Bool) : Val := if a.isNaN || b.isNaN then .nan else if r then .fin 1 0 else .zero

/-- RINT. -/
def vRint (a : Val) : Val :=
  match a with
  | .fin m e => if m = 0 then a else
      let n := splitInt m e false
      if n = 0 && m < 0 then .nzero else .fin n 0
  | v => v

/-- What a stage gives for element i, with its flags (R146). -/
def Tile.vcApply (t : Tile) (s : VcStage) (i : Nat) (a b c : Val) : SfOut :=
  let out := fun v => (⟨v, false, false, false⟩ : SfOut)
  match s.fn with
  | 0x01 => out a
  | 0x02 => out (vAdd a b)
  | 0x03 => out (vAdd a b.neg)
  | 0x04 => out (vMul a b)
  | 0x05 => out (vFma a b c)
  | 0x06 => out (vMax true a b)
  | 0x07 => out (vMax false a b)
  | 0x08 => out a.abs
  | 0x09 => out a.neg
  | 0x0A => out (vCmp a b (a.eqv b))
  | 0x0B => out (vCmp a b (a.lt b))
  | 0x0C => out (vCmp a b (a.lt b || a.eqv b))
  | 0x0D => out (if a.isNaN then .nan else if a.isZero then c else b)
  | 0x0E => out (.fin i 0)
  | 0x0F => out (vRint a)
  | 0x20 => t.builtin 0x20 a
  | 0x21 => t.builtin 0x21 a
  | 0x22 => t.builtin 0x22 a
  | 0x23 => t.builtin 0x23 a
  | 0x24 => t.microProgram s.upi a (if s.sb = 15 then .zero else b)
  | _ => out a

/-! ## Reductions (R154, R155) -/

def redIdentity (fn : Nat) : Val :=
  match fn with
  | 0x30 => .nzero
  | 0x31 => .inf true
  | 0x32 => .inf false
  | _ => .zero

def redCombine (fn : Nat) (a b : Val) : Val :=
  match fn with
  | 0x30 => vAdd a b
  | 0x31 => vMax true a b
  | 0x32 => vMax false a b
  | _ => vMax true a.abs b.abs

/-- One level of the pairwise tree. -/
def redLevel (fn : Nat) : List Val → List Val
  | a :: b :: r => redCombine fn a b :: redLevel fn r
  | l => l

/-- The fixed tree over a group of 32. -/
def redTree (fn : Nat) (l : List Val) : Val :=
  ((redLevel fn (redLevel fn (redLevel fn (redLevel fn (redLevel fn l))))).headD (redIdentity fn))

/-- The reduction of a run along an axis; `a i` is element i, with the identity where it does not take part, and `act i` says
whether it does. A group with no active element gives +0 for RSUM. -/
def reduce (fn axis n : Nat) (a : Nat → Val) (act : Nat → Bool) : List Val :=
  let group := fun (is : List Nat) =>
    if fn = 0x30 && !(is.any act) then Val.zero else redTree fn (is.map a)
  let chunks := (n + 1023) / 1024
  match axis with
  | 0 => (List.range ((n + 31) / 32)).map fun r => group (upto (32 * r) 32)
  | 1 => (List.range (32 * chunks)).map fun p =>
      group ((List.range 32).map fun r => 1024 * (p / 32) + 32 * r + p % 32)
  | _ =>
    let chunk := fun g => redTree fn ((List.range 32).map fun r => redTree fn ((upto (1024 * g + 32 * r) 32).map a))
    let v := (upto 1 (chunks - 1)).foldl (fun v g => redCombine fn v (chunk g)) (chunk 0)
    [if fn = 0x30 && !((List.range n).any act) then .zero else v]

/-! ## Operands (R142, R143) -/

/-- The rows of the scratchpad that an operand reads, for `n` elements of it. -/
def vcOpndRows (o : VcOpnd) (n : Nat) : List Nat :=
  if o.fmt = 0 then [] else
  match o.loc with
  | 0 =>
    if o.walk = 0 then [o.addr + o.off * elemBytes o.fmt / 512]
    else if n = 0 then [] else upto o.addr ((n * elemBytes o.fmt + 511) / 512)
  | 1 => []
  | _ => if o.walk = 0 then [o.addr + o.off / 512] else if n = 0 then [] else [o.addr]

/-- The tile register entry of element or position i. -/
def vcEntry (o : VcOpnd) (i : Nat) : Nat × Nat × Nat :=
  let r := o.addr % 16 + i / 1024
  if o.walk = 2 then (r, i % 32, i / 32 % 32) else (r, i / 32 % 32, i % 32)

/-- Element i of an operand, widened to binary32 (R142, R143, R162): NaN from a poisoned row. `x` holds the operand's scratchpad rows
and `h` the value that a stride-zero register operand holds. -/
def Tile.vcElem (t : Tile) (x : Rows) (h : Val) (o : VcOpnd) (i : Nat) : Val :=
  let j := if o.walk = 0 then o.off else i
  match o.loc with
  | 0 =>
    if x.poison (o.addr + j * elemBytes o.fmt / 512) then .nan
    else decodeSigned o.fmt (elemAt o.fmt (x.plane o.addr) j)
  | 1 =>
    if o.walk = 0 then h
    else
      let (n, r, c) := vcEntry o j
      decodeSigned o.fmt ((t.trfGet n r c).toNat % 2 ^ fmtBits o.fmt)
  | l =>
    let b := if o.walk = 0 then o.off else i / 32
    if x.poison (o.addr + b / 512) then .nan
    else
      let s := x.plane o.addr b
      if s = 0xFF then .nan else .fin 1 (if l = 2 then (s : Int) - 127 else 127 - (s : Int))

/-- What a stride-zero register operand holds for the whole operation. -/
def Tile.vcHold (t : Tile) (o : VcOpnd) : Val :=
  if o.fmt != 0 && o.loc == 1 && o.walk == 0 then
    let (n, r, c) := vcEntry o o.off
    decodeSigned o.fmt ((t.trfGet n r c).toNat % 2 ^ fmtBits o.fmt)
  else .zero

/-- Rows of a run of tile registers, numbered after the scratchpad's rows. -/
def trfRows (o : VcOpnd) (n : Nat) : List Nat :=
  if o.walk = 2 then (List.range (((n + 1023) / 1024) * 32)).map fun k => 4096 + 32 * (o.addr % 16) + k
  else upto (4096 + 32 * (o.addr % 16)) ((n + 31) / 32)

/-- The rows that an operation reads, tile register rows after the scratchpad's; a walk by columns counts as every row of its registers
(R159; assumption 79). -/
def vcReads (c : Cmd) : List Nat :=
  (List.range 4).flatMap fun k =>
    let o := vcOperand c k
    if o.fmt = 0 then [] else if o.loc = 1 then
      (if o.walk = 0 then [4096 + 32 * (o.addr % 16) + o.off / 32] else trfRows o (vcCount c))
    else vcOpndRows o (vcCount c)

/-- The rows that an operation writes: those of its whole output, also where the mask or COMPRESS leaves one unwritten (R159;
assumption 79). -/
def vcWrites (c : Cmd) : List Nat :=
  let o := vcOut c
  if o.loc = 1 then trfRows o (vcOutCount c) else vcOpndRows o (vcOutCount c)

/-! ## The chain -/

/-- What one element leaves: the stage results, the flags of its SF stage, and whether its lane is active. -/
structure VcLane where
  vals : List Val
  dom : Bool
  ovf : Bool
  hit : Bool

/-- The value that a selector names for element i. -/
def vcSelect (ops : Nat → Val) (res : List Val) (sel : Nat) : Val := if sel < 4 then ops sel else res.getD (sel - 4) .nan

/-- A lane is active by its mask value (R153). -/
def laneActive (c : Cmd) (ops : Nat → Val) (res : List Val) : Bool :=
  vcMsel c == 15 || !(vcSelect ops res (vcMsel c)).isZero

/-- Stages run for element i. EXPAND takes packed element `k` at an active lane and +0 elsewhere (R157). -/
def Tile.vcLane (t : Tile) (c : Cmd) (ops : Nat → Val) (packed : Nat → Val) (i k : Nat) (stages : List VcStage) : VcLane :=
  stages.foldl (fun l s =>
    let sel := vcSelect ops l.vals
    if s.fn = 0x39 then { l with vals := l.vals ++ [if laneActive c ops l.vals then packed k else .zero] }
    else
      let r := t.vcApply s i (sel s.sa) (sel s.sb) (sel s.sc)
      { vals := l.vals ++ [r.v], dom := l.dom || r.dom, ovf := l.ovf || r.ovf, hit := l.hit || r.hit })
    ⟨[], false, false, false⟩

/-- The stages that the mask of an EXPAND operation needs (R157). -/
def maskStages (c : Cmd) : List VcStage := if vcMsel c < 4 then [] else (vcStages c).take (vcMsel c - 3)

/-- An output value as it is written (R47, R148): a zero as +0, a -0 from a stage's own rounding too (assumption 15); the element code,
saturation, and a NaN lost. -/
def vcEncode (fmt : Nat) (v : Val) : Enc := encodeElem fmt none v.plain

/-! ## Beats (R149 to R152, R160) -/

/-- A streaming element operand: row or column walk, in the scratchpad (`loc` 0) or the tile registers (`loc` 1). -/
def VcOpnd.streams (o : VcOpnd) (loc : Nat) : Bool := o.fmt != 0 && o.loc == loc && o.walk != 0

/-- Elements per beat (R149): 32, 64 or 128 by the widest streaming element operand or output. -/
def vcBeat (c : Cmd) : Nat :=
  let ws := (List.range 4).map fun k =>
    let o := vcOperand c k
    if o.streams 0 || o.streams 1 then elemBytes o.fmt else 1
  128 / ws.foldl max (elemBytes (vcOut c).fmt)

/-- Tile register rows per beat that the streaming register operands need (R149). -/
def vcRegRows (c : Cmd) : Nat := ((List.range 4).filter fun k => (vcOperand c k).streams 1).length * (vcBeat c / 32)

/-- Tile cycles between beats (R150). -/
def vcInterval (c : Cmd) : Nat :=
  let n := ((List.range 4).filter fun k => (vcOperand c k).streams 0).length
  max (max 1 (if vcHasSf c then vcBeat c / 8 else 1)) (max ((n + 1) / 2) ((vcRegRows c + 3) / 4))

/-- Tile cycles that a stage adds (R160, R175). -/
def Tile.vcLatency (t : Tile) (s : VcStage) : Nat :=
  match s.fn with
  | 0x05 => 3
  | 0x20 => 14
  | 0x21 => 14
  | 0x22 => 14
  | 0x23 => 20
  | 0x24 => 2 * (t.upSteps s.upi).length
  | fn => if isReduction fn then 6 else 2

/-- The first cycle from `c` on that is `r` modulo `m`. -/
def slotFrom (c m r : Nat) : Nat := c + (r + m - c % m) % m

/-- An operation in progress beat by beat: the tile, the scratchpad rows read for each operand, what its stride-zero register
operands hold, the cycles in which its next read and write may be issued, the cycles in which its beats entered, newest first, and the
last beats of the rows in its read buffer, latest first; results and active lanes so far, the output positions settled, output codes that wait for
their row, writes issued and not yet applied with their cycles, rows written; the units that wait for the register ports (the MU and
the LA to read, the LA to write), the next cycle of the ports to be counted, how often in a row they have been refused, the cycles by which
yields move register writes, and the cycles in which the operation uses the ports; and its events. -/
structure VcFlow where
  tile : Tile
  rows : List Rows
  asks : Bool × Bool × Bool := (false, false, false)
  next : Nat := 0
  refused : Nat × Nat := (0, 0)
  late : Nat := 0
  use : List (Nat × Nat × Nat) := []
  hold : List Val := []
  rslot : Nat
  wslot : Nat
  ready : Nat := 0
  enters : List Nat := []
  frees : List Nat := []
  lanes : Array (Val × Bool) := #[]
  on : Nat := 0
  outs : Nat := 0
  gather : List (Nat × Nat) := []
  spW : List (Nat × Nat × Nat × List Byte) := []
  trfW : List (Nat × Nat × Nat) := []
  done : List (Nat × Nat) := []
  gated : Bool := false
  sat : Bool := false
  lost : Bool := false
  dom : Bool := false
  ovf : Bool := false
  hit : Bool := false

/-- Scratchpad writes issued before cycle `c` applied (R228). -/
def VcFlow.applySp (f : VcFlow) (me : Site) (c : Nat) : VcFlow :=
  let now := f.spW.takeWhile fun w => w.1 < c
  { f with tile := now.foldl (fun t w => t.writeRow me w.2.1 w.2.2.1 w.2.2.2 false 0) f.tile, spW := f.spW.drop now.length }

/-- Tile register writes applied before cycle `c` (R138). -/
def VcFlow.applyTrf (f : VcFlow) (o : VcOpnd) (c : Nat) : VcFlow :=
  let now := f.trfW.takeWhile fun w => w.1 < c
  { f with tile := now.foldl (fun t w => let (n, r, col) := vcEntry o w.2.1; t.trfSet n r col (BitVec.ofNat 32 w.2.2)) f.tile
           trfW := f.trfW.drop now.length }

/-- A number put into a list that falls. -/
def insertDown (b : Nat) : List Nat → List Nat
  | [] => [b]
  | x :: xs => if x < b then b :: x :: xs else x :: insertDown b xs

/-- A row of operand `k` read in the first read slot at which it may be (R151, R160): a row that streams, used up to beat `last`,
waits for one of the eight places of the read buffer, each of which is free once the last beat of its row has entered. -/
def VcFlow.readRow (f : VcFlow) (me : Site) (k row : Nat) (last : Option Nat) : VcFlow :=
  let room := match last, f.frees[7]? with
    | some _, some b => f.enters.reverse.getD b 0 + 1
    | _, _ => 0
  let c := slotFrom (max f.rslot room) 2 0
  let f := f.applySp me c
  let rr := f.tile.readRow me row
  { f with tile := rr.tile, rslot := c + 1, ready := max f.ready (c + 6), gated := f.gated || rr.gated
           frees := match last with
             | some b => insertDown b f.frees
             | none => f.frees
           rows := f.rows.modify k fun x =>
             { rows := x.rows ++ [row], bytes := x.bytes ++ (rr.bytes.map (·.toNat)).toArray, bad := x.bad ++ rr.poisoned } }

/-- The rows of a streaming scratchpad operand that elements `lo` to `hi - 1` need and that have not been read. -/
def VcFlow.fetchRun (f : VcFlow) (me : Site) (c : Cmd) (k lo hi : Nat) : VcFlow :=
  let o := vcOperand c k
  let s := elemBytes o.fmt
  if hi ≤ lo || !o.streams 0 then f
  else (upto (o.addr + lo * s / 512) ((hi * s - 1) / 512 - lo * s / 512 + 1)).foldl (fun f row =>
    if (f.rows.getD k ⟨[], #[], []⟩).rows.contains row then f
    else f.readRow me k row (some ((512 * (row + 1 - o.addr) / s - 1) / vcBeat c))) f

/-- The single rows of stride-zero and scale operands, in operand order (R160). -/
def VcFlow.fetchSingles (f : VcFlow) (me : Site) (c : Cmd) : VcFlow :=
  (List.range 4).foldl (fun f k =>
    let o := vcOperand c k
    if o.fmt = 0 || o.streams 0 || o.loc = 1 then f
    else (vcOpndRows o (vcCount c)).foldl (fun f row => f.readRow me k row none) f) f

/-- Outputs settled by results up to element `hi` (R152 to R157): their positions and values, from position `f.outs` on. -/
def VcFlow.settled (f : VcFlow) (c : Cmd) (lo hi : Nat) : Nat × List (Nat × Val) :=
  let n := vcCount c
  let last := vcLast c
  let lane := fun i => f.lanes.getD i (redIdentity last.fn, false)
  let act := fun i => (lane i).2
  if isReduction last.fn then
    let m := if hi = n then vcOutCount c
      else match last.axis with
        | 0 => hi / 32
        | 1 => 32 * (hi / 1024)
        | _ => 0
    if m ≤ f.outs then (m, [])
    else
      let outs := reduce last.fn last.axis n (fun i => if act i then (lane i).1 else redIdentity last.fn) act
      (m, (upto f.outs (m - f.outs)).map fun p => (p, outs.getD p .nan))
  else if last.fn = 0x38 then
    let on := (upto lo (hi - lo)).filter act
    (f.outs + on.length, (List.range on.length).map fun j => (f.outs + j, (lane (on.getD j 0)).1))
  else
    (hi, ((upto lo (hi - lo)).filter fun i => act i || vcMaskz c).map fun i => (i, if act i then (lane i).1 else .zero))

/-- The write slot of each row in turn, from slot `w` on (R160). -/
def rowSlots : Nat → List Nat → List (Nat × Nat)
  | _, [] => []
  | w, r :: rs => let a := slotFrom w 4 2; (r, a) :: rowSlots (a + 1) rs

/-- Register rows that output positions take of the write port in one cycle: 32 to a row, or to a column (R138). -/
def rowsOf (ps : List Nat) : Nat := ((ps.map (· / 32)).eraseDups).length

/-- Output codes that become ready in cycle `rdy` put on their way (R160): register writes at once, scratchpad bytes when their row
is whole or the operation ends, each row as one write under a byte mask. -/
def VcFlow.put (f : VcFlow) (c : Cmd) (rdy m : Nat) (final : Bool) (codes : List (Nat × Nat)) : VcFlow :=
  let o := vcOut c
  if o.loc = 1 then
    { f with outs := m, trfW := f.trfW ++ codes.map fun pc => (rdy + f.late, pc.1, pc.2)
             use := if codes.isEmpty then f.use else f.use ++ [(rdy + f.late, 0, rowsOf (codes.map (·.1)))] }
  else
    let s := elemBytes o.fmt
    let all := f.gather ++ codes
    let whole := fun pc : Nat × Nat => final || 512 * (pc.1 * s / 512 + 1) ≤ m * s
    let ws := rowWrites ((all.filter whole).map fun pc => (512 * o.addr + pc.1 * s, leBytes s pc.2))
    let at' := rowSlots (max f.wslot (rdy + 1)) ((ws.map (·.1)).eraseDups)
    { f with outs := m, gather := all.filter fun pc => !whole pc
             wslot := (at'.getLast?.map (·.2 + 1)).getD f.wslot
             spW := f.spW ++ ws.map fun w => ((at'.lookup w.1).getD 0, w.1, w.2.1, w.2.2)
             done := f.done ++ at'.map fun a => (a.1, 1) }

/-- A yield cycle of the register ports (R139): register writes due in it or later are applied one tile cycle later. -/
def VcFlow.yield (f : VcFlow) (y : Nat) : VcFlow :=
  { f with refused := (0, 0), next := y + 1
           trfW := f.trfW.map fun w => if w.1 < y then w else (w.1 + 1, w.2)
           use := f.use.map fun u => if u.1 < y then u else (u.1 + 1, u.2) }

/-- One cycle of the register ports in which the operation reads `rd` rows, counted for the units that wait; after 16 refusals in a row of
one of them it is a yield cycle (R139). -/
def VcFlow.portCycle (f : VcFlow) (rd : Nat) : VcFlow × Bool :=
  if f.refused.1 = 16 || f.refused.2 = 16 then (f.yield f.next, true)
  else
    let wr := (f.use.filter fun u => u.1 = f.next).foldl (fun a u => a + u.2.2) 0
    let (mu, la, st) := f.asks
    let count := fun (b : Bool) n => if b then n + 1 else 0
    ({ f with next := f.next + 1
              refused := (count (mu && 4 ≤ rd) f.refused.1,
                count ((la && 4 < rd + (if mu then 2 else 1)) || (st && 4 ≤ wr)) f.refused.2) }, false)

/-- The cycles of the ports up to the reads of a beat that would enter in cycle `e` and reads `rows` register rows, four to a cycle; the
cycle in which it enters. A beat whose reads fall in a yield cycle enters a cycle later; a yield that holds no beat moves the later
register writes (R139, R150). -/
def VcFlow.ports (f : VcFlow) (rows e : Nat) : VcFlow × Nat :=
  if f.asks == (false, false, false) then ({ f with next := e }, e)
  else
    let k := (rows + 3) / 4
    let f := (List.range (e - k - f.next)).foldl (fun f _ =>
      let (g, y) := f.portCycle 0
      if y then { g with late := g.late + 1 } else g) f
    (List.range k).foldl (fun (a : VcFlow × Nat) j =>
      let rd := min 4 (rows - 4 * j)
      let (g, y) := a.1.portCycle rd
      if y then ((g.portCycle rd).1, a.2 + 1) else (g, a.2)) (f, e)

/-- The register reads of a beat that enters in cycle `e` noted, four rows to a cycle, the last of them in the cycle before it enters
(R138, R160). -/
def VcFlow.readTrf (f : VcFlow) (rows e : Nat) : VcFlow :=
  let k := (rows + 3) / 4
  { f with use := f.use ++ (List.range k).map fun j => (e + j - k, min 4 (rows - 4 * j), 0) }

/-- A beat of elements `lo` to `hi - 1` (R139, R150 to R160): rows, entry, register reads, stages, outputs. The packed rows of an EXPAND,
whose need the mask decides, are read after the other operands' (assumption 79). -/
def VcFlow.beat (f : VcFlow) (me : Site) (c : Cmd) (lo hi : Nat) : VcFlow :=
  let stages := vcStages c
  let expand := stages.find? fun s => s.fn == 0x39
  let pk := (expand.map (·.sa)).getD 15
  let f := (List.range 4).foldl (fun f k => if k = pk then f else f.fetchRun me c k lo hi) f
  let opIn := fun (f : VcFlow) (i k : Nat) =>
    f.tile.vcElem (f.rows.getD k ⟨[], #[], []⟩) (f.hold.getD k .zero) (vcOperand c k) i
  let entry := fun f : VcFlow => max f.ready (match f.enters with
    | [] => f.rslot
    | e :: _ => e + vcInterval c)
  -- the active lanes of an EXPAND, which fix the packed elements that the beat reads
  let g := f.applyTrf (vcOut c) (entry f - 1)
  let pre := match expand with
    | none => []
    | some _ => (upto lo (hi - lo)).map fun i =>
        laneActive c (opIn g i) (g.tile.vcLane c (opIn g i) (fun _ => .zero) i 0 (maskStages c)).vals
  let below := fun i => f.on + ((pre.take (i - lo)).filter id).length
  let f := if expand.isSome then f.fetchRun me c pk f.on (below hi) else f
  let (f, e) := f.ports (vcRegRows c) (entry f)
  let f := (f.readTrf (vcRegRows c) e).applyTrf (vcOut c) (e - 1)
  let f := if f.enters.isEmpty then { f with hold := (List.range 4).map fun k => f.tile.vcHold (vcOperand c k) } else f
  let ls : List (VcLane × Bool) := (upto lo (hi - lo)).map fun i =>
    let l := f.tile.vcLane c (opIn f i) (fun j => opIn f j pk) i (below i) stages
    (l, laneActive c (opIn f i) l.vals)
  let seen := (ls.filter (·.2)).map (·.1)
  let f := { f with enters := e :: f.enters, on := f.on + seen.length
                    lanes := f.lanes ++ (ls.map fun l : VcLane × Bool => ((l.1.vals.getLast?).getD .nan, l.2)).toArray
                    dom := f.dom || seen.any (·.dom), ovf := f.ovf || seen.any (·.ovf), hit := f.hit || seen.any (·.hit) }
  let (m, vals) := f.settled c lo hi
  let encs : List (Nat × Enc) := vals.map fun pv : Nat × Val => (pv.1, vcEncode (vcOut c).fmt pv.2)
  let f := { f with sat := f.sat || encs.any (·.2.sat), lost := f.lost || encs.any (·.2.lost) }
  f.put c (e + 2 + (stages.map f.tile.vcLatency).sum) m (hi == vcCount c) (encs.map fun pe : Nat × Enc => (pe.1, pe.2.code))

/-- Every beat of an operation that starts in tile cycle `now`, and its last writes (R149 to R162). -/
def Tile.vcFlow (t : Tile) (me : Site) (c : Cmd) (now : Nat) : VcFlow :=
  let w := vcBeat c
  let n := vcCount c
  let f : VcFlow := { tile := t, rows := List.replicate 4 ⟨[], #[], []⟩, rslot := now, wslot := now, ready := now + 1, next := now
                      asks := (t.muAsks, t.laAsks laReads, t.laAsks laStores), refused := t.trfRefused }
  let f := (List.range ((n + w - 1) / w)).foldl (fun f b => f.beat me c (b * w) (min n (b * w + w))) (f.fetchSingles me c)
  let stop := f.spW.foldl (fun m x => max m (x.1 + 1)) (f.trfW.foldl (fun m x => max m (x.1 + 1)) 0)
  (f.applySp me stop).applyTrf (vcOut c) stop

/-- A VC operation runs (R149 to R162) from tile cycle `now`, counted from the round origin. -/
def Tile.vcRun (t : Tile) (me : Site) (c : Cmd) (ph : Phys) (now : Nat) : Tile :=
  let f := (t.phys ph).vcFlow me c now
  let poison := f.rows.any fun x => !x.bad.isEmpty
  let isPack := (vcStages c).any fun s => isPackFn s.fn
  let t := f.tile
  let t := if poison then (t.flagBit Reg.VC_ERR 1).err 1 else t
  let t := if f.sat then t.flagBit Reg.VC_ERR 2 else t
  let t := if f.lost then (t.flagBit Reg.VC_ERR 3).err 2 else t
  let t := if f.dom then t.flagBit Reg.SF_ERR 1 else t
  let t := if f.ovf then t.flagBit Reg.SF_ERR 2 else t
  let t := if f.hit then t.flagBit Reg.SF_ERR 0 else t
  let t := if isPack then t.setReg Reg.VC_LAST_COUNT (BitVec.ofNat 32 f.on) else t
  { t with fresh := t.fresh + 1 }.begin .vc
    { cmd := c, dataerr := poison || f.lost || f.gated, errRaised := poison
      value := if isPack then BitVec.ofNat 16 f.on else 0
      writes := f.done, trf := f.use
      sf := if vcHasSf c then some t.sfGen else none }

/-- An operation may start (R159): no earlier operation that has not completed writes a row that it reads. -/
def Tile.vcReady (t : Tile) (c : Cmd) : Bool :=
  !(t.units.vc.running.any fun r => !r.malformed && (vcWrites r.cmd).any fun w => (vcReads c).contains w)

/-- A VC operation at the head of the queue starts or is rejected (R145, R159, R180). -/
def Tile.vcStart (t : Tile) (me : Site) (ph : Phys) (now : Nat) : Tile :=
  match t.units.vc.queue with
  | [] => t
  | c :: _ =>
    if c.badFence || t.vcMalformed c then
      (if t.vcUndef c then t.flagBit Reg.SF_ERR 3 else t).reject .vc c
    else if t.fenceMet c && t.vcReady c then t.vcRun me c ph now else t

/-! ## The rows of the table -/

/-- VC_OPERATION (R159). -/
def execVcOperation (site : Site) (ph : Phys) (s : State) : Host.Outcome State Fault Refusal :=
  live s fun s => s.onUnits site fun t => t.vcStart site ph (s.cycleOf site)

/-- A yield cycle of the register ports: the reads and writes of the VC that fall in it, and all later ones, move by one tile cycle, and
the counts of refusals start again; where the VC uses no port in it, nothing moves (R139). -/
def Tile.trfYield (t : Tile) (now : Nat) : Tile :=
  let t := { t with trfRefused := (0, 0) }
  if t.vcRows now = (0, 0) then t
  else t.onUnit .vc fun x =>
    { x with running := x.running.map fun r => { r with trf := r.trf.map fun u => if u.1 < now then u else (u.1 + 1, u.2) } }

/-- TRF_YIELD_CYCLE (R139): the MU or the LA, refused for 16 consecutive tile cycles, is served. -/
def execTrfYieldCycle (site : Site) (s : State) : Host.Outcome State Fault Refusal :=
  live s fun s => s.onUnits site fun t =>
    if t.trfRefused.1 = 16 || t.trfRefused.2 = 16 then t.trfYield (s.cycleOf site) else t

/-- An operation with an SF stage that started before an earlier commit of SF fields still runs (R181). -/
def Tile.sfOldRunning (t : Tile) : Bool :=
  t.units.vc.running.any fun r =>
    match r.sf with
    | some g => g < t.sfGen
    | none => false

/-- The held SF fields take effect (R181), and the slots are checked (R180). -/
def Tile.sfApply (t : Tile) : Tile :=
  if t.sfHeld.isSome && !t.sfOldRunning then { t with sfHeld := none, sfGen := t.sfGen + 1 }.checkSlots else t

/-- SF_FIELDS_APPLY (R181): the operation on the old copy has completed and the held SF fields take effect. -/
def execSfFieldsApply (site : Site) (s : State) : Host.Outcome State Fault Refusal :=
  live s fun s => s.onUnits site fun t => t.sfApply

end Sys2Proof.Machine
end

