-- ==== Sys2Proof/Machine/Stitch.lean ====
section
/-! DEFINITION. Configuration groups, pattern records, stitches, epochs and spills at a tile (R196, R242, R248, R265, R287, R289,
R296 to R322). -/

namespace Sys2Proof.Machine

/-! ## Checks at a commit (R242, R248, R255, R287, R289) -/

/-- An image word with its EN bit cleared. -/
def clearEn (w : Word) : Word := w &&& 0x7FFFFFFF

/-- A generator's own setting is one that R287 allows, for commands of `n` words. -/
def genOk (n : Nat) (w : Word) : Bool := fld w 27 4 < n && fld w 22 5 + fld w 17 5 ≤ 31 && fld w 14 3 < 5

/-- The fields of two generators overlap. -/
def genOverlap (a b : Word) : Bool :=
  fld a 27 4 == fld b 27 4 && fld a 22 5 ≤ fld b 22 5 + fld b 17 5 && fld b 22 5 ≤ fld a 22 5 + fld a 17 5

/-- The sequencer words of an image as the commit leaves them, and whether it disabled a generator or a port (R287, R289). -/
def fixSequencer (g : Nat) (m : Map Word) : Map Word × Bool :=
  let n := cmdLen g (slotWord g m 4)
  let gw := fun k => slotWord g m (18 + k)
  let good := fun k => bitOf (gw k) 31 && genOk n (gw k)
  let badGens := (List.range 8).filter fun k => bitOf (gw k) 31 &&
    (!good k || (List.range 8).any fun j => j != k && bitOf (gw j) 31 && genOverlap (gw k) (gw j))
  let badPorts := (List.range 4).filter fun p =>
    bitOf (slotWord g m (42 + p)) 31 && fld (slotWord g m (42 + p)) 28 3 == 0
  let ks := badGens.map (18 + ·) ++ badPorts.map (42 + ·)
  (ks.foldl (fun m k => Map.upd (voidWord g) m k clearEn) m, !ks.isEmpty)

/-- Two spools share a row; a spool of SIZE 0 covers none (R241, R242). -/
def spoolsMeet (a b : Word) : Bool :=
  spoolSize a != 0 && spoolSize b != 0 && spoolBase a < spoolBase b + spoolSize b && spoolBase b < spoolBase a + spoolSize a

/-- The spools of an image as the commit leaves them, and whether it left one disabled (R242). -/
def fixSpools (m : Map Word) : Map Word × Bool :=
  let c := fun n => slotWord 3 m (57 + n)
  let good := fun n => bitOf (c n) 31 && spoolSize (c n) != 0 && spoolBase (c n) + spoolSize (c n) ≤ 4096
  let bad := (List.range 32).filter fun n => bitOf (c n) 31 &&
    (!good n || (List.range 32).any fun k => k != n && bitOf (c k) 31 && spoolsMeet (c n) (c k))
  (bad.foldl (fun m n => Map.upd (voidWord 3) m (57 + n) clearEn) m, !bad.isEmpty)

/-- The window policy admits a window's class (R523). -/
def classOk (prot w : Word) : Bool := if bitOf w 30 then bitOf prot 0 && bitOf prot 2 else bitOf prot 1

/-- A window that holds no row (R255). -/
def windowEmpty (w : Word) : Bool := fld w 12 13 == 0 || 4096 < fld w 0 12 + fld w 12 13

/-- MODE and the windows of an image under the window policy, and whether SP_ERR.SETUP is set (R248, R255). -/
def fixWindows (prot : Word) (m : Map Word) : Map Word × Bool :=
  let badMode := bitOf (slotWord 3 m 56) 0 && !bitOf prot 0
  let w := fun n => slotWord 3 m (89 + n)
  let shut := (List.range 16).filter fun n => bitOf (w n) 31 && !classOk prot (w n)
  let empty := (List.range 16).any fun n => bitOf (w n) 31 && windowEmpty (w n)
  let m := if badMode then Map.set (voidWord 3) m 56 0 else m
  (shut.foldl (fun m n => Map.upd (voidWord 3) m (89 + n) clearEn) m, badMode || empty || !shut.isEmpty)

/-- HEAD, TAIL and FULL of every spool whose EN, BASE or SIZE the commit changed become 0 (R242). -/
def Tile.resetSpools (t : Tile) (old new : Map Word) : Tile :=
  ((List.range 32).filter fun n =>
    (slotWord 3 old (57 + n) &&& 0xBFFFFFFF) != (slotWord 3 new (57 + n) &&& 0xBFFFFFFF)).foldl
    (fun t n => t.setSpool n { t.spool n with head := 0, tail := 0, full := false }) t

/-- The new active image of a group: its standby image after the checks that the commit makes. -/
def Tile.checkedImage (t : Tile) (prot : Word) (g : Nat) : Map Word × Tile :=
  let m := (t.group g).standby
  let (m, t) := if g < 5 then
      let (m, bad) := fixSequencer g m
      (m, if bad then t.flagBit Reg.TC_WV_ERR 3 else t)
    else (m, t)
  if g = 3 then
    let (m, badS) := fixSpools m
    let (m, badW) := fixWindows prot m
    let t := if badS then t.flagBit Reg.SP_ERR 5 else t
    (m, if badW then t.flagBit Reg.SP_ERR 8 else t)
  else (m, t)

/-! ## Switching a group (R265, R268, R313, R314) -/

/-- The ports of a unit or steering unit that are in use in the active slot (R289, R291). -/
def Tile.portsInUse (t : Tile) (u : Nat) : List Nat :=
  if u < 5 then (List.range 4).filter (t.outEn u)
  else if bitOf (t.suCfg (u - 8)) 31 then (if bitOf (t.suCfg (u - 8)) 27 then [0, 1] else [0]) else []

/-- One EMARK on every port in use, behind every token that the ports have emitted (R314). -/
def Tile.emitMarks (t : Tile) (e : Env) (g stitch new : Nat) : Tile :=
  (unitsOfGroup g).foldl (fun t u =>
    (t.portsInUse u).foldl (fun t p => t.emit e u p (mkMark (t.group g).epoch.toNat stitch new)) t) t

/-- The markers at the heads of a group's needed queues are popped (R314, R316). -/
def Tile.popMarks (t : Tile) (g : Nat) (f : HeadFate) : Tile :=
  (unitsOfGroup g).foldl (fun t u =>
    (t.everNeeded u).foldl (fun t q => if t.headFate u q == f then (t.pop u q).2 else t) t) t

/-- The credits of a group's ports after a switch from the old tile's active slot (R265). -/
def Tile.restartPorts (old t : Tile) (g : Nat) : Tile :=
  (unitsOfGroup g).foldl (fun t u =>
    (List.range (if u < 5 then 4 else 2)).foldl (fun t p =>
      let was := (old.portsInUse u).contains p
      let now := (t.portsInUse u).contains p
      let a := old.dstWord u p
      let b := t.dstWord u p
      let x := t.portSt u p
      if was == now && a &&& 0xFFFFFFF0 == b &&& 0xFFFFFFF0 then t
      else if was && (a &&& 0xFFFFFE00) == (b &&& 0xFFFFFE00) then
        t.setPortSt u p { x with credits := t.portCredits u p - x.outstanding }
      else t.setPortSt u p { credits := t.portCredits u p, outstanding := 0, gen := x.gen + 1 }) t) t

/-- A sequencer at the switch of its group: the run in progress ends, and a new one starts if the new slot enables it (R268,
R314). A run that had fired sets MIDRUN. A halted sequencer stays halted but where the commit has `wrote` its control word (R273). -/
def Tile.restartSeq (t : Tile) (me : Site) (u : Nat) (wrote : Bool) : Tile :=
  let x := t.seq u
  let t := if x.run && x.fired then t.flagBit Reg.TC_EP_ERR 1 else t
  let t := if x.halted && !wrote then t else t.setSeq u { SeqSt.reset with run := bitOf (t.act u 0) 31 }
  (t.endCurrent u).release me

/-- A code switch becomes pending; a core halted otherwise than by a freeze takes it at once (R196, R224). -/
def Tile.codeSwitch (t : Tile) : Tile :=
  let t := t.flagBit Reg.TC_EVT 1
  let halted := t.core.mode == .halted && t.freeze.coreWas == .halted
  if halted then t else { t with core := { t.core with swpend := true } }

/-- A group's standby slot becomes active with epoch NEW; the new standby is its exact copy, with the held writes applied
(R297, R298, R305). A switch that changes an SF field is checked and takes effect for later operations, or is held (R180, R181). -/
def Tile.activate (t : Tile) (prot : Word) (g : Nat) (new : BitVec 4) : Tile :=
  let old := t
  let (m, t) := t.noKeep.checkedImage prot g
  let x := t.group g
  let standby := x.heldW.foldl (fun s (w : Nat × Word × Word) =>
    Map.upd (voidWord g) s w.1 fun v => mergeMask w.2.1 v w.2.2) m
  let kept := if g < 7 then some (crc32cWords (slotImage g m)) else none
  let sf := g = 2 && ((slotImage 2 x.active).drop 56 != (slotImage 2 m).drop 56)
  let t := if sf && t.sfOldRunning then { t with sfHeld := some (t.sfHeld.getD x.active) } else t
  let t := t.setGroup g { active := m, standby := standby, epoch := if g < 7 then new else 0, kept := kept, heldW := []
                          patbad := false, wroteCtl := x.heldW.any fun w => w.1 == 0 }
  let t := if sf && t.sfHeld.isNone then { t with sfGen := t.sfGen + 1 }.checkSlots else t
  let t := if g = 3 then t.resetSpools x.active m else t
  let t := Tile.restartPorts old t g
  if g = 6 && slotWord 6 x.active 1 != slotWord 6 m 1 then t.codeSwitch
  else if g = 7 && slotWord 7 x.active 0 != slotWord 7 m 0 then (t.setReg Reg.WF_WREDIR0 0).setReg Reg.WF_WREDIR1 0
  else t

/-- A tile whose freeze is in force (R323). -/
def Tile.freezeOn (t : Tile) : Bool := t.freeze.soft || t.freeze.halt || t.freeze.slice

/-- The core stops where a freeze is in force and no stitch is open; an instruction that holds it is abandoned and runs again
after the thaw, and a pending code switch stays pending (R323, R327). -/
def Tile.applyFreeze (t : Tile) : Tile :=
  if t.freezeOn && t.stitch.mode == .idle && t.core.mode != .halted then
    { t with
      freeze := { t.freeze with coreWas := if t.core.mode == .wfi then .wfi else .running }
      core := { t.core with mode := .halted, bk := .none } }
  else t

/-- The last named group has switched: SWITCHED goes to the steward and the tile returns to IDLE; a claim's ready handshake
ends, and a freeze written meanwhile takes hold (R306, R323, R478). -/
def Tile.closeStitch (t : Tile) (me : Site) : Tile :=
  if t.stitch.mode == .committed && t.stitch.pend = 0 then
    let t := t.tell me (.switched t.stitch.num)
    { t with stitch := StitchSt.reset
             freeze := { t.freeze with handshake := t.freeze.handshake && t.freeze.awaitGo } }.applyFreeze
  else t

/-- A group switches (R314). -/
def Tile.switchGroup (t : Tile) (e : Env) (prot : Word) (g : Nat) : Tile :=
  let num := t.stitch.num.toNat
  let new := t.stitch.new
  let t := t.popMarks g .switchMark
  let t := if g < 6 then t.emitMarks e g num new.toNat else t
  let wrote := (t.group g).wroteCtl
  let t := t.activate prot g new
  let t := if g < 5 then t.restartSeq e.me g wrote else if g = 5 then (unitsOfGroup 5).foldl Tile.endCurrent t |>.release e.me else t
  { t with stitch := { t.stitch with pend := t.stitch.pend &&& ~~~(BitVec.ofNat 8 (2 ^ g)) }, prog := true }

/-! ## Switch points (R313, R315) -/

/-- A sequencer or steering unit of the group has a run in progress. -/
def Tile.running (t : Tile) (g : Nat) : Bool :=
  (unitsOfGroup g).any fun u => if u < 5 then (t.seq u).run else bitOf (t.suCfg (u - 8)) 31

/-- The queues a group needs at any level in its active slot (R313). -/
def Tile.groupNeeds (t : Tile) (g : Nat) : List (Nat × Nat) :=
  (unitsOfGroup g).flatMap fun u => (t.everNeeded u).map fun q => (u, q)

/-- The switch point of a group as the tile enters COMMITTED (R313). -/
def Tile.switchPoint (t : Tile) (g : Nat) : SwitchPoint :=
  if !t.running g then .atCommit else if (t.groupNeeds g).isEmpty then .runEnd else .marker

/-- Every command of the group's firings has completed and emitted its tokens (R313, R314, R316). -/
def Tile.settled (t : Tile) (g : Nat) : Bool := !t.firings.any fun f : Firing => (unitsOfGroup g).contains f.unit

/-- Every current token of the group has been released (R266, R313). -/
def Tile.noHelds (t : Tile) (g : Nat) : Bool := !t.helds.any fun h : Held => (unitsOfGroup g).contains h.unit

/-- The head tokens of a group's needed queues. -/
def Tile.headMarks (t : Tile) (g : Nat) : List (BitVec 64) :=
  (t.groupNeeds g).filterMap fun e => (t.queue e.1 e.2).head

/-- Every needed queue of a group has a marker of the given fate at its head. -/
def Tile.marksReady (t : Tile) (g : Nat) (f : HeadFate) : Bool :=
  !(t.groupNeeds g).isEmpty && (t.groupNeeds g).all fun e => t.headFate e.1 e.2 == f

/-- Markers agree in STITCH and NEW. -/
def marksAgree (l : List (BitVec 64)) : Bool :=
  match l with
  | [] => true
  | m :: ms => ms.all fun k => tokPayload k / 65536 = tokPayload m / 65536 && tokPayload k % 16 = tokPayload m % 16

/-- The unit at whose queues mixed markers are found: that of the group, or the first steering unit with a marker that is not as the
first of them or does not carry the NEW `new` (R315, R457; assumption 81). -/
def Tile.mixedUnit (t : Tile) (g : Nat) (new : Option Nat) : Nat :=
  if g < 5 then g
  else
    let ms := t.headMarks g
    ((unitsOfGroup g).find? fun u => (t.everNeeded u).any fun q =>
      (t.queue u q).head.any fun m => !marksAgree (ms.take 1 ++ [m]) || new.any fun n => tokPayload m % 16 ≠ n).getD 8

/-- Mixed markers: MKMIX and a weave fault (R315), with a copy of the unit's error register; steering units report in TC_EP_ERR (R457;
assumption 81). -/
def Tile.mixed (t : Tile) (me : Site) (g : Nat) (new : Option Nat) : Tile :=
  let u := t.mixedUnit g new
  let t := t.flagBit Reg.TC_EP_ERR 3
  t.raise me 0x07 u (t.reg ((unitOfCode u).elim Reg.TC_EP_ERR errReg))

/-- GROUP_SWITCH (R313, R314): a named group of a committed stitch whose switch point has come switches. -/
def Tile.trySwitch (t : Tile) (e : Env) (prot : Word) (g : Nat) : Tile :=
  let point : Option SwitchPoint :=
    (t.stitch.points.find? fun p : Nat × SwitchPoint => p.1 = g).map (·.2)
  if !(t.stitch.mode == .committed && bitOf t.stitch.pend g) then t
  else if g = 6 then
    if t.stitch.pend = 0x40 then (t.switchGroup e prot 6).closeStitch e.me else t
  else if !t.settled g then t
  else match point with
    | some .atCommit => (t.switchGroup e prot g).closeStitch e.me
    | some .runEnd =>
      if t.running g || (t.seq g).halted then t else (t.switchGroup e prot g).closeStitch e.me
    | some .marker =>
      if !t.marksReady g .switchMark then t
      else if !(marksAgree (t.headMarks g) && (t.headMarks g).all fun m => tokPayload m % 16 = t.stitch.new.toNat) then
        t.mixed e.me g (some t.stitch.new.toNat)
      else if !t.noHelds g then t
      else (t.switchGroup e prot g).closeStitch e.me
    | none => t

/-- RE_EPOCH (R316): an unnamed running group passes re-epoch markers on and adopts their NEW. -/
def Tile.tryReEpoch (t : Tile) (e : Env) (g : Nat) : Tile :=
  if g < 6 && !t.named g && t.running g && t.settled g && t.marksReady g .reMark then
    let ms := t.headMarks g
    if !marksAgree ms then t.mixed e.me g none
    else
      let m := ms.headD 0
      let t := t.popMarks g .reMark
      let t := t.emitMarks e g (tokPayload m / 65536) (tokPayload m % 16)
      { t.setGroup g { t.group g with epoch := BitVec.ofNat 4 (tokPayload m) } with prog := true }
  else t

/-! ## Pattern records (R301 to R304) -/

/-- A FAILED answer: the tile stays LOADING with FAILED set (R306). -/
def Tile.failStitch (t : Tile) (me : Site) (cause : Nat) : Tile :=
  ({ t with stitch := { t.stitch with failed := true } }).tell me (.failed t.stitch.num (BitVec.ofNat 8 cause))

def recType (r : List Word) : Nat := fld (r.getD 0 0) 24 4
def recNwords (r : List Word) : Nat := fld (r.getD 0 0) 8 12
def recSeqno (r : List Word) : Nat := fld (r.getD 2 0) 0 12
def recOffset (r : List Word) : Nat := fld (r.getD 2 0) 12 20
def recGroup (r : List Word) : Nat := fld (r.getD 0 0) 20 4

/-- CHECK of a record equals its CRC-32C (R302); a record cut short fails. -/
def recCrcOk (r : List Word) : Bool :=
  4 + recNwords r ≤ r.length && crc32cWords (r.take (3 + recNwords r)) == r.getD (3 + recNwords r) 0

/-- The second check of R304 for a record of the stitch with epoch `new`. -/
def recFormOk (r : List Word) (new : BitVec 4) (seen : List Nat) : Bool :=
  let w0 := r.getD 0 0
  let w1 := r.getD 1 0
  let n := recNwords r
  let g := recGroup r
  fld w0 28 4 == 3 && zeroBits w0 0 8 && zeroBits w1 0 12 && fld w1 12 4 == new.toNat && 1 ≤ n && n ≤ 2044 &&
    !seen.contains (recSeqno r) &&
    match recType r with
    | 1 => g < 8 && recOffset r + n ≤ groupWords g
    | 2 => g == 0 && recOffset r + n ≤ 16384
    | 4 => g == 0 && n == 1 && recOffset r == 0 && zeroBits (r.getD 3 0) 12 12
    | _ => false

/-- Payload words of a SLOT record written into a standby slot: the bits of the image (R297, R573), a seam's registers as
latching (R20). -/
def Tile.slotRecord (t : Tile) (me : Site) (g off : Nat) (ws : List Word) : Tile :=
  let x := t.group g
  let mask := fun k => seamWord me g (imageMask g k)
  t.setGroup g { x with
    standby := (List.range ws.length).foldl (fun m k =>
      Map.upd (voidWord g) m (off + k) fun v => mergeMask (mask (off + k)) v (ws.getD k 0)) x.standby
    wroteCtl := x.wroteCtl || off == 0 }

/-- A group that would switch at a marker or a run end has NEW for its epoch already (R317). -/
def Tile.badEpoch (t : Tile) (gmask : BitVec 8) (new : BitVec 4) : Bool :=
  (List.range 6).any fun g => bitOf gmask g && t.running g && (t.group g).epoch == new

/-- An END record that has passed the first checks (R304, R317): the groups that it names are still to switch (R328), and the tile is
ARMED, or it fails. -/
def Tile.endRecord (t : Tile) (me : Site) (payload : Word) : Tile :=
  let gmask := BitVec.ofNat 8 (fld payload 24 8)
  let t := { t with stitch := { t.stitch with ended := true, gmask := gmask, pend := gmask } }
  let n := fld payload 0 12
  let complete := (List.range n).all t.stitch.seqnos.contains
  if !complete || !t.stitch.groups.all fun g => n ≤ g.1 || bitOf gmask g.2 then t.failStitch me 5
  else if t.badEpoch gmask t.stitch.new then t.failStitch me 4
  else ({ t with stitch := { t.stitch with mode := .armed } }).tell me (.armed t.stitch.num)

/-- A record arrives at the pattern port (R304). -/
def Tile.patternRecord (t : Tile) (me : Site) (r : List Word) : Tile :=
  if !(t.stitch.mode == .loading && !t.stitch.ended && fld (r.getD 1 0) 16 16 == t.stitch.num.toNat) then
    t.flagBit Reg.TC_EP_ERR 4
  else if t.stitch.failed then t
  else if !recCrcOk r then (t.flagBit Reg.TC_EP_ERR 6).failStitch me 2
  else if !recFormOk r t.stitch.new t.stitch.seqnos then (t.flagBit Reg.TC_EP_ERR 5).failStitch me 3
  else
    let ws := (r.drop 3).take (recNwords r)
    let seen := fun (t : Tile) => { t with stitch := { t.stitch with seqnos := recSeqno r :: t.stitch.seqnos } }
    match recType r with
    | 1 =>
      let t := seen (t.noKeep.slotRecord me (recGroup r) (recOffset r) ws)
      { t with stitch := { t.stitch with groups := (recSeqno r, recGroup r) :: t.stitch.groups } }
    | 2 => seen { t.noKeep with core := { t.core with imem := Memory.writeBytes t.core.imem (4 * recOffset r) (bytesOfWords ws) } }
    | _ => t.endRecord me (ws.headD 0)

/-! ## Stitch messages at a tile (R306, R309) -/

/-- OPEN at a tile (R306). -/
def Tile.openStitch (t : Tile) (me : Site) (num : BitVec 16) (new : BitVec 4) : Tile :=
  if t.stitch.mode == .idle && !t.freezeOn then
    { t with stitch := { StitchSt.reset with num := num, new := new, mode := .loading } }
  else t.tell me (.failed num 1)

/-- COMMIT at an ARMED tile: switch points are fixed and the WF group switches (R306, R309, R313). -/
def Tile.commit (t : Tile) (e : Env) (prot : Word) (num : BitVec 16) : Tile :=
  if t.stitch.mode == .armed && t.stitch.num == num then
    let gs := (List.range 8).filter fun g => bitOf t.stitch.gmask g
    let t := { t with stitch := { t.stitch with mode := .committed, points := gs.map fun g => (g, t.switchPoint g) } }
    (if bitOf t.stitch.pend 7 then t.switchGroup e prot 7 else t).closeStitch e.me
  else t

/-- ABORT at a tile: the standby slot of every named group is again a copy of the active one (R306, R307). -/
def Tile.abortStitch (t : Tile) (num : BitVec 16) : Tile :=
  if (t.stitch.mode == .loading || t.stitch.mode == .armed) && t.stitch.num == num then
    let gs := (List.range 8).filter fun g => bitOf t.stitch.gmask g || t.stitch.groups.any fun r => r.2 == g
    let t := gs.foldl (fun t g => t.setGroup g { t.group g with standby := (t.group g).active, wroteCtl := false }) t
    { t with stitch := StitchSt.reset }.applyFreeze
  else t

/-! ## The void pattern (R108, R136, R165, R189, R225, R258, R295, R300, R305, R571) -/

/-- Several registers back at their reset values. -/
def Tile.resetRegs (t : Tile) (l : List Nat) : Tile := l.foldl (fun t o => t.setReg o (tileReset o)) t

/-- Every token in the queues of a unit is dropped and counted (R262, R305); spilled ones are forgotten. -/
def Tile.emptyQueues (t : Tile) (me : Site) (u : Nat) : Tile :=
  (List.range 8).foldl (fun t q =>
    let x := t.queue u q
    let t := t.setQueue u q Queue.reset
    let t := x.spills.foldl (fun t r => t.freeSpill r.off) t
    x.toks.foldl (fun t k => t.dropToken me 1 k.tok k.src) t) t

/-- The counters of a unit's block zero, live and copied (R295). -/
def Tile.clearCounts (t : Tile) (u : Nat) : Tile :=
  let a := if u < 5 then unitBase u else 0x400 + 0x80 * (u - 8)
  let b := a + (if u < 5 then 0x200 else 0x80)
  { t with live := Map.clear t.live a b, snap := Map.clear t.snap a b }

/-- The tile core as the void pattern of its group leaves it (R225). -/
def Tile.voidCore (t : Tile) : Tile :=
  let forget := fun (x : UnitSt) =>
    let c := fun k : Cmd => match k.src with | .core _ _ => { k with src := .old } | _ => k
    { x with issued := 0, done := 0, kept := [], errSum := false, queue := x.queue.map c
             running := x.running.map fun r : Run => { r with cmd := c r.cmd } }
  let t := allUnits.foldl (fun t u => t.onUnit u forget) t
  let t := { t with core := { CoreSt.reset with imem := t.core.imem }, freeze := { t.freeze with coreWas := .halted, goPend := false } }
  t.resetRegs [Reg.TC_CFG, Reg.TC_EVT, Reg.TC_ERR, Reg.TC_TRAP]

/-- What the load of a group's void pattern does to the group's unit. -/
def Tile.voidUnit (t : Tile) (g : Nat) : Tile :=
  match g with
  | 0 => ({ t with mu := MuSt.reset }).resetRegs [Reg.MU_ERR, Reg.MU_RES_COUNT, Reg.MU_RES_LAST]
  | 1 => ({ t with la := { t.la with elems := [], weight := [], bad := [] } }).resetRegs
      [Reg.LA_ERR, Reg.LA_ECC_COUNT, Reg.LA_POISON_COUNT]
  | 2 => ({ t with trf := [], sfHeld := none, sfGen := t.sfGen + 1 }).resetRegs
      [Reg.VC_ERR, Reg.VC_LAST_COUNT, Reg.SF_ERR, Reg.SF_UPSTAT]
  | 3 => (t.onSp fun s => { s with spools := [] }).resetRegs [Reg.SP_CFG]
  | 4 => t.resetRegs [Reg.SH_ERR]
  | 6 => t.voidCore
  | _ => t

/-- The void pattern loaded into both slots of a group, with epoch 0 (R300). -/
def Tile.voidGroup (t : Tile) (e : Env) (g : Nat) (patbad : Bool) : Tile :=
  let t := (unitsOfGroup g).foldl (fun t u =>
    let t := ((t.emptyQueues e.me u).endCurrent u).release e.me
    let t := t.setSeq u SeqSt.reset
    let t := (List.range 4).foldl (fun t p => t.setPortSt u p { PortSt.reset with gen := (t.portSt u p).gen + 1 }) t
    t.clearCounts u) t
  (t.noKeep.voidUnit g).setGroup g { GroupSt.reset with patbad := patbad }

/-- A group that fails its active check (R305). -/
def Tile.patternFault (t : Tile) (e : Env) (g : Nat) : Tile :=
  let t := match unitOfCode g with
    | some u => t.abortUnits e [u]
    | none => t
  let t := (t.voidGroup e g true).flagBit Reg.TC_EP_ERR 7
  match unitOfCode g with
  | some u => t.raise e.me 0x08 g (t.reg (errReg u))
  | none => t.raise e.me 0x08 0xD (t.reg Reg.TC_EP_ERR)

/-- The kept check word of a group: that of the void image until its first switch (R305). -/
def GroupSt.keptWord (x : GroupSt) (g : Nat) : Word := x.kept.getD (crc32cWords (slotImage g []))

/-- Every active image of groups 0 to 6 is rechecked against its kept value (R305). -/
def Tile.recheck (t : Tile) (e : Env) (gs : List Nat) : Tile :=
  gs.foldl (fun t g =>
    let x := t.group g
    if crc32cWords (slotImage g x.active) == x.keptWord g then t else t.patternFault e g) t

/-- Bits of active images go bad (R305). -/
def Tile.flipImage (t : Tile) (l : List ImageFlip) : Tile :=
  l.foldl (fun t f =>
    let g := f.group.val
    if f.word < groupWords g then
      t.setGroup g { t.group g with
        active := Map.upd (voidWord g) (t.group g).active f.word fun w => w ^^^ (f.bits &&& imageMask g f.word) }
    else t) t

/-! ## Spills (R319, R320) -/

/-- QSPILL allows a queue to be spilled (R330). -/
def Tile.spillable (t : Tile) (u q : Nat) : Bool :=
  if u < 5 then bitOf (t.act u 3) q else bitOf (t.act 5 12) (5 * (u - 8) + q)

/-- The queues that a spill writes out, in unit code and queue order (R319). -/
def Tile.toSpill (t : Tile) : List (Nat × Nat) :=
  [0, 1, 2, 3, 4, 8, 9, 10, 11].flatMap fun u =>
    ((List.range 8).filter fun q => queueOk u q && t.spillable u q && 16 ≤ (t.queue u q).depth).map fun q => (u, q)

/-- The bytes of a spill row (R319). -/
def spillRow (u q : Nat) (toks : List QTok) : List Byte :=
  leBytes 8 (u + 16 * q + 128 * toks.length) ++ sliceBytes (toks.flatMap fun k => leBytes 8 k.tok.toNat) 0 504

/-- One queue spilled to the spool's tail, by a write of the engine SVC (R230, R319). -/
def Tile.spillQueue (t : Tile) (me : Site) (n u q : Nat) : Tile :=
  let x := t.queue u q
  let off := (t.spool n).tail
  let t := t.writeRow me (spoolBase (t.spoolCfg n) + off) 0 (spillRow u q x.toks) false 5
  let t := (t.spoolAdvance n true 1).1
  let k := x.toks.length
  let t := t.setQueue u q { x with toks := [], spills := x.spills ++ [{ off := off, count := k, fetched := false, left := k }] }
  let t := { t with spillOrder := t.spillOrder ++ [(off, false)] }
  x.toks.foldl (fun t k => t.dropCredit me k.tok k.src) t

/-- SPILL at a tile (R319, R322). -/
def Tile.doSpill (t : Tile) (me : Site) : Tile :=
  let n := fld (t.act 6 3) 0 5
  let qs := t.toSpill
  let cfg := t.spoolCfg n
  let room := if bitOf cfg 31 then spoolSize cfg - t.spoolCount n - (t.spool n).rsv else 0
  if room < qs.length then (t.flagBit Reg.TC_DL_STAT 1).tell me (.spilled true)
  else
    let t := qs.foldl (fun t e => t.spillQueue me n e.1 e.2) t
    let w := t.reg Reg.TC_DL_STAT
    let t := if qs.isEmpty then t else t.setReg Reg.TC_DL_STAT (setFld w 16 16 (min 0xFFFF (fld w 16 16 + 1)))
    t.tell me (.spilled false)

/-- A spilled row is read back when its queue's next token is needed (R320); tokens of a row that comes poisoned are
poisoned. -/
def Tile.readSpill (t : Tile) (me : Site) (u q : Nat) (ph : Phys) : Tile :=
  let x := t.queue u q
  match x.spills, x.back with
  | r :: rs, [] =>
    let n := fld (t.act 6 3) 0 5
    let rr := (t.phys ph).readRow me (spoolBase (t.spoolCfg n) + r.off)
    let mark : Nat := if rr.poisoned.isEmpty then 0 else 2 ^ 55
    let toks := (List.range r.count).map fun i => BitVec.ofNat 64 (numAt rr.bytes (8 + 8 * i) 8 ||| mark)
    let t := if rr.gated then rr.tile.err 1 else rr.tile
    t.setQueue u q { x with back := toks, spills := { r with fetched := true } :: rs }
  | _, _ => t

/-! ## The rows of the table -/

/-- The packets of a pattern record as they stand in the ejection buffer, first to last (R303, R337). -/
def State.takeParts (s : State) (site : Site) (rec : List Word) (n : Nat) : Option State :=
  (List.range n).foldl (fun o k => o.bind fun s =>
    let m := fun p : Pkt => p.dst == .site site && p.body == .pattern rec && p.part == k
    if s.net.any fun p => m p && s.mayTake p then some (s.deliver fun p => m p && s.mayTake p) else none) (some s)

/-- The packets that carry a record: at most eight flits of 64 bytes each (R337). -/
def recParts (rec : List Word) : Nat := (rec.length + 127) / 128

/-- The packets of a record on their way to a site may all leave the ejection buffer now; or none is known (assumption 8). -/
def State.mayGetRecord (s : State) (site : Site) (rec : List Word) : Bool :=
  !(s.net.any fun p => p.dst == .site site && p.body == .pattern rec) || (s.takeParts site rec (recParts rec)).isSome

/-- A record has arrived once all its packets have (R303). -/
def State.gotRecord (s : State) (site : Site) (rec : List Word) (f : State → State) : State :=
  if s.mayGetRecord site rec then f ((s.takeParts site rec (recParts rec)).getD s) else s

def execPatternRecord (site : Site) (rec : List Word) (s : State) : Host.Outcome State Fault Refusal :=
  live s fun s =>
    if recType rec = 4 then s
    else s.gotRecord site rec fun s => s.onUnits site fun t => t.patternRecord site rec

def execPatternEndRecord (site : Site) (rec : List Word) (s : State) : Host.Outcome State Fault Refusal :=
  live s fun s =>
    if recType rec = 4 then
      s.gotRecord site rec fun s => s.onUnits site fun t => t.patternRecord site rec
    else s

def execActiveImageCheck (site : Site) (flips : List ImageFlip) (s : State) : Host.Outcome State Fault Refusal :=
  live s fun s => s.onUnits site fun t => (t.flipImage flips).recheck (s.env site) (List.range 7)

/-- A control message to a site has arrived. -/
def State.gotCtrl (s : State) (site : Site) (m : CtrlMsg) (f : State → State) : State :=
  s.receive (fun p => p.dst = .site site && p.body = .ctrl m) f

def execStitchOpen (site : Site) (stitch : BitVec 16) (epoch : BitVec 4) (s : State) : Host.Outcome State Fault Refusal :=
  live s fun s => s.gotCtrl site (.openStitch stitch epoch) fun s => s.onUnits site fun t => t.openStitch site stitch epoch

def execStitchCommit (site : Site) (stitch : BitVec 16) (s : State) : Host.Outcome State Fault Refusal :=
  live s fun s =>
    s.gotCtrl site (.commit stitch) fun s => s.onUnits site fun t => t.commit (s.env site) (s.steward.reg Reg.ST_PROT) stitch

def execStitchAbort (site : Site) (stitch : BitVec 16) (s : State) : Host.Outcome State Fault Refusal :=
  live s fun s => s.gotCtrl site (.abort stitch) fun s => s.onUnits site fun t => t.abortStitch stitch

def execGroupSwitch (site : Site) (g : Fin 8) (s : State) : Host.Outcome State Fault Refusal :=
  live s fun s => s.onUnits site fun t => t.trySwitch (s.env site) (s.steward.reg Reg.ST_PROT) g.val

def execReEpoch (site : Site) (g : Fin 8) (s : State) : Host.Outcome State Fault Refusal :=
  live s fun s => s.onUnits site fun t => t.tryReEpoch (s.env site) g.val

/-- SPILL (R319): the message names a weave; the tile is one of it. -/
def execSpill (site : Site) (s : State) : Host.Outcome State Fault Refusal :=
  live s fun s =>
    s.receive (fun p => p.dst = .site site && (match p.body with | .ctrl (.spill _) => true | _ => false)) fun s =>
      s.onUnits site fun t => t.doSpill site

def execSpillTokenRead (site : Site) (unit : BitVec 4) (queue : BitVec 3) (ph : Phys) (s : State) :
    Host.Outcome State Fault Refusal :=
  live s fun s => s.onUnits site fun t => t.readSpill site unit.toNat queue.toNat ph

end Sys2Proof.Machine
end

