-- ==== Sys2Proof/Machine/Freeze.lean ====
section
/-! DEFINITION. Starting and halting the tile core (R195, R196, R224), freezing and thawing a tile (R323, R327), and scans
(R324 to R326, R331, R575). -/

namespace Sys2Proof.Machine

/-! ## The tile core started and halted (R195, R196) -/

/-- The registers and CSRs of a core that starts at ENTRY (R195); mcycle and minstret count from here (R191). -/
def Tile.startCore (t : Tile) (time : Nat) : Tile :=
  { t with core := { CoreSt.reset with
      pc := BitVec.ofNat 32 (fld (t.act 6 1) 0 16), mode := .running, imem := t.core.imem, dmem := t.core.dmem
      mcycle := BitVec.ofInt 64 (-(time : Int)) } }

/-- TC_CTL.GO (R195): a halted core starts; under a freeze it starts at the thaw, and GO reads 1 until then (assumption 16). -/
def Tile.goCore (t : Tile) (time : Nat) : Tile :=
  if t.core.mode != .halted || t.freeze.coreWas != .halted then t
  else
    let stopped := t.freezeOn && t.stitch.mode == .idle
    let t := t.startCore time
    if stopped then
      { t with core := { t.core with mode := .halted }, freeze := { t.freeze with coreWas := .running, goPend := true } }
    else t

/-- A halt by TC_CTL.HALT, a trap or a release: the instruction that holds the core is abandoned, and a pending code switch is
taken (R195, R196). -/
def Tile.haltCore (t : Tile) : Tile :=
  { t with core := { t.core with mode := .halted, bk := .none, swpend := false }, freeze := { t.freeze with coreWas := .halted, goPend := false } }

def execCoreGo (site : Site) (s : State) : Host.Outcome State Fault Refusal :=
  live s fun s => if s.powered site then
    s.onTile site fun t => t.goCore (s.time site) else s

def execCoreHalt (site : Site) (s : State) : Host.Outcome State Fault Refusal :=
  live s fun s => if s.powered site then s.onTile site Tile.haltCore else s

/-- STEWARD_SIGNAL (R224): the steward writes 1 to TC_EVT.STEWARD. -/
def execStewardSignal (site : Site) (s : State) : Host.Outcome State Fault Refusal :=
  live s fun s => if s.powered site then
    s.onTile site fun t => t.flagBit Reg.TC_EVT 2 else s

/-! ## Freeze and thaw (R323, R327) -/

/-- A freeze that has ended: the tile fires and its core runs as before (R327). -/
def Tile.endFreeze (t : Tile) : Tile :=
  if t.freezeOn then t
  else
    { t with
      core := if t.freeze.coreWas == .halted then t.core else { t.core with mode := t.freeze.coreWas }
      freeze := { t.freeze with frozen := false, coreWas := .halted, goPend := false } }

/-- TC_SCAN_CTL.FREEZE written. -/
def Tile.setFreeze (t : Tile) (on : Bool) : Tile :=
  let t := t.setReg Reg.TC_SCAN_CTL (setFld (t.reg Reg.TC_SCAN_CTL) 31 1 (if on then 1 else 0))
  let t := { t with freeze := { t.freeze with soft := on } }
  if on then t.applyFreeze else t.endFreeze

/-- A token that the tile has emitted has not left it (R323). -/
def Tile.tokenLeft (t : Tile) : Bool :=
  (t.outq.any fun p => match p.body with | .token _ _ _ _ => true | _ => false) ||
    t.warpq.any fun w => match w.body with | .token _ _ _ _ => true | _ => false

/-- Every command of the tile has completed and every firing has ended (R323). -/
def Tile.quiet (t : Tile) : Bool :=
  (allUnits.all fun u => (t.unit u).queue.isEmpty && (t.unit u).running.isEmpty) && t.firings.isEmpty

/-- FROZEN comes to read 1 (R323). -/
def Tile.tryFrozen (t : Tile) : Tile :=
  let t := t.applyFreeze
  if t.freezeOn && t.stitch.mode == .idle && t.quiet && !t.tokenLeft then { t with freeze := { t.freeze with frozen := true } }
  else t

def execFreeze (site : Site) (s : State) : Host.Outcome State Fault Refusal :=
  live s fun s => if s.powered site then s.onTile site fun t => t.setFreeze true else s

def execThaw (site : Site) (s : State) : Host.Outcome State Fault Refusal :=
  live s fun s => if s.powered site then s.onTile site fun t => t.setFreeze false else s

/-! ## Scan parts (R324, R575) -/

/-- The scan parts whose layout the spec gives: SLOTS, TRF, IMEM, SPROWS. -/
def partKnown (p : Nat) : Bool := p == 0 || p == 4 || p == 6 || p == 8

/-- Rows of the SPROWS part (R331). -/
def Tile.scanRows (t : Tile) : List Nat :=
  upto (fld (t.reg Reg.TC_SCAN_ROWS) 16 12) (fld (t.reg Reg.TC_SCAN_ROWS) 0 13)

/-- Words of a scan part (R324). -/
def Tile.partWords (t : Tile) (p : Nat) : Nat :=
  match p with
  | 0 => 6144 | 1 => 3072 | 2 => 1088 | 3 => 45312 | 4 => 16384 | 5 => 4608 | 6 => 16384 | 7 => 256
  | _ => 128 * t.scanRows.length + (t.scanRows.length + 31) / 32

/-- The words of SLOTS that R575 places: each group's active and standby images, epoch and kept check word. -/
def Tile.slotsWords (t : Tile) : List Word :=
  (List.range 8).flatMap fun g =>
    let x := t.group g
    slotImage g x.active ++ slotImage g x.standby ++ [x.epoch.setWidth 32, x.keptWord g]

/-- SPROWS: the rows, then their POISON bits (R324). -/
def spWords (bytes : List Byte) (rows poisoned : List Nat) : List Word :=
  wordsOf bytes (128 * rows.length) ++ (List.range ((rows.length + 31) / 32)).map fun k =>
    BitVec.ofNat 32 (((List.range 32).map fun i =>
      match rows[32 * k + i]? with
      | some r => if r ∈ poisoned then 2 ^ i else 0
      | none => 0).sum)

/-- The words that a scan out writes of a part, and the tile after the reads it makes; `draw` names the open ones
(assumption 14). -/
def Tile.scanPart (t : Tile) (me : Site) (p draw : Nat) : List Word × Tile :=
  match p with
  | 0 => (t.slotsWords ++ (upto t.slotsWords.length (6144 - t.slotsWords.length)).map fun i => Config.scanWord 0 i draw, t)
  | 4 => ((List.range 16384).map fun i => Map.get trfZero t.trf i, t)
  | 6 => (wordsOf (Memory.readBytes t.core.imem 0 65536) 16384, t)
  | 3 => ((List.range (t.partWords 3)).map fun i => Config.scanWord 3 i draw, t.laCheckAll me)
  | 8 =>
    let rr := t.readRows me t.scanRows
    (spWords rr.bytes t.scanRows rr.poisoned, if rr.gated then rr.tile.err 1 else rr.tile)
  | _ => ((List.range (t.partWords p)).map fun i => Config.scanWord p i draw, t)

/-- Payload words of a scan record (R325). -/
def scanPayload : Nat := 2044

/-- Records of a part of `n` words. -/
def scanRecs (n : Nat) : Nat := (n + scanPayload - 1) / scanPayload

/-- A SCAN record padded to 8,192 bytes (R301, R325). -/
def scanRecord (p k : Nat) (ws : List Word) : List Word :=
  let head : List Word := [0x33000000 ||| at32 p 20 ||| at32 ws.length 8, 0, at32 (scanPayload * k) 12 ||| at32 k 0]
  let body := head ++ ws
  let rec' := body ++ [crc32cWords body]
  rec' ++ List.replicate (2048 - rec'.length) 0

/-- The records of a part. -/
def partRecords (p : Nat) (ws : List Word) : List (List Word) :=
  (List.range (scanRecs ws.length)).map fun k => scanRecord p k ((ws.drop (scanPayload * k)).take scanPayload)

/-- TC_SCAN_STAT as it reads (R331). -/
def Tile.scanStat (t : Tile) : Word :=
  (t.reg Reg.TC_SCAN_STAT &&& 0x5FF) ||| flag32 t.freeze.frozen 31 ||| flag32 t.freeze.scanBusy 30

/-! ## Scan out (R325) -/

/-- The address of a scan (R331). -/
def Tile.scanRow (t : Tile) (kind : Nat) : Nat := if kind = 0 then fld (t.reg Reg.TC_SCAN_ADDR) 0 12 else fld (t.reg Reg.TC_SCAN_ADDR) 8 12
def Tile.scanAddr (t : Tile) : Nat := fld (t.reg Reg.TC_SCAN_ADDRH) 0 28 * 2 ^ 32 + (t.reg Reg.TC_SCAN_ADDR).toNat
def Tile.scanSite (t : Tile) : Option Site := siteAt (fld (t.reg Reg.TC_SCAN_ADDR) 26 6) (fld (t.reg Reg.TC_SCAN_ADDR) 20 6)

/-- The bytes of a scan written where KIND says (R325, R331): LOCAL as a bulk transfer. -/
def Tile.scanWrite (t : Tile) (me : Site) (kind : Nat) (bytes : List Byte) : Tile :=
  let rows := (List.range (bytes.length / 512)).map fun k => (bytes.drop (512 * k)).take 512
  let busy := { t with freeze := { t.freeze with scanBusy := true } }
  if kind = 3 then
    let qs := (reachPieces t.scanAddr bytes.length).map fun g =>
      { user := .scan, goff := g.1, addr := (t.scanAddr + g.1) % 2 ^ 60, len := g.2
        data := some ((bytes.drop g.1).take g.2), poison := [] : ReachReq }
    ({ busy with freeze := { busy.freeze with scanLeft := busy.freeze.scanLeft + qs.length } }).askReach me qs
  else
    let row := t.scanRow kind
    if 4096 < row + rows.length then t.flagBit Reg.TC_SCAN_STAT 10
    else if kind = 0 then (List.range rows.length).foldl (fun t k => t.writeRow me (row + k) 0 (rows.getD k []) false 7) busy
    else match t.scanSite with
      | none => t.flagBit Reg.TC_SCAN_STAT 10
      | some dst =>
        let (tag, t) := busy.newTag
        (List.range rows.length).foldl (fun t k =>
          let d : DataRow := { src := me, tag := tag, row := BitVec.ofNat 12 (row + k), rem := BitVec.ofNat 12 (rows.length - 1 - k)
                               off := 0, data := rows.getD k [], poison := false }
          let t := { t with freeze := { t.freeze with scanAcks := t.freeze.scanAcks ++ [(dst.val, row + k)] } }
          t.post { src := .tile me, dst := .site dst, cls := 3, flits := 8, body := .data d }) t

/-- The parts that a slice on a freezing item saves (R490). -/
def sliceParts (item : Nat) : List Nat :=
  if item = 0 then [2] else if item = 1 then [3] else if item = 2 then [4] else if item = 4 then [5, 6]
  else if item = 6 then [1] else if 0x10 ≤ item && item < 0x20 then [8] else []

/-- The registers of a scan's control that a slice has of its own (R491). -/
def scanOwn : List Nat := [Reg.TC_SCAN_ROWS, Reg.TC_SCAN_ADDR, Reg.TC_SCAN_ADDRH]

/-- A slice's own scan control: the rows of its bank, and the save area. -/
def Tile.ownScan (t : Tile) (item addr : Nat) : Tile :=
  ((t.setReg Reg.TC_SCAN_ROWS (at32 (256 * (item - 0x10)) 16 ||| 256)).setReg Reg.TC_SCAN_ADDR (BitVec.ofNat 32 addr)).setReg
    Reg.TC_SCAN_ADDRH (BitVec.ofNat 32 (addr / 2 ^ 32))

/-- Registers as another state of the tile has them. -/
def Tile.takeRegs (t src : Tile) (l : List Nat) : Tile := l.foldl (fun t o => t.setReg o (src.reg o)) t

/-- The registers of the ERR part, which holds every error flag and counter of the tile, its counts per error class too (R324, R447). -/
def errParts : List Nat :=
  [Reg.TC_ERR, Reg.TC_TRAP, Reg.TC_WV_ERR, Reg.TC_WVDROP_COUNT, Reg.TC_EP_ERR, Reg.TC_EPDROP_COUNT, Reg.TC_DL_STAT,
    Reg.MU_ERR, Reg.MU_RES_COUNT, Reg.MU_RES_LAST, Reg.LA_ERR, Reg.LA_ECC_COUNT, Reg.LA_POISON_COUNT, Reg.VC_ERR, Reg.SF_ERR,
    Reg.SP_ERR, Reg.SP_CONF_LAST, Reg.SP_ECC_COUNT, Reg.SP_CONF_COUNT, Reg.SP_WINREF_COUNT, Reg.SH_ERR, Reg.SH_CVT_FLAGS,
    Reg.WF_ERR, Reg.WF_RETRY_COUNT, Reg.WF_DROP_COUNT, Reg.WF_OVER_COUNT]

/-- The saved parts of a slice written as a GLOBAL scan to an address; the registers that software wrote and every error flag and counter
stay as they were (R491, R495, R507). -/
def Tile.sliceSave (t : Tile) (me : Site) (item addr draw : Nat) : Tile :=
  let (ws, u) := (sliceParts item).foldl (fun (a : List Word × Tile) p =>
    let (w, t) := a.2.scanPart me p draw
    (a.1 ++ (partRecords p w).flatten, t)) ([], t.ownScan item addr)
  { (u.scanWrite me 3 (bytesOfWords ws)).takeRegs t (scanOwn ++ errParts) with errCounts := t.errCounts }

/-- The snapshots that a scan out leaves of the parts without a layout (assumption 14). -/
def Tile.scanShots (t : Tile) (parts : List Nat) (draw time : Nat) : List ScanShot :=
  (parts.filter fun p => !partKnown p).map fun p => { part := p, draw := draw, time := time, tile := t }

/-- BT_SAVE (R507). -/
def State.saveAddr (s : State) : Nat := fld (s.steward.reg Reg.BT_SAVE_HI) 0 28 * 2 ^ 32 + (s.steward.reg Reg.BT_SAVE_LO).toNat

/-- A slice whose tile has come to stand frozen saves its parts to BT_SAVE, or is tested at once where it saves none (R491). -/
def State.sliceFrozen (s : State) (site : Site) : State :=
  match s.steward.slice with
  | some x =>
    if x.site = site && x.step == .freezing && (s.tile site).freeze.frozen then
      let go := fun st : SliceStep => s.onSteward fun y => { y with slice := some { x with step := st } }
      if (sliceParts x.item).isEmpty then go .testing
      else
        let shots := (s.tile site).scanShots (sliceParts x.item) s.fresh (s.time site)
        { (go .saving).onTile site (fun t => t.sliceSave site x.item s.saveAddr s.fresh) with
          fresh := s.fresh + 1, scans := s.scans ++ shots }
    else s
  | none => s

def execTileFrozen (site : Site) (s : State) : Host.Outcome State Fault Refusal :=
  live s fun s => (s.onTile site Tile.tryFrozen).sliceFrozen site

/-- The parts a control word selects, in code order (R324). -/
def scanSel (ctl : Word) : List Nat := (List.range 9).filter fun p => bitOf ctl p

/-- A tile that a scan may be started on: frozen, and not by a slice alone (R325, R496). -/
def Tile.scannable (t : Tile) : Bool := t.freeze.frozen && (t.freeze.soft || t.freeze.halt)

/-- GO of a scan written while a slice holds the tile: it starts after the slice, and reads 1 until then (R331, R496). -/
def Tile.pendScan (t : Tile) (ctl : Word) : Tile :=
  { t.setReg Reg.TC_SCAN_CTL (t.reg Reg.TC_SCAN_CTL ||| 0x40000000) with freeze := { t.freeze with scanPend := some ctl } }

/-- SCAN_OUT (R325): the selected parts of a frozen tile are written as records. -/
def Tile.scanOut (t : Tile) (me : Site) (ctl : Word) (draw : Nat) : Tile :=
  if !t.scannable then t.flagBit Reg.TC_SCAN_STAT 10
  else
    let (ws, t) := (scanSel ctl).foldl (fun (a : List Word × Tile) p =>
      let (w, t) := a.2.scanPart me p draw
      (a.1 ++ (partRecords p w).flatten, t)) ([], t)
    t.scanWrite me (fld ctl 26 2) (bytesOfWords ws)

/-- TC_SCAN_CTL written but for the start of a scan: FREEZE acts, and a reserved KIND is refused (R14, R331). A GO that still waits stays
(R10). -/
def Tile.writeScanCtl (t : Tile) (ctl : Word) : Tile :=
  let keep := tileKeep Reg.TC_SCAN_CTL (t.reg Reg.TC_SCAN_CTL) ctl
  let t := if keep = 0 then t else t.flagBit Reg.TC_ERR 4
  let t := t.setReg Reg.TC_SCAN_CTL (mergeMask (0x2C0001FF &&& ~~~keep) (t.reg Reg.TC_SCAN_CTL) ctl)
  if bitOf ctl 31 == t.freeze.soft then t else t.setFreeze (bitOf ctl 31)

/-- A scan starts, or is refused: GO reads 0 again (R331). -/
def Tile.endGo (t : Tile) : Tile :=
  { t.setReg Reg.TC_SCAN_CTL (t.reg Reg.TC_SCAN_CTL &&& ~~~0x40000000#32) with freeze := { t.freeze with scanPend := none } }

/-- A scan out as GO with DIR = 0 starts it, of the parts and to the place that TC_SCAN_CTL names. -/
def State.goScanOut (s : State) (site : Site) : State :=
  let s := s.onTile site Tile.endGo
  let ctl := (s.tile site).reg Reg.TC_SCAN_CTL
  let s := if (s.tile site).scannable && bitOf ctl 3 then s.onTile site fun t => t.laCheckAll site else s
  let t := s.tile site
  let shots := if t.scannable then t.scanShots (scanSel ctl) s.fresh (s.time site) else []
  { s.onTile site (fun t => t.scanOut site ctl s.fresh) with fresh := s.fresh + 1, scans := s.scans ++ shots }

/-- A write of TC_SCAN_CTL with GO = 1 and DIR = 0. -/
def State.startScanOut (s : State) (site : Site) (ctl : Word) : State :=
  let s := s.onTile site fun t => t.writeScanCtl ctl
  if (s.tile site).freeze.slice then s.onTile site fun t => t.pendScan ctl else s.goScanOut site

def execScanOut (site : Site) (ctl : Word) (s : State) : Host.Outcome State Fault Refusal :=
  live s fun s =>
    if s.powered site && bitOf ctl 30 && !bitOf ctl 29 then s.startScanOut site ctl else s

/-! ## Scan in (R326) -/

/-- A record of a scan part passes the first pass (R302, R326). -/
def scanRecOk (p n k : Nat) (r : List Word) : Bool :=
  let len := min scanPayload (n - scanPayload * k)
  recNwords r == len && recCrcOk r && r.getD 0 0 == (0x33000000 ||| at32 p 20 ||| at32 len 8) && r.getD 1 0 == 0 &&
    recOffset r == scanPayload * k && recSeqno r == k

/-- The words of a part in its records, if every record passes. -/
def scanWords (p n : Nat) (recs : List (List Word)) : Option (List Word) :=
  let ks := List.range (scanRecs n)
  if ks.all fun k => scanRecOk p n k (recs.getD k []) then
    some (ks.flatMap fun k => ((recs.getD k []).drop 3).take (recNwords (recs.getD k [])))
  else none

/-- The non-default entries of an image held in words. -/
def imageOf (g : Nat) (ws : List Word) : Map Word :=
  Map.setAll (voidWord g) [] ((List.range (groupWords g)).map fun k => (k, ws.getD k 0))

/-- SLOTS restored: images, epochs and kept check words (R326, R575); a seam's registers latch (R20). -/
def Tile.restoreSlots (t : Tile) (e : Env) (ws : List Word) : Tile :=
  let (t, _) := (List.range 8).foldl (fun (a : Tile × List Word) g =>
    let n := groupWords g
    let x := a.1.group g
    (a.1.setGroup g { x with active := imageOf g ((a.2.take n).map (seamWord e.me g)), standby := imageOf g (((a.2.drop n).take n).map (seamWord e.me g))
                             epoch := BitVec.ofNat 4 (a.2.getD (2 * n) 0).toNat
                             kept := if g < 7 then some (a.2.getD (2 * n + 1) 0) else none, heldW := [] },
      a.2.drop (2 * n + 2))) (t, ws)
  { t with sfHeld := none, sfGen := t.sfGen + 1 }.checkSlots

/-- The TC part restored: the core as it stood, its clock moved by `shift`, SEQ counters, kept status words, error summaries. -/
def Tile.restoreCore (t src : Tile) (shift : Int) : Tile :=
  let t := { t with
    core := { src.core with
      imem := t.core.imem, dmem := Memory.writeBytes [] 0 (Memory.readBytes src.core.dmem 0 16384)
      mode := .halted, bk := .none, mcycle := src.core.mcycle + BitVec.ofInt 64 shift }
    freeze := { t.freeze with coreWas := src.freeze.coreWas } }
  allUnits.foldl (fun t u => t.onUnit u fun x =>
    { x with issued := (src.unit u).issued, done := (src.unit u).done, kept := (src.unit u).kept
             errSum := (src.unit u).errSum }) t

/-- A part without a layout restored from what it was scanned out of (R326). -/
def Tile.restorePart (t : Tile) (p : Nat) (src : Tile) (shift : Int) : Tile :=
  match p with
  | 1 => { t.onSp (fun x => { x with spools := src.sp.spools }) with
      queues := src.queues, helds := src.helds, ports := src.ports, seqs := src.seqs, live := src.live, snap := src.snap
      spillOrder := src.spillOrder, nextFiring := src.nextFiring }
  | 2 => { t with mu := { t.mu with active := src.mu.active, shadow := src.mu.shadow, prev := src.mu.prev, loaded := src.mu.loaded } }
  | 3 => { t with la := { t.la with elems := src.la.elems, weight := src.la.weight, bad := [] } }
  | 5 => t.restoreCore src shift
  | 7 =>
    let t := { t.takeRegs src errParts with errCounts := src.errCounts }
    (List.range 7).foldl (fun t g => t.setGroup g { t.group g with patbad := (src.group g).patbad }) t
  | _ => t

/-- The bytes of the SPROWS part written back, with their POISON bits, by the shuttle's paths: bulk for KIND LOCAL (R325, R326). -/
def Tile.restoreRows (t : Tile) (me : Site) (eng : Nat) (ws : List Word) : Tile :=
  let rows := t.scanRows
  (List.range rows.length).foldl (fun t k =>
    t.writeRow me (rows.getD k 0) 0 (bytesOfWords ((ws.drop (128 * k)).take 128))
      (bitOf (ws.getD (128 * rows.length + k / 32) 0) (k % 32)) eng) t

/-- A part whose records pass is written (R326). -/
def State.restore (s : State) (site : Site) (eng p : Nat) (ws : List Word) : State :=
  match p with
  | 0 => s.onTile site fun t => t.restoreSlots (s.env site) ws
  | 4 => s.onTile site fun t =>
      { t with trf := Map.setAll trfZero [] ((List.range 16384).map fun i => (i, ws.getD i 0)) }
  | 6 => s.onTile site fun t =>
      { t with core := { t.core with imem := Memory.writeBytes [] 0 (bytesOfWords ws) } }
  | 8 => s.onTile site fun t => t.restoreRows site eng ws
  | _ =>
    let n := (s.tile site).partWords p
    match s.scans.find? fun x => x.part = p && ((List.range n).map fun i => Config.scanWord p i x.draw) == ws with
    | some x => s.onTile site fun t => t.restorePart p x.tile ((x.time : Int) - s.time site)
    | none => s.onTile site fun t => t.restorePart p ((Config.scanState p ws).getD t) 0

/-- `n` records of a scan as a scratchpad holds them from a row on (R325, R331). -/
def Tile.heldRecs (t : Tile) (me : Site) (row n : Nat) : Tile × List (List Word) :=
  let rr := t.readRows me (upto row (16 * n))
  (if rr.gated then rr.tile.err 1 else rr.tile, (List.range n).map fun k => wordsOf ((rr.bytes.drop (8192 * k)).take 8192) 2048)

/-- The records that a scan in reads: of its own scratchpad, of the named tile's, or those that came from the global address (R331).
A named tile without power gives none. -/
def State.scanImage (s : State) (site : Site) (kind n : Nat) (recs : List (List Word)) : State × List (List Word) :=
  if kind = 0 then
    let (t, rs) := (s.tile site).heldRecs site ((s.tile site).scanRow 0) n
    (s.setTile site t, rs)
  else if kind = 1 then
    match (s.tile site).scanSite with
    | some m =>
      if s.powered m then
        let (t, rs) := (s.tile m).heldRecs m ((s.tile site).scanRow 1) n
        (s.setTile m t, rs)
      else (s, [])
    | none => (s, [])
  else (s, recs)

/-- A scan in whose records cannot stand at the address that it names (R331). -/
def Tile.scanOutside (t : Tile) (kind n : Nat) : Bool :=
  (kind < 2 && 4096 < t.scanRow kind + 16 * n) || (kind = 1 && t.scanSite.isNone)

/-- Parts scanned in from their records, each checked, then written; a part that fails is not, and the tile raises a scan fault. At the
end the active images are checked (R305), and KEEPW is not allowed until an MM has completed (R76; assumption 82). -/
def State.scanParts (s : State) (site : Site) (eng : Nat) (parts : List Nat) (recs : List (List Word)) : State :=
  let (s, _) := parts.foldl (fun (a : State × List (List Word)) p =>
    let len := (a.1.tile site).partWords p
    let rest := a.2.drop (scanRecs len)
    match scanWords p len a.2 with
    | some ws => (a.1.restore site eng p ws, rest)
    | none => (a.1.onTile site fun t =>
        let t := t.flagBit Reg.TC_SCAN_STAT p
        t.raise site 0x09 0xD t.scanStat, rest)) (s, recs)
  s.onTile site fun t => (t.recheck (s.env site) (List.range 7)).noKeep

/-- Every part's records pass, so that it is written (R326). -/
def Tile.partsOk (t : Tile) (parts : List Nat) (recs : List (List Word)) : Bool :=
  (parts.foldl (fun (a : Bool × List (List Word)) p =>
    (a.1 && (scanWords p (t.partWords p) a.2).isSome, a.2.drop (scanRecs (t.partWords p)))) (true, recs)).1

/-- Step 5 of a slice: the saved parts of its tile are scanned in from the records of the save area; the tile may thaw if every part's
pass (R326, R491). A spare has none saved. -/
def State.sliceRestore (s : State) (x : Slice) (recs : List (List Word)) : State × Bool :=
  let t := s.tile x.site
  if (sliceParts x.item).isEmpty || t.asleep then (s, true)
  else
    let s := s.onTile x.site fun t => t.ownScan x.item s.saveAddr
    ((s.scanParts x.site 2 (sliceParts x.item) recs).onTile x.site fun u => u.takeRegs t scanOwn,
      (s.tile x.site).partsOk (sliceParts x.item) recs)

/-- SCAN_IN (R326): each selected part is checked, then written; a part that fails is not. -/
def State.scanIn (s : State) (site : Site) (ctl : Word) (recs : List (List Word)) : State :=
  let s := s.onTile site Tile.endGo
  let t := s.tile site
  let n := ((scanSel ctl).map fun p => scanRecs (t.partWords p)).sum
  let kind := fld ctl 26 2
  if !t.scannable || t.scanOutside kind n then s.onTile site fun t => t.flagBit Reg.TC_SCAN_STAT 10
  else
    let (s, recs) := s.scanImage site kind n recs
    s.scanParts site (if kind = 0 then 7 else 2) (scanSel ctl) recs

/-- SCAN_IN (R326): the write of TC_SCAN_CTL with GO = 1 and DIR = 1, with the records that the two passes read at a global address; a
LOCAL or TILE scan reads them from the scratchpads (assumption 11). -/
def execScanIn (site : Site) (ctl : Word) (recs : List (List Word)) (s : State) : Host.Outcome State Fault Refusal :=
  live s fun s =>
    if s.powered site && bitOf ctl 30 && bitOf ctl 29 then
      let s := s.onTile site fun t => t.writeScanCtl ctl
      if (s.tile site).freeze.slice then s.onTile site fun t => t.pendScan ctl
      else s.scanIn site ((s.tile site).reg Reg.TC_SCAN_CTL) recs
    else s

/-- GO with DIR = 1: a scan in from a global address starts when SCAN_IN brings its records, and GO reads 1 until then (assumption 52);
another, or one that is refused, at once. -/
def State.goScanIn (s : State) (n : Site) : State :=
  let ctl := (s.tile n).reg Reg.TC_SCAN_CTL
  if fld ctl 26 2 = 3 && (s.tile n).scannable then
    s.onTile n fun t => { t.setReg Reg.TC_SCAN_CTL (ctl ||| 0x40000000) with freeze := { t.freeze with scanPend := none } }
  else s.scanIn n ctl []

/-- The scan that has waited for a slice starts (R496). -/
def State.startPended (s : State) (n : Site) : State :=
  match (s.tile n).freeze.scanPend with
  | none => s
  | some _ => if bitOf ((s.tile n).reg Reg.TC_SCAN_CTL) 29 then s.goScanIn n else s.goScanOut n

/-- SCAN_DONE (R325): the last write of a scan has been acknowledged. -/
def Tile.scanEnd (t : Tile) : Tile :=
  if t.freeze.scanBusy && t.freeze.scanLeft = 0 && t.freeze.scanAcks.isEmpty && !t.holdsEng 7 then
    { t with freeze := { t.freeze with scanBusy := false } }
  else t

/-- The save of a slice has ended, and its test begins (R491). -/
def State.sliceSaved (s : State) (site : Site) : State :=
  match s.steward.slice with
  | some x =>
    if x.site = site && x.step == .saving && !(s.tile site).freeze.scanBusy then
      s.onSteward fun y => { y with slice := some { x with step := .testing } }
    else s
  | none => s

def execScanDone (site : Site) (s : State) : Host.Outcome State Fault Refusal :=
  live s fun s => (s.onTile site Tile.scanEnd).sliceSaved site

end Sys2Proof.Machine
end

