-- ==== Sys2Proof/Machine/Weft.lean ====
section
/-! DEFINITION. The weft (R334 to R366): paths, budget buckets, injection, routers, losses. -/

namespace Sys2Proof.Machine

/-! ## Paths (R348, R349) -/

/-- A position of the grid, columns and rows counted as integers so that a step outside can be named. -/
abbrev Pos := Int × Int

def posOf (n : Nat) : Pos := ((siteX n : Int), (siteY n : Int))
def siteNo (p : Pos) : Nat := (p.2 * 48 + p.1).toNat

/-- A position that no packet may enter: outside the die, or a site whose router is off. -/
def shutAt (off : Nat → Bool) (p : Pos) : Bool :=
  !(0 ≤ p.1 && p.1 < 48 && 0 ≤ p.2 && p.2 < 50) || off (siteNo p)

/-- A step between neighbours crosses a seam (R17). -/
def crossesSeam (a b : Pos) : Bool :=
  (min a.1 b.1 == 23 && max a.1 b.1 == 24) || (min a.2 b.2 == 24 && max a.2 b.2 == 25)

/-- Consecutive positions that satisfy `p`, from the first on. -/
def runLength (p : Nat → Bool) : Nat → Nat → Nat
  | 0, _ => 0
  | fuel + 1, k => if p k then runLength p fuel (k + 1) + 1 else 0

/-- The positions from a start, `n` steps of a direction, the start included. -/
def ray (a d : Pos) (n : Nat) : List Pos := (List.range (n + 1)).map fun k : Nat => (a.1 + d.1 * (k : Int), a.2 + d.2 * (k : Int))

/-- A side of a detour: the positions from the step aside to the end of the side row or column, if the step and the side are
open and the step crosses no seam (R349). -/
def sideWay (off : Nat → Bool) (a aside d : Pos) (n : Nat) : Option (List Pos) :=
  let b : Pos := (a.1 + aside.1, a.2 + aside.2)
  let way := ray b d n
  if crossesSeam a b || way.any (shutAt off) then none else some way

/-- A hop of a path: the position entered, and whether the detour lane is used there (R349). -/
abbrev Hop := Pos × Bool

def plain (p : Pos) : Hop := (p, false)

/-- The hops of a detour, from the step aside until it is left. -/
def aside (way : List Pos) : List Hop := way.map fun p => (p, true)

/-- Y travel to row `dy` (R348, R349). -/
def pathY (off : Nat → Bool) (dy : Int) : Nat → Pos → Option (List Hop)
  | 0, _ => none
  | fuel + 1, a =>
    if a.2 = dy then some []
    else
      let d : Pos := (0, if a.2 < dy then 1 else -1)
      let at' : Nat → Pos := fun k => (a.1, a.2 + d.2 * k)
      if !shutAt off (at' 1) then (pathY off dy fuel (at' 1)).map (plain (at' 1) :: ·)
      else
        let n := runLength (fun k => shutAt off (at' k)) 50 1
        match (sideWay off a (1, 0) d (n + 1)).orElse fun _ => sideWay off a (-1, 0) d (n + 1) with
        | some way => (pathY off dy fuel (at' (n + 1))).map (aside way ++ plain (at' (n + 1)) :: ·)
        | none => none

/-- X travel to column `dx`, then Y travel to row `dy` (R348, R349). -/
def pathX (off : Nat → Bool) (dx dy : Int) : Nat → Pos → Option (List Hop)
  | 0, _ => none
  | fuel + 1, a =>
    if a.1 = dx then pathY off dy 60 a
    else
      let d : Pos := (if a.1 < dx then 1 else -1, 0)
      let at' : Nat → Pos := fun k => (a.1 + d.1 * k, a.2)
      if !shutAt off (at' 1) then (pathX off dx dy fuel (at' 1)).map (plain (at' 1) :: ·)
      else
        let n := runLength (fun k => shutAt off (at' k)) 48 1
        let gap := (dx - a.1).natAbs
        let len := if gap ≤ n then gap else n + 1
        let first : Int := if dy < a.2 then -1 else 1
        match (sideWay off a (0, first) d len).orElse fun _ => sideWay off a (0, -first) d len with
        | some way =>
          if gap ≤ n then (pathY off dy 60 (way.getLastD a)).map (aside way ++ ·)
          else (pathX off dx dy fuel (at' (n + 1))).map (aside way ++ plain (at' (n + 1)) :: ·)
        | none => none

/-- The hops of a packet after its source: the site entered and whether by the detour lane; none where it cannot get there. -/
def weftHops (off : Nat → Bool) (src dst : Nat) : Option (List (Nat × Bool)) :=
  if off dst then none
  else (pathX off (siteX dst) (siteY dst) 60 (posOf src)).map fun l => l.map fun h => (siteNo h.1, h.2)

/-- The sites that a packet enters after its source, up to its destination; none where it cannot get there. -/
def weftPath (off : Nat → Bool) (src dst : Nat) : Option (List Nat) := (weftHops off src dst).map fun l => l.map (·.1)

/-- The fault map: sites whose router is off (R350, R351). -/
def Steward.off (s : Steward) (n : Nat) : Bool := s.site n == 0

/-- The fault map before its last change. -/
def Steward.oldOff (s : Steward) (n : Nat) : Bool := Map.get s.fused s.oldSites n == 0

/-! ## Budget buckets (R356 to R363) -/

/-- The bucket register of a class at a point (R361, R566). -/
def State.bucketReg (s : State) (pt : InjPoint) (c : Nat) : Word :=
  match pt with
  | .tile n => (s.tile n).reg (Reg.WF_BKT + 4 * c)
  | .port p => (s.tile (siteOfPort p)).reg (Reg.WF_PBKT + 4 * c)
  | .attach a => s.steward.reg (Reg.ST_ABKT + 0x40 * a.val + 4 * c)

def noBucket : Nat → Bucket := fun _ => Bucket.reset

def State.bucket (s : State) (pt : InjPoint) (c : Nat) : Bucket :=
  match pt with
  | .tile n => Map.get noBucket (s.tile n).buckets c
  | .port p => Map.get noBucket (s.port p).buckets c
  | .attach a => Map.get noBucket s.steward.attBuckets (8 * a.val + c)

def State.setBucket (s : State) (pt : InjPoint) (c : Nat) (b : Bucket) : State :=
  match pt with
  | .tile n => s.onTile n fun t => { t with buckets := Map.set noBucket t.buckets c b }
  | .port p => s.onPort p fun x => { x with buckets := Map.set noBucket x.buckets c b }
  | .attach a => s.onSteward fun x => { x with attBuckets := Map.set noBucket x.attBuckets (8 * a.val + c) b }

/-- LEVEL of a bucket under a register value, at a period: at every period start it becomes the smaller of LEVEL + RATE and
BURST (R358). -/
def bucketLevel (reg : Word) (b : Bucket) (period : Nat) : Nat :=
  if fld reg 16 16 = 0xFFFF then 0xFFFF
  else if period ≤ b.at' then b.level
  else min (b.level + fld reg 16 16 * (period - b.at')) (fld reg 0 16)

/-- LEVEL as WF_BKTn_STAT reports it (R362). -/
def State.level (s : State) (pt : InjPoint) (c : Nat) : Nat := bucketLevel (s.bucketReg pt c) (s.bucket pt c) s.periods

/-- LEVEL brought up to the present period, before the bucket's register changes. -/
def State.settleBucket (s : State) (pt : InjPoint) (c : Nat) : State :=
  let n := s.level pt c
  s.setBucket pt c { level := if fld (s.bucketReg pt c) 16 16 = 0xFFFF then (s.bucket pt c).level else n, at' := s.periods }

/-- `n` flits taken from a bucket, if it holds them; a class with RATE 0 injects nothing (R358, R361). -/
def State.charge (s : State) (pt : InjPoint) (c n : Nat) : Option State :=
  if fld (s.bucketReg pt c) 16 16 = 0xFFFF then some s
  else if fld (s.bucketReg pt c) 16 16 = 0 then none
  else if n ≤ s.level pt c then some (s.setBucket pt c { level := s.level pt c - n, at' := s.periods })
  else none

/-! ## Injection (R350, R351, R354, R358, R469) -/

/-- Packets waiting at a point. -/
def State.line (s : State) (pt : InjPoint) : List Pkt :=
  match pt with
  | .tile n => (s.tile n).outq
  | .port p => (s.port p).outq
  | .attach _ => s.steward.outq.filter fun p => p.src == pt

/-- A packet leaves the line of its point. -/
def State.unline (s : State) (pt : InjPoint) (p : Pkt) : State :=
  match pt with
  | .tile n => s.onTile n fun t => { t with outq := t.outq.erase p }
  | .port x => s.onPort x fun q => { q with outq := q.outq.erase p }
  | .attach _ => s.onSteward fun x => { x with outq := x.outq.erase p }

/-- The site that a valid entry of the darn map gives for a darned one (R469). -/
def Steward.darned (s : Steward) (n : Site) : Site :=
  match s.darnMap.find? fun e : Nat × Nat × Nat × Bool => e.2.1 = n.val && e.2.2.2 with
  | some e => if h : e.2.2.1 < 2400 then ⟨e.2.2.1, h⟩ else n
  | none => n

/-- A site lies in one of a multicast's rectangles (R355). -/
def inRects (l : List (Nat × Nat × Nat × Nat)) (n : Nat) : Bool :=
  l.any fun r => r.1 ≤ siteX n && siteX n ≤ r.2.1 && r.2.2.1 ≤ siteY n && siteY n ≤ r.2.2.2

/-- The sites in service that a multicast is for: those of its rectangles, each under the darn map and once (R355, R469). -/
def Steward.multiSites (s : Steward) (l : List (Nat × Nat × Nat × Nat)) : List Site :=
  allSites.filter fun n => !s.off n.val &&
    ((inRects l n.val && s.darned n = n) || s.darnMap.any fun e : Nat × Nat × Nat × Bool =>
      e.2.2.2 && e.2.2.1 = n.val && inRects l e.2.1)

/-- A route flit that the source accepts (R354). -/
def rectsOk (b0 : Bool) (l : List (Nat × Nat × Nat × Nat)) : Bool :=
  1 ≤ l.length && l.length ≤ 4 && (b0 || l.length = 1) &&
    l.all fun r => r.1 ≤ r.2.1 && r.2.1 < 48 && r.2.2.1 ≤ r.2.2.2 && r.2.2.2 < 50

/-- Where a unicast packet ends, under the darn map for sites. -/
def Steward.target (s : Steward) (d : Dest) : Site :=
  match d with
  | .site n => s.darned n
  | .att a => siteOfPort (attPort a)
  | .port p => siteOfPort p
  | .rects _ => 0

/-- What a packet takes from its bucket: its flits, and a multicast's route flit (R354, R358). -/
def Pkt.cost (p : Pkt) : Nat := p.flits + match p.dst with | .rects _ => 1 | _ => 0

/-- A rectangle's parts outside another, in disjoint rectangles. -/
def rectMinus (a b : Nat × Nat × Nat × Nat) : List (Nat × Nat × Nat × Nat) :=
  let (x0, x1, y0, y1) := a
  let (u0, u1, v0, v1) := b
  if u1 < x0 || x1 < u0 || v1 < y0 || y1 < v0 then [a]
  else
    (if y0 < v0 then [(x0, x1, y0, v0 - 1)] else []) ++ (if v1 < y1 then [(x0, x1, v1 + 1, y1)] else []) ++
      (if x0 < u0 then [(x0, u0 - 1, max y0 v0, min y1 v1)] else []) ++
      (if u1 < x1 then [(u1 + 1, x1, max y0 v0, min y1 v1)] else [])

/-- Disjoint rectangles that cover what a list of rectangles covers (R392; which ones, assumption 78, DESIGN CHOICE). -/
def disjointRects (l : List (Nat × Nat × Nat × Nat)) : List (Nat × Nat × Nat × Nat) :=
  l.foldl (fun acc r => acc ++ acc.foldl (fun ps b => ps.flatMap fun a => rectMinus a b) [r]) []

/-- A flag and a count of a site's router. -/
def State.routerErr (s : State) (n : Site) (bit counter : Nat) : State :=
  s.onTile n fun t => (t.flagBit Reg.WF_ERR bit).count counter 1

/-- A packet that cannot reach its destination is not injected; a row counts refused, a token or credit is counted dropped
(R350). -/
def State.unreachable (s : State) (pt : InjPoint) (p : Pkt) : State :=
  let s := s.routerErr (pointSite pt) 3 Reg.WF_DROP_COUNT
  match pt, p.dst, p.body with
  | .tile me, .site d, .data r => s.onTile me fun t => t.rowCounted d r.row.toNat false
  | .tile me, _, .token _ _ _ _ => s.onTile me fun t => t.count Reg.TC_WVDROP_COUNT 1
  | .tile me, _, .credit _ _ _ _ => s.onTile me fun t => t.count Reg.TC_WVDROP_COUNT 1
  | _, _, _ => s

/-- A router holds new packets after a change of the fault map (R351). -/
def State.holding (s : State) (n : Site) : Bool := (s.tile n).router.released != s.steward.mapChanges

/-- The row of a command that now goes to the site in place of a darned one is answered from there (R469). -/
def Tile.redirectAck (t : Tile) (old new : Site) (row : Nat) : Tile :=
  if old = new then t
  else
    let go := fun r : Run => { r with acks := List.erase r.acks (old.val, row) ++ [(new.val, row)] }
    t.onUnit .sh fun x => { x with running := onFirst (fun r : Run => r.acks.contains (old.val, row)) go x.running }

/-- A packet's flits come to the local port of its source (R334). -/
def State.stage (s : State) (p : Pkt) : State :=
  s.onTile (pointSite p.src) fun t => { t with router := { t.router with staged := t.router.staged ++ p.staged } }

/-- A packet waits at its source for the end of a hold (R351). -/
def State.holdBack (s : State) (p : Pkt) : State :=
  s.onTile (pointSite p.src) fun t => { t with router := { t.router with heldPk := t.router.heldPk ++ [p] } }

/-- A change of the fault map moved the path of a packet. -/
def State.moved (s : State) (p : Pkt) (dst : Site) : Bool :=
  let src := (pointSite p.src).val
  p.vch < 2 && s.holding (pointSite p.src) && weftPath s.steward.oldOff src dst.val != weftPath s.steward.off src dst.val

/-- A packet enters the weft, or is held after a change of the fault map. -/
def State.enter (s : State) (pt : InjPoint) (p : Pkt) (dst : Site) : State :=
  let q := match p.dst with | .site _ => { p with dst := .site dst } | _ => p
  let s := match pt, p.dst, p.body with
    | .tile me, .site old, .data r => s.onTile me fun t => t.redirectAck old dst r.row.toNat
    | _, _, _ => s
  if s.moved p dst then s.holdBack q else { s with net := s.net ++ [q] }.stage q

/-- A multicast enters the weft, one packet for each site it reaches; sites without a path are left out, flagged and counted once
(R350, R355; assumption 72). -/
def State.enterMulti (s : State) (p : Pkt) (l : List (Nat × Nat × Nat × Nat)) : State :=
  let src := pointSite p.src
  let dests := s.steward.multiSites l
  if dests.any (s.moved p) then s.holdBack p
  else
    let ok := dests.filter fun n => (weftPath s.steward.off src.val n.val).isSome
    let s := if ok.length < dests.length then s.routerErr src 3 Reg.WF_DROP_COUNT else s
    { s with net := s.net ++ ok.map fun n => { p with dst := .site n } }.stage p

/-- A multicast that its source may send: KIND DATA, CTRL or PATTERN from an attachment or a port's injector, with a good route flit,
of several rectangles only with MCAST4 agreed (R354, R392, R393). -/
def Steward.multiOk (s : Steward) (p : Pkt) (l : List (Nat × Nat × Nat × Nat)) : Bool :=
  (p.body.kind = 1 || p.body.kind = 5 || p.body.kind = 6) && rectsOk (s.feature 0) l &&
    match p.src with | .tile _ => false | .port _ => true | .attach _ => true

/-- What the sender sends of a packet: without MCAST4 one packet for each of the disjoint rectangles of a multicast of several
(R392). -/
def Steward.sends (s : Steward) (p : Pkt) : List Pkt :=
  match p.dst with
  | .rects l =>
    if !s.feature 0 && 2 ≤ l.length && rectsOk true l then (disjointRects l).map fun r => { p with dst := .rects [r] } else [p]
  | _ => [p]

/-- A site hem has stopped the router (R461). -/
def Tile.siteHem (t : Tile) : Bool := bitOf (t.reg Reg.TC_HEM) 31 && fld (t.reg Reg.TC_HEM) 0 2 == 1

/-- The first element that satisfies `p` replaced by several. -/
def replaceFirst {α : Type} (p : α → Bool) (f : α → List α) : List α → List α
  | [] => []
  | x :: xs => if p x then f x ++ xs else x :: replaceFirst p f xs

/-- The first waiting packet of a class as its sender sends it (R392). -/
def State.parted (s : State) (pt : InjPoint) (c : Fin 8) : State :=
  let f := replaceFirst (fun p : Pkt => p.cls = c && p.src == pt) s.steward.sends
  match (s.line pt).find? fun p => p.cls = c with
  | some p =>
    if s.steward.sends p = [p] then s
    else match pt with
      | .tile n => s.onTile n fun t => { t with outq := f t.outq }
      | .port x => s.onPort x fun q => { q with outq := f q.outq }
      | .attach _ => s.onSteward fun x => { x with outq := f x.outq }
  | none => s

/-- The error counts of a claimed tile, sent to the loom: at the first error, then at most once in each microsecond (R447). -/
def Tile.report (t : Tile) (me : Site) : Tile :=
  if t.reported || t.errCounts.all (· == 0) then t
  else { t.tell me (.errors t.errCounts) with errCounts := [0, 0, 0, 0, 0, 0], reported := true }

/-- A tile's report of errors joins what waits there. -/
def State.reports (s : State) (pt : InjPoint) : State :=
  match pt with
  | .tile n => s.onTile n fun t => t.report n
  | _ => s

/-- PACKET_INJECT (R358): the first waiting packet of a class at a point is injected if its bucket holds its flits. -/
def State.inject (s : State) (pt : InjPoint) (c : Fin 8) : State :=
  let src := pointSite pt
  let s := (s.reports pt).parted pt c
  match (s.line pt).find? fun p => p.cls = c with
  | none => s
  | some p =>
    if s.steward.off src.val || (s.tile src).siteHem then s
    else match p.dst with
      | .rects l =>
        if !s.steward.multiOk p l then (s.unline pt p).routerErr src 0 Reg.WF_DROP_COUNT
        else match s.charge pt c.val p.cost with
          | none => s
          | some s' => (s'.unline pt p).enterMulti p l
      | d =>
        let dst := s.steward.target d
        if (weftPath s.steward.off src.val dst.val).isNone then (s.unline pt p).unreachable pt p
        else match s.charge pt c.val p.flits with
          | none => s
          | some s' => (s'.unline pt p).enter pt p dst

def execPacketInject (pt : InjPoint) (cls : Fin 8) (s : State) : Host.Outcome State Fault Refusal :=
  live s fun s => s.inject pt cls

/-- A held packet enters on its new path; one whose destination is now fenced does not (R351). -/
def State.unhold (s : State) (p : Pkt) : State :=
  match p.dst with
  | .rects l => s.enterMulti p l
  | d =>
    let dst := s.steward.target d
    if (weftPath s.steward.off (pointSite p.src).val dst.val).isNone then s.unreachable p.src p else s.enter p.src p dst

/-- FMAP_HOLD_RELEASE (R351). -/
def execFmapHoldRelease (site : Site) (s : State) : Host.Outcome State Fault Refusal :=
  live s fun s =>
    let held := (s.tile site).router.heldPk
    let s := s.onTile site fun t =>
      { t with router := { t.router with heldPk := [], released := s.steward.mapChanges } }
    held.foldl State.unhold s

/-! ## Flits at a router (R335 to R342, R354, R355, R359) -/

/-- Flits that an input buffer of a channel holds, in each of its lanes (R341, R349). -/
def bufCap (v : Nat) : Nat := if v = 1 || v = 2 then 16 else 8

/-- A channel that the table of kinds allows (R337). -/
def kindOk (kind v : Nat) : Bool :=
  match kind with
  | 1 => v == 1 || v == 2 | 2 => v == 0 | 3 => v == 1 | 4 => v == 0 | 5 => v == 0 | 6 => v == 2 | 7 => v == 1
  | 8 => v == 0 | 9 => v == 3 | _ => false

/-- A head flit that a router passes on: a kind on a channel of the table, a reach packet with a defined ROP, a multicast only of the
kinds that may be one (R337, R354, R407). -/
def headOk (f : Flit) (v : Nat) : Bool :=
  let kind := fld f.ctl 52 4
  kindOk kind v && (kind != 7 || (1 ≤ fld f.ctl 20 4 && fld f.ctl 20 4 ≤ 7)) &&
    (!bitOf f.ctl 48 || kind == 1 || kind == 5 || kind == 6)

/-- The side of a neighbour, as R215 codes sides. -/
def sideOf (a b : Nat) : Nat :=
  if b + 48 = a then 0 else if b = a + 1 then 1 else if b = a + 48 then 2 else 3

/-- The hop that follows site `x` on a path given with its source. -/
def afterIn (x : Nat) : List (Nat × Bool) → Option (Nat × Bool)
  | a :: b :: l => if a.1 = x then some b else afterIn x (b :: l)
  | _ => none

/-- `a` is directly followed by `b` on a path. -/
def adjacentIn (a b : Nat) : List (Nat × Bool) → Bool
  | x :: y :: l => (x.1 == a && y.1 == b) || adjacentIn a b (y :: l)
  | _ => false

/-- A multicast's way from a router: the outputs with their route flits, those whose next buffer it enters by the detour lane, and
whether it is delivered here. -/
structure MultiWay where
  outs : List (Nat × BitVec 512)
  lanes : List Nat
  here : Bool

/-- Where a multicast goes from a router (R355): on every output that the path of a site it serves takes from here. -/
def routeMulti (x : Steward) (c from' src : Nat) (p : BitVec 512) : MultiWay :=
  let lo := fld p 136 6
  let hi := fld p 144 6
  let dests := ((x.multiSites (routeRects p)).map (·.val)).filter fun n => lo ≤ siteY n && siteY n ≤ hi
  let mine := dests.filterMap fun n =>
    match weftHops x.off src n with
    | some w => if c = src || adjacentIn from' c ((src, false) :: w) then some (n, afterIn c ((src, false) :: w)) else none
    | none => none
  let via := fun o => mine.filter fun e => match e.2 with | some m => sideOf c m.1 == o | none => false
  let detour := [0, 2].any fun o => (via o).any fun e => siteX e.1 != siteX c
  let used := [0, 1, 2, 3].filter fun o => !(via o).isEmpty
  { outs := used.map fun o =>
      let rows := (via o).map fun e => siteY e.1
      (o, if detour && (o == 0 || o == 2) then setRows p (rows.foldl min 49) (rows.foldl max 0) else p)
    lanes := used.filter fun o => (via o).any fun e => e.2.any (·.2)
    here := mine.any fun e => e.1 == c }

/-- The route of a head flit at a router: none where it can go nowhere (R348, R349, R355). -/
def routeHead (x : Steward) (c from' side : Nat) (lane : Bool) (f : Flit) : Option RouteSt :=
  let src := flitSrc f.ctl
  let base : RouteSt := { side := side, vch := flitVch f, src := src, ctl := f.ctl, outs := [], started := [], todo := [], here := false
                          lane := lane }
  if bitOf f.ctl 48 then
    let w := routeMulti x c from' src f.payload
    some { base with outs := w.outs, todo := w.outs.map (·.1), here := w.here, lanes := w.lanes }
  else
    let dst := flitDst f.ctl
    if dst = c then some { base with here := true }
    else
      let hop := (match weftHops x.off src dst with
        | some w => afterIn c ((src, false) :: w)
        | none => none).orElse fun _ => (weftHops x.off c dst).bind fun w => w.head?
      hop.map fun m => { base with outs := [(sideOf c m.1, f.payload)], todo := [sideOf c m.1]
                                   lanes := if m.2 then [sideOf c m.1] else [] }

/-- A discarded packet: flagged, counted, one DROP to its source (R352). -/
def Tile.dropPacket (t : Tile) (me : Site) (src : Nat) (ctl : BitVec 64) : Tile :=
  let t := (t.flagBit Reg.WF_ERR 2).count Reg.WF_DROP_COUNT 1
  if h : src < 2400 then
    let kind := fld ctl 52 4
    t.post { src := .tile me, dst := .site ⟨src, h⟩, cls := 0, flits := 1
             body := .drop (BitVec.ofNat 4 kind) (BitVec.ofNat 12 (if kind = 1 then fld ctl 12 12 else 0)) }
  else t

def Tile.onRouter (t : Tile) (f : RouterSt → RouterSt) : Tile := { t with router := f t.router }

/-- The flits in a lane of an input buffer, oldest first. -/
def RouterSt.buf (r : RouterSt) (side v : Nat) (lane : Bool := false) : List BufFlit :=
  r.bufs.filter fun b => b.side = side && b.vch = v && b.lane = lane

/-- The front flit of an input, channel and lane. -/
def RouterSt.front (r : RouterSt) (side v : Nat) (lane : Bool := false) : Option BufFlit :=
  r.bufs.find? fun b => b.side = side && b.vch = v && b.lane = lane

def RouterSt.route (r : RouterSt) (side v : Nat) (lane : Bool := false) : Option RouteSt :=
  r.routes.find? fun x => x.side = side && x.vch = v && x.lane = lane

def RouterSt.setRoute (r : RouterSt) (x : RouteSt) : RouterSt :=
  { r with routes := (r.routes.filter fun y => !(y.side = x.side && y.vch = x.vch && y.lane = x.lane)) ++ [x] }

/-- A route for the front flit of an input, if it needs one; a flit of no packet, a reserved kind or a kind on a wrong channel
goes nowhere (R337). -/
def Tile.takeRoute (t : Tile) (me : Site) (x : Steward) (side v : Nat) (lane : Bool) : Tile :=
  match t.router.front side v lane, t.router.route side v lane with
  | some b, none =>
    let lost : RouteSt := { side := side, vch := v, src := 0, ctl := b.flit.ctl, outs := [], started := [], todo := [], here := false
                            lane := lane }
    if !flitHead b.flit then t.onRouter fun r => r.setRoute lost
    else if !headOk b.flit v then
      ((t.flagBit Reg.WF_ERR 0).count Reg.WF_DROP_COUNT 1).onRouter fun r => r.setRoute lost
    else
      let from' := ((stepSide me side).map (·.val)).getD me.val
      match routeHead x me.val from' side lane b.flit with
      | some y => t.onRouter fun r => r.setRoute y
      | none => (t.dropPacket me (flitSrc b.flit.ctl) b.flit.ctl).onRouter fun r => r.setRoute lost
  | some _, some y =>
    if y.todo.isEmpty then t.onRouter fun r => r.setRoute { y with todo := y.outs.map (·.1) } else t
  | none, _ => t

/-- An output and channel that another packet is using (R342). -/
def RouterSt.busy (r : RouterSt) (o : Nat) (x : RouteSt) : Bool :=
  r.routes.any fun y => y.vch = x.vch && !(y.side = x.side && y.lane = x.lane) && y.started.contains o

/-- The inputs of a router, each with its two lanes: four links and the local port (R334, R349). -/
def inputs : List (Nat × Bool) := [0, 1, 2, 3, 4].flatMap fun side => [(side, false), (side, true)]

/-- The packet that an output would send of a channel, where the next buffer's lane has room: PATTERN, then class TEST
before the others (R471, R492), then the first input in the order of its number (assumption 33). -/
def RouterSt.candidate (r : RouterSt) (o v : Nat) (room : Bool → Bool) : Option RouteSt :=
  let waiting := inputs.filterMap fun e =>
    match r.route e.1 v e.2 with
    | some x => if x.todo.contains o && !r.busy o x && (r.front e.1 v e.2).isSome && room (x.lanes.contains o) then some x else none
    | none => none
  ((waiting.find? fun x => fld x.ctl 52 4 = 6).or (waiting.find? fun x => fld x.ctl 49 3 = 3)).or waiting.head?

/-- The channel that an output serves among those that wait (R342). -/
def chooseVch (waits : Nat → Bool) (both : Nat) : Option Nat :=
  if waits 0 then some 0 else if waits 1 then some 1
  else if waits 2 && waits 3 then some (if both % 8 = 7 then 3 else 2)
  else if waits 2 then some 2 else if waits 3 then some 3 else none

/-- The counts of a router's output, in the present period (R359). -/
def Tile.countFlit (t : Tile) (period o v : Nat) : Tile :=
  let r := t.router
  let r := if r.period = period then r else { r with counts := List.replicate 8 0, period := period }
  let r := { r with counts := r.counts.modify (2 * o + v) (· + 1) }
  let t := { t with router := r }
  let cap := fld (t.reg Reg.WF_LINKCAP) (if v = 0 then 16 else 0) 16
  if cap < r.counts.getD (2 * o + v) 0 then (t.flagBit Reg.WF_ERR 1).count Reg.WF_OVER_COUNT 1 else t

/-- One flit sent on an output; it stays in the replay buffer until it is acknowledged (R339). -/
def Tile.sendFlit (t : Tile) (period o v : Nat) (x : RouteSt) (b : BufFlit) : Tile :=
  let payload := if flitHead b.flit then ((x.outs.find? fun e => e.1 = o).map (·.2)).getD b.flit.payload else b.flit.payload
  let f : Flit := { ctl := b.flit.ctl, payload := payload, crc := flitCrc b.flit.ctl payload }
  let x' := { x with todo := x.todo.erase o
                     started := if flitTail b.flit then x.started.erase o
                       else if x.started.contains o then x.started else o :: x.started }
  let t := t.onRouter fun r =>
    { r.setRoute x' with
      sent := r.sent ++ [{ side := o, vch := v, flit := f, lane := x.lanes.contains o, pkt := b.pkt, head := x.ctl }] }
  if v < 2 then t.countFlit period o v else t

/-- The flits of an output that its receiver has not acknowledged, oldest first (R339). -/
def RouterSt.replay (r : RouterSt) (o : Nat) : List BufFlit := r.sent.filter fun b => b.side = o

/-- An output whose router has gone off: the packets of which flits are held for it go no further there, and the source of each is told
once, also of one whose last flit stands in the replay buffer (R352). -/
def Tile.cutOutput (t : Tile) (me : Site) (o : Nat) : Tile :=
  let t := (t.router.replay o).foldl (fun t b => if flitTail b.flit then t.dropPacket me (flitSrc b.head) b.head else t) t
  let t := (t.router.routes.filter fun x => x.outs.any fun e => e.1 = o).foldl (fun t x =>
    (if x.todo.contains o || x.started.contains o then t.dropPacket me x.src x.ctl else t).onRouter fun r => r.setRoute
      { x with outs := x.outs.filter fun e => e.1 ≠ o, todo := x.todo.erase o, started := x.started.erase o }) t
  t.onRouter fun r => { r with sent := r.sent.filter fun b => b.side ≠ o }

/-- One handshake of an output (R339, R341, R342, R359): the flit needs room at the receiver and in the replay buffer. -/
def State.output (s : State) (n : Site) (o : Nat) : State :=
  let t := s.tile n
  match stepSide n o with
  | none => s.onTile n fun t => t.cutOutput n o
  | some m =>
    if s.steward.off m.val then s.onTile n fun t => t.cutOutput n o
    else
      let back := (o + 2) % 4
      let next := s.tile m
      let flying := t.router.replay o
      if bitOf next.router.down back || next.siteHem || 8 ≤ flying.length then s
      else
        let room := fun v lane => (next.router.buf back v lane).length +
          (flying.filter fun b => b.vch = v && b.lane = lane).length < bufCap v
        let waits := fun v => (t.router.candidate o v (room v)).isSome
        match chooseVch waits (t.router.both.getD o 0) with
        | none => s
        | some v =>
          let t := if waits 2 && waits 3 && 2 ≤ v then t.onRouter fun r => { r with both := r.both.modify o (· + 1) } else t
          match t.router.candidate o v (room v) with
          | some x =>
            match t.router.front x.side v x.lane with
            | some b => s.setTile n (t.sendFlit s.periods o v x b)
            | none => s
          | none => s

/-- The packet whose last flit an input now delivers here. -/
def RouterSt.completed (r : RouterSt) (side v : Nat) (lane : Bool) : Option Pkt :=
  match r.front side v lane, r.route side v lane with
  | some b, some x => if x.todo.isEmpty && x.here && flitTail b.flit then b.pkt else none
  | _, _ => none

/-- The copy of a packet that goes to a site: itself, or its multicast. -/
def Pkt.copyOf (p q : Pkt) : Bool :=
  { q with whole := false } == (match p.dst with | .rects _ => { p with dst := q.dst, whole := false } | _ => { p with whole := false })

/-- The first element that satisfies `p`, changed. -/
def onFirstPkt (l : List Pkt) (p : Pkt → Bool) (f : Pkt → Pkt) : List Pkt :=
  match l with
  | [] => []
  | x :: xs => if p x then f x :: xs else x :: onFirstPkt xs p f

/-- A packet stands whole in the ejection buffer of a site (R344). -/
def State.arrived (s : State) (n : Site) (q : Pkt) : State :=
  { s with net := onFirstPkt s.net (fun p => !p.whole && p.dst.site? == some n && q.copyOf p) fun p => { p with whole := true } }

/-- Flits that have gone everywhere they go leave their buffer; those delivered here stay until their packet is whole. -/
def Tile.retireFlit (t : Tile) (side v : Nat) (lane : Bool) : Tile :=
  match t.router.front side v lane, t.router.route side v lane with
  | some b, some x =>
    if !x.todo.isEmpty then t
    else t.onRouter fun r =>
      let r := { r with bufs := r.bufs.erase b }
      let r := if x.here && !flitTail b.flit then { r with eject := r.eject ++ [b] } else r
      if flitTail b.flit then
        { r with routes := r.routes.erase x
                 eject := r.eject.filter fun e => !(e.side = side && e.vch = v && e.lane = lane) }
      else r
  | _, _ => t

def State.retire (s : State) (n : Site) (side v : Nat) (lane : Bool) : State :=
  let s := match (s.tile n).router.completed side v lane with | some q => s.arrived n q | none => s
  s.onTile n fun t => t.retireFlit side v lane

/-- Injected flits move to the local input, each channel in order, as far as it has room (R341). -/
def RouterSt.fill (r : RouterSt) : RouterSt :=
  r.staged.foldl (fun r b =>
    if (r.buf 4 b.vch).length < bufCap b.vch && !r.staged.any (·.vch = b.vch) then { r with bufs := r.bufs ++ [b] }
    else { r with staged := r.staged ++ [b] }) { r with staged := [] }

/-- The inputs, channels and lanes of a router. -/
def lanesOf : List (Nat × Nat × Bool) := inputs.flatMap fun e => [0, 1, 2, 3].map fun v => (e.1, v, e.2)

/-! ## Releases (R443) -/

/-- A scrub of a tile starts (R253, R443): it fires no more, its core halts, its commands are aborted and its windows are closed. -/
def State.startScrub (s : State) (n : Site) : State :=
  let e := s.env n
  s.onTile n fun t =>
    let t := (t.haltCore).abortUnits e allUnits
    let shut := fun m : Map Word => (upto 89 16).foldl (fun m k => Map.upd (voidWord 3) m k clearEn) (Map.set (voidWord 3) m 56 0)
    let g := t.group 3
    let t := t.setGroup 3 { g with active := shut g.active, standby := shut g.standby
                                   kept := some (crc32cWords (slotImage 3 (shut g.active))) }
    { t with freeze := { t.freeze with releasing := true }, scrubbing := true }

/-- The stream that has claimed a tile (R456). -/
def Tile.stream? (t : Tile) : Option StreamNo :=
  if bitOf (t.reg Reg.TC_STREAM) 31 then some ⟨fld (t.reg Reg.TC_STREAM) 0 14 % 16384, Nat.mod_lt _ (by decide)⟩ else none

/-- The stream whose tiles a message releases. -/
def PktBody.released : PktBody → Option StreamNo
  | .ctrl (.release n) => some n
  | _ => none

/-- The release of a stream's tiles at a tile that it has come to: a tile of another stream ignores it. -/
def State.releaseIn (s : State) (n : Site) (m : StreamNo) : State :=
  if (s.tile n).stream? = some m && !(s.tile n).scrubbing then s.startScrub n else s

/-- The table has no row for this message: a tile takes it as soon as it stands whole and what came before it has been taken. -/
def State.takeRelease (s : State) (n : Site) : State :=
  match s.net.find? fun p => p.whole && p.dst == .site n && p.body.released.isSome && s.mayTake p with
  | some p => match p.body.released with
    | some m => (s.deliver (· == p)).releaseIn n m
    | none => s
  | none => s

/-! ## Flit times -/

/-- One flit time of a router; a SITE hem has stopped it (R461). -/
def State.routerCycle (s : State) (n : Site) : State :=
  if (s.tile n).siteHem then s else
  let s := s.onTile n fun t => lanesOf.foldl (fun t e => t.takeRoute n s.steward e.1 e.2.1 e.2.2) (t.onRouter RouterSt.fill)
  let s := [0, 1, 2, 3].foldl (fun s o => s.output n o) s
  (lanesOf.foldl (fun s e => s.retire n e.1 e.2.1 e.2.2) s).takeRelease n

/-- A flit that fails its CRC (R339, R340). -/
def Tile.badFlit (t : Tile) (me : Site) (side : Nat) : Tile :=
  let t := (t.flagBit Reg.WF_ERR 8).count Reg.WF_RETRY_COUNT 1
  let n := t.router.fails.getD side 0 + 1
  if n < 3 then t.onRouter fun r => { r with fails := r.fails.set side n }
  else
    let t := t.onRouter fun r =>
      { r with fails := r.fails.set side 0
               down := r.down ||| BitVec.ofNat 4 (2 ^ side)
               linkFaults := r.linkFaults ++ [side] }
    let t := t.flagBit Reg.WF_ERR (4 + side)
    t.raise me 0x0A 0xF (t.reg Reg.WF_ERR)

/-- A flit as it came on a link: the one that the neighbour holds for replay, or one of no packet of the model. -/
def State.onLink (s : State) (m : Site) (side : Nat) (f : Flit) : BufFlit :=
  let held := ((s.tile m).router.replay ((side + 2) % 4)).find? fun b => b.vch = flitVch f && b.flit = f
  { held.getD { side := side, vch := flitVch f, flit := f } with side := side }

/-- A flit taken from a link: acknowledged to its sender, and in its buffer. -/
def State.takeFlit (s : State) (n m : Site) (b : BufFlit) : State :=
  let s := s.onTile m fun t => t.onRouter fun r =>
    { r with sent := r.sent.eraseP fun x => x.side = (b.side + 2) % 4 && x.vch = b.vch && x.flit = b.flit }
  s.onTile n fun t => t.onRouter fun r => { r with bufs := r.bufs ++ [b], fails := r.fails.set b.side 0 }

/-- A link on which a router takes nothing: it or the neighbour is off, a SITE hem stops it, the link is down, or the buffer is full. -/
def State.linkShut (s : State) (n m : Site) (b : BufFlit) : Bool :=
  let r := (s.tile n).router
  s.steward.off n.val || s.steward.off m.val || (s.tile n).siteHem || bitOf r.down b.side ||
    bufCap b.vch ≤ (r.buf b.side b.vch b.lane).length

/-- After a failed flit every later one is discarded until the failed one comes again (R339). -/
def State.outOfTurn (s : State) (n m : Site) (side : Nat) (f : Flit) : Bool :=
  0 < (s.tile n).router.fails.getD side 0 &&
    ((s.tile m).router.replay ((side + 2) % 4)).head?.any fun b => b.flit != f

/-- FLIT_RECEIVE (R339, R342). -/
def State.flitReceive (s : State) (n : Site) (side : Nat) (f : Flit) : State :=
  match stepSide n side with
  | none => s
  | some m =>
    let b := s.onLink m side f
    if s.linkShut n m b then s
    else if f.crc != flitCrc f.ctl f.payload then s.onTile n fun t => t.badFlit n side
    else if s.outOfTurn n m side f then s
    else (s.takeFlit n m b).routerCycle n

def execFlitReceive (site : Site) (side : Fin 4) (flit : Flit) (s : State) : Host.Outcome State Fault Refusal :=
  live s fun s => s.flitReceive site side.val flit

/-- The oldest flit that a router holds for each output moves to the neighbour, where the link takes it. -/
def State.linkCycle (s : State) (n : Site) : State :=
  if (s.tile n).siteHem then s else
  [0, 1, 2, 3].foldl (fun s o =>
    match (s.tile n).router.replay o, stepSide n o with
    | b :: _, some m =>
      let b := { b with side := (o + 2) % 4 }
      if s.linkShut m n b then s else s.takeFlit m n b
    | _, _ => s) s

/-- A router with flits to move. -/
def RouterSt.active (r : RouterSt) : Bool := !(r.staged.isEmpty && r.bufs.isEmpty && r.sent.isEmpty)

/-- The sites of the tiles that the state lists and that satisfy `p`. -/
def State.sitesWhere (s : State) (p : Tile → Bool) : List Site :=
  s.tiles.filterMap fun e : Nat × Tile => if h : e.1 < 2400 then (if p e.2 then some ⟨e.1, h⟩ else none) else none

/-- A flit of a packet is on its way. -/
def State.onTheWay (s : State) (p : Pkt) : Bool :=
  s.tiles.any fun e : Nat × Tile =>
    let r := e.2.router
    (r.staged ++ r.bufs ++ r.sent ++ r.eject).any fun b => b.pkt.any fun q => q.copyOf p

/-- One flit time of the weft: links move what routers have sent, routers send what waits, and a packet that has lost its last flit is
gone (R342, R345, R352). -/
def State.weftCycle (s : State) : State :=
  let s := (s.sitesWhere fun t => !t.router.sent.isEmpty).foldl State.linkCycle s
  let s := (s.sitesWhere fun t => t.router.active).foldl State.routerCycle s
  { s with net := s.net.filter fun p => p.whole || s.onTheWay p }

/-- PACKET_HEAD_TIMEOUT (R352): a packet whose head is here and whose next flit has not come is discarded. -/
def Tile.headTimeout (t : Tile) (me : Site) (side v : Nat) (lane : Bool) : Option Tile :=
  match t.router.route side v lane, t.router.front side v lane with
  | some x, none =>
    if x.here then
      some ((t.dropPacket me x.src x.ctl).onRouter fun r =>
        { r with routes := r.routes.erase x
                 eject := r.eject.filter fun e => !(e.side = side && e.vch = v && e.lane = lane) })
    else none
  | _, _ => none

def execPacketHeadTimeout (site : Site) (side : Fin 5) (vch : Fin 4) (s : State) : Host.Outcome State Fault Refusal :=
  live s fun s => s.onTile site fun t =>
    ((t.headTimeout site side.val vch.val false).orElse fun _ => t.headTimeout site side.val vch.val true).getD t

/-- DROP (R352): a row counts refused at its source; a lost token or credit is counted there. -/
def execDrop (site : Site) (src : Site) (kind : BitVec 4) (row : BitVec 12) (s : State) : Host.Outcome State Fault Refusal :=
  live s fun s =>
    s.receive (fun p => p.dst = .site site && p.src = .tile src && p.body = .drop kind row) fun s => s.onTile site fun t =>
      if kind = 1 then
        match ((t.unit .sh).running.flatMap (·.acks) ++ t.freeze.scanAcks).find? fun a : Nat × Nat => a.2 = row.toNat with
        | some a => if h : a.1 < 2400 then t.rowCounted ⟨a.1, h⟩ row.toNat false else t
        | none => t
      else if kind = 3 || kind = 4 then t.count Reg.TC_WVDROP_COUNT 1
      else t

end Sys2Proof.Machine
end

