-- ==== Sys2Proof/Machine/Glitis.lean ====
section
/-! DEFINITION. Glitis ports (R367 to R401): flits, credits, replay, retraining, start-up, discovery, K2 transit. -/

namespace Sys2Proof.Machine

/-! ## State of a port -/

def noLane : Nat → LaneSt := fun _ => LaneSt.reset

def Port.lane (p : Port) (g : Nat) : LaneSt := Map.get noLane p.lanes g

def Port.setLane (p : Port) (g : Nat) (x : LaneSt) : Port := { p with lanes := Map.set noLane p.lanes g x }

def Port.removed (p : Port) (g : Nat) : Bool := bitOf (p.reg Reg.GL_STAT) (24 + g)
def Port.inRetrain (p : Port) (g : Nat) : Bool := bitOf (p.reg Reg.GL_STAT) (16 + g)
def Port.inService (p : Port) (g : Nat) : Bool := bitOf (p.reg Reg.GL_STAT) (8 + g)

def Port.setStat (p : Port) (bit : Nat) (b : Bool) : Port :=
  p.setReg Reg.GL_STAT (setFld (p.reg Reg.GL_STAT) bit 1 (if b then 1 else 0))

/-- The code of a port's state (R398). -/
def PortMode.code : PortMode → Nat
  | .down => 0 | .lock => 1 | .train => 2 | .discover => 3 | .up => 4

/-- A packet that a port's router injects on the port's behalf (R361). -/
def Port.post (p : Port) (ix : PortIx) (dst : Dest) (cls : Fin 8) (flits : Nat) (b : PktBody) (h : Option ReachHdr := none) : Port :=
  { p with outq := p.outq ++ [{ src := .port ix, dst := dst, cls := cls, flits := flits, body := b, hdr := h }] }

/-- A port fault (R384, R386, R391, R457). -/
def Port.fault (p : Port) (ix : PortIx) : Port :=
  p.post ix (.att (fieldNo (siteOfPort ix))) 0 1
    (.ctrl (.fault { code := 0x0B, unit := 0xF, reg := p.reg Reg.GL_ERR, us := 0 }))

/-! ## Stripes (R378 to R380) -/

/-- The role of a lane group in force. -/
def Port.roleOf (p : Port) (g : Nat) : Nat := fld p.rolesNow (2 * g) 2

/-- The groups in service that are assigned to a role. -/
def Port.ownStripe (p : Port) (role : Nat) : List Nat :=
  (List.range 8).filter fun g => p.inService g && p.roleOf g == role

/-- The stripe that carries a role: its own, or that of the first role of C, S, M with a group in service; K2 rides the M
stripe (R380). -/
def Port.stripe (p : Port) (role : Nat) : List Nat :=
  let role := if role = 4 then 0 else role
  if !(p.ownStripe role).isEmpty then p.ownStripe role
  else ([1, 2, 0].findSome? fun r => if r ≠ role && !(p.ownStripe r).isEmpty then some (p.ownStripe r) else none).getD []

/-- The bit map of a stripe (R389). -/
def stripeMap (l : List Nat) : Nat := (l.map (2 ^ ·)).sum

/-! ## Flits (R370 to R373) -/

/-- The CRC of a flit: body bytes 0 to 127, then side-band bits 47 to 0 (R372). -/
def glCrc (sb : BitVec 64) (body : BitVec 1024) : BitVec 16 :=
  crc16Bits sb 48 ((leBytes 128 body.toNat).foldl (fun c b => crc16Bits b 8 c) 0xFFFF#16)

/-- An acknowledgement's fields of a side-band word: ACKV, NAK, ACKSEQ (R370). -/
def ackBits (a : Option (Bool × BitVec 8)) : Nat :=
  match a with
  | some (nak, seq) => 1 <<< 35 ||| (if nak then 1 <<< 34 else 0) ||| seq.toNat <<< 26
  | none => 0

/-- A flit with its CRC, the acknowledgement it carries and the class and numbers of the credits it returns (R370, R372). -/
def glFlit (seq : BitVec 8) (ft : BitVec 4) (ftarg : BitVec 16) (body : BitVec 1024) (ack : Option (Bool × BitVec 8))
    (cred : Nat × Nat × Nat) : GlFlit :=
  let sb := BitVec.ofNat 64 (ft.toNat <<< 44 ||| seq.toNat <<< 36 ||| ackBits ack ||| cred.1 <<< 23 ||| cred.2.1 <<< 20 |||
    cred.2.2 <<< 16 ||| ftarg.toNat)
  { sb := sb ||| BitVec.ofNat 64 ((glCrc sb body).toNat <<< 48), body := body }

def glFt (f : GlFlit) : Nat := fld f.sb 44 4
def glSeq (f : GlFlit) : BitVec 8 := BitVec.ofNat 8 (fld f.sb 36 8)
def glArg (f : GlFlit) : Nat := fld f.sb 0 16

/-- Body bytes as flit bits. -/
def bodyBits (l : List Byte) : BitVec 1024 := BitVec.ofNat 1024 (leNat (l.take 128))

/-- A header (R374). -/
def mkHeader (op tag : Nat) (orig : Bool) (sslot dslot : BitVec 4) (addr len status : Nat) (hver : BitVec 8) (arg : Nat) :
    BitVec 256 :=
  BitVec.ofNat 256 (op ||| tag <<< 8 ||| (if orig then 1 <<< 20 else 0) ||| sslot.toNat <<< 24 ||| dslot.toNat <<< 28 |||
    addr <<< 32 ||| len <<< 96 ||| status <<< 112 ||| hver.toNat <<< 120 ||| arg <<< 128)

/-- A header flit of one header. -/
def headerFlit (role : Nat) (h : BitVec 256) : FlitOut :=
  { cls := role, group := none, ft := BitVec.ofNat 4 (1 + role), ftarg := 0, body := h.setWidth 1024 }

/-- The DATA flits of a transfer, BEAT 0 first, each with its own POISON (R373). -/
def dataFlits (role : Nat) (tag : BitVec 12) (data : List Byte) (bad : Nat → Bool) : List FlitOut :=
  (List.range ((data.length + 127) / 128)).map fun k =>
    { cls := role, group := none, ft := 5
      ftarg := BitVec.ofNat 16 (tag.toNat <<< 4 ||| k <<< 1 ||| (if bad k then 1 else 0)), body := bodyBits (data.drop (128 * k)) }

/-- A poisoned beat holds one of `n` bytes from `o` on, of bytes that came in DATA beats (R373). -/
def beatsHit (bad : List Bool) (o n : Nat) : Bool := ((bad.drop (o / 128)).take ((o + n - 1) / 128 + 1 - o / 128)).any id

/-- A link control flit (R389). -/
def lctlFlit (op : Nat) (group : Option Nat) (body : List Byte) : FlitOut :=
  { cls := 5, group := group, ft := 6, ftarg := BitVec.ofNat 16 (op <<< 8), body := bodyBits body }

/-- The response to a refused request of each operation (R375). -/
def responseOp (op : Nat) : Nat :=
  if op = 0x01 then 0x03 else if op = 0x02 then 0x04 else if op = 0x10 then 0x11 else 0x32

/-- The operation and TAG of a response that a port sends (R375). -/
def Out.answers : Out → Option (Nat × BitVec 12)
  | .rdrsp _ t _ _ _ _ => some (3, t)
  | .wrack _ t _ _ => some (4, t)
  | .invack _ t => some (0x11, t)
  | .refused _ op t _ => some (responseOp op.toNat, t)
  | .drsp _ t _ _ => some (0x32, t)
  | _ => none

/-- The request a response answers, among those whose source slot is known (R374). -/
def Port.srcOf (p : Port) (o : Out) : Option (BitVec 8 × BitVec 12 × BitVec 4) :=
  o.answers.bind fun a => p.srcSlots.find? fun e => responseOp e.1.toNat = a.1 && e.2.1 = a.2

/-- The slot at the other end of a response: the SSLOT of its request. No rule gives it for a message, nor for a request of which no
header has come (R374; assumption 14). -/
def Port.peerOf (p : Port) (o : Out) (op : Nat) : BitVec 4 := ((p.srcOf o).map fun e => e.2.2).getD (Config.peerSlot op)

/-- The flits of what a port sends, given the die's own slot, the slot at the other end by operation, the link's version and a tag for
the requests of loom and steward. -/
def Out.flits (slot : BitVec 4) (peer : Nat → BitVec 4) (ver : BitVec 8) (tag : BitVec 12) (o : Out) : List FlitOut :=
  let at' := fun a : Nat => BitVec.ofNat 4 (a / 2 ^ 44)
  match o with
  | .rd _ t a len => [headerFlit 0 (mkHeader 1 t.toNat false slot (at' a.toNat) a.toNat len.toNat 0 ver 0)]
  | .wr _ t a d bad => headerFlit 0 (mkHeader 2 t.toNat false slot (at' a.toNat) a.toNat (d.length - 1) 0 ver 0) ::
      dataFlits 0 t d fun k => bad.getD k false
  | .rdrsp _ t g st d bad => headerFlit 0 (mkHeader 3 t.toNat g slot (peer 3) 0 (d.length - 1) st.toNat ver 0) ::
      dataFlits 0 t d fun k => bad.getD k false
  | .wrack _ t g st => [headerFlit 0 (mkHeader 4 t.toNat g slot (peer 4) 0 0 st.toNat ver 0)]
  | .invack _ t => [headerFlit 1 (mkHeader 0x11 t.toNat false slot (peer 0x11) 0 0 0 ver 0)]
  | .refused _ op t g =>
    let r := responseOp op.toNat
    [headerFlit (r / 16) (mkHeader r t.toNat g slot (peer r) 0 0 1 ver 0)]
  | .drsp _ t st d => headerFlit 3 (mkHeader 0x32 t.toNat false slot (peer 0x32) 0 (d.length - 1) st.toNat ver 0) ::
      dataFlits 3 t d fun _ => false
  | .msg _ ty n a0 a1 _ => [headerFlit 2 (mkHeader 0x20 0 false slot (peer 0x20) 0 0 0 ver
      (ty.toNat ||| n.val <<< 16 ||| a0.toNat <<< 32 ||| a1.toNat <<< 64))]
  | .k2 _ arg body => [{ cls := 4, group := none, ft := 7, ftarg := arg, body := bodyBits body }]
  | .loomRd _ _ a len => [headerFlit 0 (mkHeader 1 tag.toNat false slot (at' a) a (len - 1) 0 ver 0)]
  | .loomWr _ _ a d => headerFlit 0 (mkHeader 2 tag.toNat false slot (at' a) a (d.length - 1) 0 ver 0) :: dataFlits 0 tag d fun _ => false
  | .stewardRd _ a len => [headerFlit 0 (mkHeader 1 tag.toNat false slot (at' a) a (len - 1) 0 ver 0)]
  | .stewardWr _ a d => headerFlit 0 (mkHeader 2 tag.toNat false slot (at' a) a (d.length - 1) 0 ver 0) :: dataFlits 0 tag d fun _ => false
  | .lctl _ op body => [lctlFlit op.toNat none body]
  | .announce _ body => [lctlFlit 0x10 none body]
  | .commitAck _ cap feat => [lctlFlit 0x13 none ([1, cap] ++ List.replicate 6 0 ++ leBytes 8 feat.toNat)]
  | _ => []

/-! ## Sending (R377, R379 to R381) -/

/-- A flit is a header's, so that it uses a header credit, or else a data credit (R377). -/
def FlitOut.isHeader (x : FlitOut) : Bool := !(x.ft = 5 || x.ft = 7)

/-- A flit may go now: the replay buffer has room, its class has a credit, its stripe a group, and the port takes it. In DISCOVER a
header flit is a refusal (R387). -/
def Port.canSend (p : Port) (x : FlitOut) : Bool :=
  p.replay.length < 64 && (p.mode == .discover || p.mode == .up) &&
    if x.cls = 5 then (List.range 8).any p.inService
    else !(p.stripe x.cls).isEmpty && 0 < (if x.isHeader then p.credH else p.credD).getD x.cls 0

/-- The group a flit goes on (R379). -/
def Port.pickGroup (p : Port) (x : FlitOut) : Nat :=
  match x.group with
  | some g => if p.inService g then g else ((List.range 8).find? p.inService).getD 0
  | none =>
    if x.cls = 5 then ((List.range 8).find? p.inService).getD 0
    else
      let st := p.stripe x.cls
      st.getD (p.stripeOut.getD (if x.cls = 4 then 0 else x.cls) 0 % st.length) 0

/-- Header credits that may be returned: those of M only as the port's table of incoming requests has room (R377, R420). -/
def Port.owedHdrs (p : Port) (c : Nat) : Nat := p.owedH.getD c 0 - if c = 0 then p.incoming.length - 192 else 0

/-- Data credits that may be returned: those of M not while header credits of M are withheld (R377, R420). -/
def Port.owedData (p : Port) (c : Nat) : Nat := if c = 0 && 192 < p.incoming.length then 0 else p.owedD.getD c 0

/-- The first class with credits to return, and how many one flit returns (R370). -/
def Port.creditDue (p : Port) : Nat × Nat × Nat :=
  match (List.range 5).find? fun c => 0 < p.owedHdrs c || 0 < p.owedData c with
  | some c => (c, min 7 (p.owedHdrs c), min 15 (p.owedData c))
  | none => (7, 0, 0)

/-- A flit takes the group's acknowledgement, if one is due, and credits of one class; one that a retrain sends again keeps the
credits that it returns (R370, R381, R382). -/
def Port.load (p : Port) (g : Nat) (x : FlitOut) : Port × FlitOut :=
  let c := if x.cred.1 = 7 then p.creditDue else x.cred
  let p := if x.cred.1 = 7 then
      { p with owedH := p.owedH.modify c.1 (· - c.2.1), owedD := p.owedD.modify c.1 (· - c.2.2) } else p
  (p.setLane g { p.lane g with ackDue := none }, { x with ack := (p.lane g).ackDue, cred := c })

/-- A flit as it leaves on a group: its first sending and its replays are the same (R381). -/
def FlitOut.out (x : FlitOut) (ix : PortIx) (g : Nat) (seq : BitVec 8) : Out :=
  .flit ix ⟨g % 8, Nat.mod_lt _ (by decide)⟩ (glFlit seq x.ft x.ftarg x.body x.ack x.cred)

/-- The D and K2 flits that wait for a group have waited for one more slot of it (R380). -/
def Port.waitSlot (p : Port) (g : Nat) : Port :=
  { p with backlog := p.backlog.map fun x =>
      if (x.cls = 3 || x.cls = 4) && (p.stripe x.cls).contains g then { x with waited := min 7 (x.waited + 1) } else x }

/-- One waiting flit sent. -/
def Port.sendOne (p : Port) (ix : PortIx) (x : FlitOut) : Port × Out :=
  let g := p.pickGroup x
  let seq := (p.lane g).seqOut
  let (p, y) := (({ p with backlog := p.backlog.erase x } : Port).waitSlot g).load g x
  let o := y.out ix g seq
  let p := p.setLane g { p.lane g with seqOut := seq + 1 }
  let p := { p with replay := p.replay ++ [(⟨g % 8, Nat.mod_lt _ (by decide)⟩, seq, y)] }
  (if x.cls = 5 then p
    else { p with
      stripeOut := p.stripeOut.modify (if x.cls = 4 then 0 else x.cls) (· + 1)
      credH := if x.isHeader then p.credH.modify x.cls (· - 1) else p.credH
      credD := if x.isHeader then p.credD else p.credD.modify x.cls (· - 1) }, o)

/-- The first waiting flit of a class, if it may go. -/
def Port.firstOf (p : Port) (c : Nat) : Option FlitOut := (p.backlog.find? fun x => x.cls = c).filter p.canSend

/-- The waiting flit that goes next: the oldest D or K2 flit that has waited for seven slots, else the first of each class in the order
LCTL, C, S, M, D, K2 (R380). -/
def Port.nextFlit (p : Port) : Option FlitOut :=
  (p.backlog.find? fun x => 7 ≤ x.waited && p.firstOf x.cls == some x).or ([5, 1, 2, 0, 3, 4].findSome? p.firstOf)

/-- Waiting flits sent while they may go. -/
def Port.pump (ix : PortIx) : Nat → Port → Port × List Out
  | 0, p => (p, [])
  | fuel + 1, p =>
    match p.nextFlit with
    | none => (p, [])
    | some x =>
      let (p, o) := p.sendOne ix x
      let (p, os) := Port.pump ix fuel p
      (p, o :: os)

/-- Waiting flits of a port sent. -/
def State.pumpPort (s : State) (ix : PortIx) : State :=
  let p := s.port ix
  let (p, os) := p.pump ix (p.backlog.length)
  (s.setPort ix p).send os

/-- The group that an IDLE flit is needed on: one with an acknowledgement due, else the lowest where credits are due (R381). -/
def Port.idleGroup (p : Port) : Option Nat :=
  ((List.range 8).find? fun g => p.inService g && (p.lane g).ackDue.isSome).or
    (if p.creditDue.1 = 7 then none else (List.range 8).find? p.inService)

/-- IDLE flits for the acknowledgements and credits that no other flit has taken (R371, R381). -/
def Port.idles (ix : PortIx) : Nat → Port → Port × List Out
  | 0, p => (p, [])
  | fuel + 1, p =>
    match p.idleGroup with
    | none => (p, [])
    | some g =>
      let (p, x) := p.load g { cls := 5, group := none, ft := 0, ftarg := 0, body := 0 }
      let (p, os) := Port.idles ix fuel p
      (p, x.out ix g (p.lane g).seqOut :: os)

/-- IDLE flits of a port sent. -/
def State.sendIdles (s : State) (ix : PortIx) : State :=
  let p := s.port ix
  let (p, os) := p.idles ix (8 + p.owedH.sum + p.owedD.sum)
  (s.setPort ix p).send os

/-- The die's own slot and package (R390). -/
def Steward.slot (s : Steward) : Nat := fld (s.reg Reg.GL_DISC) 0 4
def Steward.pkg (s : Steward) : Nat := fld (s.reg Reg.GL_DISC) 16 12

/-- A request of the loom's. -/
def Out.isLoom : Out → Bool
  | .loomRd _ _ _ _ => true
  | .loomWr _ _ _ _ => true
  | _ => false

/-- The order of a tile's request among those that wait: a darning's, then those of the slice in progress, then the others (R471,
R492). -/
def Steward.rank (x : Steward) (waits : List (Site × ReachHdr × Fin 8)) : Nat :=
  if waits.any fun w => w.2.2 = 4 then 0
  else if waits.any fun w => w.2.2 = 3 && x.slice.any fun k => k.site == w.1 then 1 else 2

/-- A waiting flit that a request of a rank passes: the header of a read or write of a later rank; a darning's read passes the writes of
the slice alone (R471, R492). -/
def Port.passed (p : Port) (x : Steward) (rank : Nat) (f : FlitOut) : Bool :=
  let other := ((p.reqs.find? fun r => r.tag.toNat = fld f.body 8 12).map fun r => x.rank r.waits).getD 2
  f.ft = 1 && (fld f.body 0 8 = 1 || (fld f.body 0 8 = 2 && (rank = 1 || other = 1))) && rank < other

/-- Flits joined to a port's line: at its end, or before the requests that they pass. -/
def Port.enqueue (p : Port) (x : Steward) (rank : Nat) (fl : List FlitOut) : Port :=
  let k := (p.backlog.findIdx? (p.passed x rank)).getD p.backlog.length
  { p with backlog := p.backlog.take k ++ fl ++ p.backlog.drop k }

/-- The reads and writes of a port that carry a TAG and have no answer (R409). -/
def Port.tagged (p : Port) : Nat := p.reqs.length + (p.loomReqs.filter fun e => e.1.isSome).length

/-- A read or write without an answer carries a TAG. -/
def Port.tagUsed (p : Port) (t : Nat) : Bool :=
  (p.reqs.any fun r => r.tag.toNat = t) || p.loomReqs.any fun e => e.1.any fun u => u.toNat = t

/-- A tag that no request of the port is using. -/
def Port.freeTag (p : Port) : BitVec 12 :=
  BitVec.ofNat 12 (((List.range 4096).find? fun k => !p.tagUsed ((p.nextTag + k) % 4096)).elim p.nextTag fun k =>
    (p.nextTag + k) % 4096)

/-- The flits of an operation join the port's line (R371, R373). -/
def State.portLine (s : State) (ix : PortIx) (o : Out) (tag : BitVec 12) (rank : Nat) : State :=
  let p := s.port ix
  let fl := o.flits (BitVec.ofNat 4 s.steward.slot) (p.peerOf o) p.version tag
  let p := match p.srcOf o with
    | some e => { p with srcSlots := p.srcSlots.erase e }
    | none => p
  (s.setPort ix (p.enqueue s.steward rank fl)).pumpPort ix

/-- The oldest request of loom or steward that has no TAG takes one, once fewer than 4,096 are outstanding (R409). -/
def State.startOwn (s : State) (ix : PortIx) : State :=
  let p := s.port ix
  match p.loomReqs.find? fun e => e.1.isNone with
  | some e =>
    if 4096 ≤ p.tagged then s
    else
      let tag := p.freeTag
      (s.setPort ix { p with nextTag := (tag.toNat + 1) % 4096
                             loomReqs := onFirst (fun x => x.1.isNone) (fun x => (some tag, x.2)) p.loomReqs }).portLine ix e.2 tag 2
  | none => s

/-- A request of loom or steward joins those of a port without an answer. -/
def State.ownSend (s : State) (ix : PortIx) (o : Out) : State :=
  ((s.send [o]).onPort ix fun p => { p with loomReqs := p.loomReqs ++ [(none, o)] }).startOwn ix

/-- A request of loom or steward has its answer; the next one may take its TAG. -/
def State.ownDone (s : State) (ix : PortIx) (f : Out → Bool) : State :=
  (s.onPort ix fun p => { p with loomReqs := p.loomReqs.eraseP fun e => f e.2 }).startOwn ix

/-- A port sends an operation: it is recorded, and its flits join the port's line (R371, R373). -/
def State.portSend (s : State) (ix : PortIx) (o : Out) (rank : Nat := 2) : State :=
  if o.isLoom then s.ownSend ix o else (s.send [o]).portLine ix o (s.port ix).freeTag rank

/-! ## The steward's reads and writes (R6, R511, R514, R528) -/

/-- The port that carries requests of loom and steward: the first UP port of 41, 42, 53, 54 from position `k` on (R430; for the steward
assumption 76, DESIGN CHOICE). -/
def State.attUp (s : State) (k : Nat) : Option PortIx :=
  let l : List PortIx := [41, 42, 53, 54]
  (l.drop (k % 4) ++ l.take (k % 4)).find? fun p => (s.port p).mode == PortMode.up

/-- A read or write of the steward's. -/
def Out.isSteward : Out → Bool
  | .stewardRd _ _ _ => true
  | .stewardWr _ _ _ => true
  | _ => false

/-- The requests of a read by the steward: none crosses a boundary of 512 bytes. -/
def stewardReads (p : Option PortIx) (a n : Nat) : List Out := (reachPieces a n).map fun g => .stewardRd p (a + g.1) g.2

/-- The requests of a write by the steward. -/
def stewardWrites (p : Option PortIx) (a : Nat) (data : List Byte) : List Out :=
  (reachPieces a data.length).map fun g => .stewardWr p (a + g.1) (sliceBytes data g.1 g.2)

/-- The steward's requests leave by its port; with no port UP they cannot leave, and stand with no port (R6; assumption 76). -/
def State.stewardSend (s : State) (mk : Option PortIx → List Out) : State :=
  match s.attUp 0 with
  | some p => (mk (some p)).foldl (fun s o => s.portSend p o) s
  | none => s.send (mk none)

/-- As `stewardSend`, of requests whose answer a later row brings. -/
def State.stewardAsk (s : State) (mk : Option PortIx → List Out) : State :=
  match s.attUp 0 with
  | some p => (mk (some p)).foldl (fun s o => s.ownSend p o) s
  | none => s.send (mk none)

/-- A read or write of the steward's in `n` bytes at `a`. -/
def Out.stewardAt (a n : Nat) : Out → Bool
  | .stewardRd _ x _ => a ≤ x && x < a + n
  | .stewardWr _ x _ => a ≤ x && x < a + n
  | _ => false

/-- The steward's reads or writes of some bytes have their answers. -/
def State.stewardDone (s : State) (a n : Nat) : State :=
  ([41, 42, 53, 54] : List PortIx).foldl (fun s p =>
    ((s.port p).loomReqs.filter fun e => e.2.stewardAt a n).foldl (fun s _ => s.ownDone p (Out.stewardAt a n)) s) s

/-- A link control message of a port (R389). -/
def State.lctl (s : State) (ix : PortIx) (op : Nat) (body : List Byte) : State :=
  s.portSend ix (.lctl ix (BitVec.ofNat 8 op) body)

/-- LCTL STRIPE of a role on every group of its old stripe still in service, or elsewhere if none is; the new count begins
(R379). -/
def State.stripeChange (s : State) (ix : PortIx) (role : Nat) (old : List Nat) : State :=
  let p := s.port ix
  let body : List Byte := [BitVec.ofNat 8 role, BitVec.ofNat 8 (stripeMap (p.stripe role))]
  let gs := old.filter p.inService
  let fl := if gs.isEmpty then [lctlFlit 5 none body] else gs.map fun g => lctlFlit 5 (some g) body
  let p := { p with stripeOut := p.stripeOut.set role 0, backlog := p.backlog ++ fl }
  ((s.send [.lctl ix 5 body]).setPort ix p).pumpPort ix

/-- Roles whose stripe is not what it was. -/
def State.restripe (s : State) (ix : PortIx) (was : Port) : State :=
  ([0, 1, 2, 3].filter fun r => was.stripe r != (s.port ix).stripe r).foldl (fun s r => s.stripeChange ix r (was.stripe r)) s

/-! ## Going down (R386) -/

/-- The whole reach cache invalidated and every prefetcher freed (R414). -/
def Port.flushCache (p : Port) : Port :=
  { p.flagBit Reg.GL_RCERR 0 with
    cache := [], prefetchers := [], history := [], reqs := p.reqs.map fun r => { r with install := false } }

/-- An answer to a tile's reach request (R407); answers to a scan take class TEST (R361). -/
def Port.answer (p : Port) (ix : PortIx) (w : Site × ReachHdr × Fin 8) (write : Bool) (status : BitVec 3) (data : List Byte)
    (poison : List Bool) : Port :=
  let h := w.2.1
  let cls : Fin 8 := if w.2.2 = 3 then 3 else 6
  if write then p.post ix (.site w.1) cls 1 (.pdone h.rtag status) h
  else
    let d := if status = 0 then data else []
    let n := if status = 0 then reachFlits h.addr.toNat (h.len.toNat + 1) else 0
    p.post ix (.site w.1) cls (1 + n) (.gdata h.rtag status d (if status = 0 then poison else [])) h

/-- A port goes DOWN (R386): requests of the tiles' without a response are refused, what was partly received is discarded, the replay
buffer is emptied, retrains are abandoned (R385) and the cache is emptied (R414). `State.refuseLoom` refuses the loom's. -/
def Port.goDown (p : Port) (ix : PortIx) : Port :=
  let p := p.reqs.foldl (fun p r => r.waits.foldl (fun p w => p.answer ix w r.write 1 [] []) p) p
  let p := ({ p with reqs := [] } : Port).flushCache
  let p := p.setReg Reg.GL_STAT (p.reg Reg.GL_STAT &&& 0xFF000018)
  { p with mode := .down, aliveOut := false, aliveIn := false, lanes := [], replay := [], backlog := [], rxHeld := [], k2in := []
           incoming := [], invs := [], stripeIn := [0, 0, 0, 0], stripeOut := [0, 0, 0, 0], credH := [0, 0, 0, 0, 0]
           credD := [0, 0, 0, 0, 0], rxStripe := [0, 0, 0, 0], stripeDue := [none, none, none, none], stripeNew := [0, 0, 0, 0]
           owedH := [0, 0, 0, 0, 0], owedD := [0, 0, 0, 0, 0], debugData := [], srcSlots := [], loomReqs := []
           stripeFlits := false, rolesPending := false }

/-- The loom's requests at a port are answered REFUSED (R386; the loom takes the answers in its next tile cycle, `tick`). -/
def State.refuseLoom (s : State) (ix : PortIx) : State :=
  { s with loom := { s.loom with refused := s.loom.refused ++ (((s.port ix).loomReqs.map (·.2)).filter Out.isLoom) } }

/-- Discovery has been applied (R400). -/
def Steward.discovered (s : Steward) : Bool := bitOf (s.reg Reg.GL_DISC) 31

/-- The highest protocol version of the die (R391, R396). -/
def Steward.ownVersion (s : Steward) : BitVec 8 := if s.isB0 then 0x31 else 0x30

/-- The feature bits that the die announces (R392). -/
def Steward.ownFeatures (s : Steward) : BitVec 64 := if s.isB0 then 7 else 4

/-- ANNOUNCE (R388, R389). -/
def State.announceBody (s : State) : List Byte :=
  let n := (allPorts.filter fun p => (s.port p).mode == .discover || (s.port p).mode == .up).length
  [1, 3, s.steward.fuses.stepping, s.steward.ownVersion, s.steward.fuses.grade.setWidth 8, BitVec.ofNat 8 n, 0, 0] ++
    leBytes 8 s.steward.ownFeatures.toNat

/-- The ports that discovery may run through, the next one after a port first. -/
def discoveryAfter (was : Option PortIx) : List PortIx :=
  let l : List PortIx := [41, 42, 53, 54]
  let k := (was.bind fun p => l.findIdx? (· == p)).elim 0 (· + 1)
  l.drop k ++ l.take k

/-- The discovery port after a change of the ports: before COMMIT a new one takes the place of one that is lost, and announces the die
(R388). -/
def State.pickDiscovery (s : State) : State :=
  if s.steward.committed && s.steward.discovery.isSome then s
  else
    let ok := match s.steward.discovery with
      | some p => (s.port p).mode == PortMode.discover || (s.port p).mode == PortMode.up
      | none => s.steward.discovered
    if ok then s
    else
      let next := (discoveryAfter s.steward.discovery).find? fun p => (s.port p).mode == PortMode.discover
      let s := s.onSteward fun x => { x with discovery := next }
      match next with
      | some p => s.portSend p (.announce p s.announceBody)
      | none => s

/-- A port that is not DOWN goes DOWN. -/
def State.portDown (s : State) (ix : PortIx) : State :=
  if (s.port ix).mode == .down then s else ((s.refuseLoom ix).onPort ix fun p => p.goDown ix).pickDiscovery

def execPllLockLoss (port : PortIx) (s : State) : Host.Outcome State Fault Refusal :=
  live s fun s => if (s.port port).mode == .down then s
    else (s.onPort port fun p => p.flagBit Reg.GL_ERR 9).portDown port

def execAliveLoss (port : PortIx) (s : State) : Host.Outcome State Fault Refusal :=
  live s fun s => if (s.port port).mode == .down then s
    else (s.onPort port fun p => p.flagBit Reg.GL_ERR 8).portDown port

def execTrnPulse (port : PortIx) (s : State) : Host.Outcome State Fault Refusal :=
  live s fun s => s.portDown port

/-! ## Retraining (R382 to R385) -/

/-- Credits given back to the flits that are to be sent again, which use those of their first sending (R377). -/
def creditBack (l : List Nat) (again : List FlitOut) : List Nat :=
  again.foldl (fun l x => l.modify x.cls (· + 1)) l

/-- A group leaves its stripes for a retrain; its unacknowledged flits go again ahead of newer ones (R382, R383). -/
def State.leaveStripe (s : State) (ix : PortIx) (g : Nat) : State :=
  let was := s.port ix
  let again := (was.replay.filter fun e => e.1.val = g).map fun e => { e.2.2 with group := none, waited := 0, ack := none }
  let p := ((was.setStat (8 + g) false).setStat (16 + g) true).flagBit Reg.GL_ERR 1
  let p := (p.count Reg.GL_RETRAIN_COUNT 1).setLane g { LaneSt.reset with clks := fld (p.reg Reg.GL_STAT) 3 2 }
  let p := { p with replay := p.replay.filter fun e => e.1.val ≠ g, backlog := again ++ p.backlog
                    credH := creditBack p.credH (again.filter FlitOut.isHeader)
                    credD := creditBack p.credD (again.filter fun x => !x.isHeader) }
  (s.setPort ix p).restripe ix was

/-- A lane group is declared faulty (R382, R383). -/
def State.groupFaulty (s : State) (ix : PortIx) (g : Nat) : State :=
  if !(s.port ix).inService g then s
  else
    let s := s.leaveStripe ix g
    if (List.range 8).any (s.port ix).inService then s.lctl ix 1 [BitVec.ofNat 8 g] else s.send [.trn ix]

/-- RETRAIN (R383): the backing declares a group faulty; one already in retrain is ignored (R385). -/
def execRetrain (port : PortIx) (g : BitVec 8) (s : State) : Host.Outcome State Fault Refusal :=
  live s fun s =>
    if g.toNat < 8 && (s.port port).inService g.toNat then (s.leaveStripe port g.toNat).lctl port 2 [g] else s

/-- RETRAINACK (R383): phase training of the group starts. -/
def execRetrainAck (port : PortIx) (g : BitVec 8) (s : State) : Host.Outcome State Fault Refusal :=
  live s fun s => s.onPort port fun p =>
    if g.toNat < 8 && p.inRetrain g.toNat then p.setLane g.toNat { p.lane g.toNat with acked := true } else p

/-- The byte of a group in a spare map: registers 0 and 1 for the receive direction, 2 and 3 for the send direction (R398). -/
def spareReg (send : Bool) (g : Nat) : Nat :=
  match send, g / 4 with
  | false, 0 => Reg.GL_SPMAP0 | false, _ => Reg.GL_SPMAP1 | true, 0 => Reg.GL_SPMAP2 | true, _ => Reg.GL_SPMAP3

/-- One direction of a group's pattern test: 0 returned, 1 spare used, 2 removed (R384). A wire that the spare already replaces carries
nothing; the spare alone failing while it is unused takes no wire's place (assumption 34). -/
def Port.decideDir (p : Port) (send : Bool) (g : Nat) (failed : List (Fin 35)) : Port × Nat :=
  let r := spareReg send g
  let used := bitOf (p.reg r) (8 * (g % 4) + 7)
  match failed.filter fun w => !(used && w.val == fld (p.reg r) (8 * (g % 4)) 6) with
  | [] => (p, 0)
  | [w] => if used then (p, 2) else if w.val = 34 then (p, 0) else (p.setReg r (setFld (p.reg r) (8 * (g % 4)) 8 (128 + w.val)), 1)
  | _ => (p, 2)

/-- The outcome of a group's pattern test, and the groups that a failed forwarded clock removes (R384). A clock that CLKS± has replaced
since the group's retrain began is the one that failed. -/
def Port.decide (p : Port) (g : Nat) (r : GroupTest) : Port × Nat × List Nat :=
  let (p, a) := p.decideDir false g r.rx
  let (p, b) := p.decideDir true g r.tx
  let mine := if g < 4 then 1 else 2
  let now := fld (p.reg Reg.GL_STAT) 3 2
  if !r.clk then (p, max a b, [])
  else if now = 0 then (p.setReg Reg.GL_STAT (setFld (p.reg Reg.GL_STAT) 3 2 mine), max a b, [])
  else if now = mine && (p.lane g).clks ≠ mine then (p, max a b, [])
  else (p, 2, upto (g / 4 * 4) 4)

/-- A group is removed (R384): flagged, and a port fault raised. -/
def Port.removeGroup (p : Port) (ix : PortIx) (g : Nat) : Port :=
  if p.removed g then p
  else ((((p.setStat (24 + g) true).setStat (16 + g) false).setStat (8 + g) false).flagBit Reg.GL_ERR 2).fault ix

/-- Groups removed; a port that has none left goes DOWN (R384). -/
def State.removeGroups (s : State) (ix : PortIx) (gs : List Nat) : State :=
  let was := s.port ix
  let s := (s.onPort ix fun p => gs.foldl (fun p g => p.removeGroup ix g) p).restripe ix was
  if (List.range 8).all (s.port ix).removed then s.portDown ix else s

/-- RESTART of a group goes out once the outcomes of both sides are known (R383). -/
def State.sayRestart (s : State) (ix : PortIx) (g : Nat) : State :=
  let lane := (s.port ix).lane g
  if lane.own.isSome && lane.peer.isSome then s.lctl ix 4 [BitVec.ofNat 8 g] else s

/-- GROUP_TEST_END (R384): the outcome is decided and sent. -/
def execGroupTestEnd (port : PortIx) (g : Fin 8) (r : GroupTest) (s : State) : Host.Outcome State Fault Refusal :=
  live s fun s =>
    let p := s.port port
    if !p.inRetrain g.val then s
    else
      let (p, out, others) := p.decide g.val r
      let p := p.setLane g.val { p.lane g.val with own := some (BitVec.ofNat 8 out) }
      let s := (s.setPort port p).lctl port 3 [BitVec.ofNat 8 g.val, BitVec.ofNat 8 out]
      (s.sayRestart port g.val).removeGroups port (others.filter fun k => k ≠ g.val && !p.removed k)

/-- RESULT (R384): the other side's outcome. -/
def execResult (port : PortIx) (g : BitVec 8) (outcome : BitVec 8) (s : State) : Host.Outcome State Fault Refusal :=
  live s fun s =>
    let p := s.port port
    if g.toNat < 8 && p.inRetrain g.toNat then
      (s.setPort port (p.setLane g.toNat { p.lane g.toNat with peer := some outcome })).sayRestart port g.toNat
    else s

/-- RESTART (R383): once both outcomes are known, the group returns to its stripe, or is removed if either side removed it (R384). -/
def execRestart (port : PortIx) (g : BitVec 8) (s : State) : Host.Outcome State Fault Refusal :=
  live s fun s =>
    let p := s.port port
    let n := g.toNat
    let lane := p.lane n
    if n < 8 && p.inRetrain n && lane.own.isSome && lane.peer.isSome then
      if lane.own = some 2 || lane.peer = some 2 then s.removeGroups port [n]
      else (s.setPort port (((p.setStat (16 + n) false).setStat (8 + n) true).setLane n LaneSt.reset)).restripe port p
    else s

/-- ROLES (R387, R525): the backing's map; a changed map of the port comes into force, its old stripes closed first. -/
def execRoles (port : PortIx) (map : BitVec 16) (s : State) : Host.Outcome State Fault Refusal :=
  live s fun s =>
    let was := s.port port
    if was.mode == .down || was.mode == .lock then s
    else
      let p := { was with backingRoles := map }
      if was.rolesPending then
        (s.setPort port { p with rolesNow := (p.reg Reg.GL_ROLE).setWidth 16, rolesPending := false }).restripe port was
      else s.setPort port p

/-! ## Receiving (R379, R381, R382) -/

/-- An acknowledgement takes flits from the replay buffer; a NAK has the rest of the group's sent again (R381). -/
def State.acked (s : State) (ix : PortIx) (g : Fin 8) (nak : Bool) (seq : BitVec 8) : State :=
  let p := s.port ix
  let mine := p.replay.filter fun e => e.1 = g
  let left := match mine.findIdx? fun e => e.2.1 == seq with
    | some i => mine.drop (i + 1)
    | none => mine
  let p := { p with replay := (p.replay.filter fun e => e.1 ≠ g) ++ left }
  (s.setPort ix p).send (if nak then left.map fun e => e.2.2.out ix g.val e.2.1 else [])

/-- Credits that a flit returns (R370). -/
def Port.credited (p : Port) (sb : BitVec 64) : Port :=
  let c := fld sb 23 3
  if c < 5 then { p with credH := p.credH.modify c (· + fld sb 20 3), credD := p.credD.modify c (· + fld sb 16 4) } else p

/-- A flit that fails its CRC (R381, R382). It is taken for what its side-band word says it is: an IDLE flit, which is not sent again;
while its group waits for a replay, the next of the later flits, which are discarded as they are; else the flit expected (assumption 77,
DESIGN CHOICE). -/
def State.badGlFlit (s : State) (ix : PortIx) (g : Fin 8) (f : GlFlit) : State :=
  let p := s.port ix
  let lane := p.lane g.val
  if lane.discarding && glFt f ≠ 0 && glSeq f == lane.later then s.setPort ix (p.setLane g.val { lane with later := lane.later + 1 })
  else
    let idle := glFt f == 0
    let n := if idle then lane.fails else lane.fails + 1
    let per := (if lane.failsAt = s.periods then lane.failsPeriod else 0) + 1
    let p := (p.flagBit Reg.GL_ERR 0).count Reg.GL_REPLAY_COUNT 1
    let p := p.setLane g.val { lane with fails := n, failsPeriod := per, failsAt := s.periods, discarding := lane.discarding || !idle
                                         later := if idle then lane.later else lane.seqIn + 1
                                         ackDue := some (true, lane.seqIn - 1) }
    let s := (s.setPort ix p).sendIdles ix
    if 3 ≤ n || 64 ≤ per then s.groupFaulty ix g.val else s

/-- The groups that the backing's stripe of a role has (R379). -/
def Port.peerStripe (p : Port) (role : Nat) : List Nat := (List.range 8).filter fun g => bitOf (at32 (p.rxStripe.getD role 0) 0) g

/-- D data with this TAG is still to come: its DWR has been taken, or waits among the flits held (R373). -/
def Port.debugTag (p : Port) (tag : Nat) : Bool :=
  (p.debugData.any fun e => e.1.toNat = tag) ||
    p.rxHeld.any fun e => glFt e.2 = 4 && (List.range (glArg e.2 % 4 + 1)).any fun j => fld e.2.body (256 * j + 8) 12 = tag

/-- The role that a flit counts for (R371, R373, R379, R380). DATA belongs to the role of its header: on a group that carries M and D,
its TAG tells which; K2 rides M's stripe. -/
def Port.flitRole (p : Port) (g : Nat) (f : GlFlit) : Nat :=
  let ft := glFt f
  if 1 ≤ ft && ft ≤ 4 then ft - 1
  else if ft = 5 && (p.peerStripe 3).contains g && (!(p.peerStripe 0).contains g || p.debugTag (glArg f / 16)) then 3
  else 0

/-- The role of an operation (R375), among those the backing sends. -/
def opRole (op : Nat) : Option Nat :=
  if 1 ≤ op && op ≤ 4 then some 0 else if op = 0x10 then some 1 else if op = 0x20 then some 2
  else if op = 0x30 || op = 0x31 then some 3 else none

/-- A header that R376 discards. -/
def headerBad (st : Steward) (ver : BitVec 8) (role : Nat) (h : BitVec 256) : Bool :=
  let op := fld h 0 8
  let req := op = 1 || op = 2 || op = 0x10 || op = 0x20 || op = 0x30 || op = 0x31
  let argOk := if op = 0x20 then true
    else if op = 0x10 && ver = 0x31 then fld h 144 112 == 0
    else fld h 128 128 == 0
  fld h 120 8 != ver.toNat || opRole op != some role || fld h 21 3 != 0 || fld h 92 4 != 0 || fld h 106 6 != 0 ||
    fld h 115 5 != 0 || 4 ≤ fld h 112 3 || (req && fld h 112 3 != 0) || !argOk || fld h 28 4 != st.slot ||
    (role == 3 && !bitOf (st.reg Reg.ST_PROT) 3)

/-- An operation that a discarded header of it is answered (R376). -/
def answered (op : Nat) : Bool := op == 1 || op == 2 || op == 0x10 || op == 0x30 || op == 0x31

/-- Discarded messages at the loom (R431). -/
def Steward.badMsg (s : Steward) : Steward := (s.flagBit Reg.LM_ERR 3).count Reg.LM_DROP_COUNT 1

/-- A message of the host's that has a reserved type, a nonzero reserved bit or an argument its type does not allow (R430,
R431). -/
def msgBad (h : BitVec 256) : Bool :=
  let ty := fld h 128 8
  let a0 := fld h 160 32
  let a1 := fld h 192 64
  fld h 136 8 != 0 || fld h 158 2 != 0 || fld h 32 60 != 0 || fld h 96 10 != 0 ||
    match ty with
    | 1 => a1 != 0
    | 2 => a0 == 0 || a1 != 0
    | 3 => a0 != 0 || a1 % 64 != 0
    | 4 => a0 != 0 || a1 != 0
    | 5 => a0 != 0 || a1 != 0
    | _ => true

/-- The header is an operation that the port passes on: a message goes to the loom over the weft (R430); the other operations
act by their own rows. -/
def State.headerOk (s : State) (ix : PortIx) (h : BitVec 256) : State :=
  if fld h 0 8 = 0x20 then
    if msgBad h then s.onSteward Steward.badMsg
    else
      let n : StreamNo := ⟨fld h 144 14 % 16384, Nat.mod_lt _ (by decide)⟩
      s.onPort ix fun p => p.post ix (.att (fieldNo (siteOfPort ix))) 0 1
        (.ctrl (.streamMsg (BitVec.ofNat 8 (fld h 128 8)) n (BitVec.ofNat 32 (fld h 160 32)) (BitVec.ofNat 64 (fld h 192 64))))
  else s

/-- HEADER_RECEIVE (R376, R387, R394, R410, R515). -/
def State.headerIn (s : State) (ix : PortIx) (role : Nat) (h : BitVec 256) : State :=
  let op := fld h 0 8
  let orig := bitOf h 20
  let s := if answered op && ((s.port ix).mode == .discover || (s.port ix).mode == .up) then s.onPort ix fun p => { p with
      srcSlots := p.srcSlots ++ [(BitVec.ofNat 8 op, BitVec.ofNat 12 (fld h 8 12), BitVec.ofNat 4 (fld h 24 4))] } else s
  let p := s.port ix
  let refuse := fun s : State => if answered op then
    s.portSend ix (.refused ix (BitVec.ofNat 8 op) (BitVec.ofNat 12 (fld h 8 12)) orig) else s
  if p.mode == .discover then refuse s
  else if p.mode != .up then s
  else if headerBad s.steward p.version role h then
    let s := s.onPort ix fun p => (p.flagBit Reg.GL_ERR 5).count Reg.GL_DROP_COUNT 1
    let s := if op = 0x10 then s.onPort ix fun p => p.flushCache.flagBit Reg.GL_RCERR 3 else s
    refuse s
  else if orig && (op = 0x10 || 0x20 ≤ op) then
    refuse (s.onPort ix fun p => (p.flagBit Reg.GL_ERR 4).count Reg.GL_DROP_COUNT 1)
  else if fld (s.steward.reg Reg.ST_BOOT) 0 2 = 3 && answered op then refuse s
  else s.headerOk ix h

def execHeaderReceive (port : PortIx) (role : BitVec 2) (hdr : BitVec 256) (s : State) : Host.Outcome State Fault Refusal :=
  live s fun s => s.headerIn port role.toNat hdr

/-- A flit discarded (R371, R389, R399). -/
def Port.dropFlit (p : Port) : Port := p.count Reg.GL_DROP_COUNT 1

/-- A link control message that is discarded: a reserved operation, or a discovery body of another version (R389). -/
def badLctl (f : GlFlit) : Bool :=
  let op := glArg f / 256
  !((1 ≤ op && op ≤ 6) || op = 0x11 || op = 0x12) || (0x10 ≤ op && fld f.body 0 8 != 1)

/-- A DWR's data is still to come (R373). -/
def Port.awaitData (p : Port) (h : BitVec 256) : Port :=
  if fld h 0 8 = 0x31 then { p with debugData := p.debugData ++ [(BitVec.ofNat 12 (fld h 8 12), (fld h 96 10 + 128) / 128)] } else p

/-- One beat of D data has come. -/
def Port.gotBeat (p : Port) (tag : Nat) : Port :=
  match p.debugData.find? fun e => e.1.toNat = tag with
  | some e =>
    let left := p.debugData.map fun x => if x = e then (x.1, x.2 - 1) else x
    { p with debugData := if e.2 ≤ 1 then p.debugData.erase e else left }
  | none => p

/-- The header and data credits that a flit frees, by class, when it leaves the receiver's buffers (R377). -/
def creditsOf (role : Nat) (f : GlFlit) : Nat × Nat × Nat :=
  let ft := glFt f
  if 1 ≤ ft && ft ≤ 4 then (role, glArg f % 4 + 1, 0)
  else if ft = 5 then (role, 0, 1) else if ft = 7 then (4, 0, 1) else (7, 0, 0)

/-- A flit in its turn: its headers are checked, and its buffer is free again. Data and K2 flits act by their own rows. -/
def State.sorted (s : State) (ix : PortIx) (role : Nat) (f : GlFlit) : State :=
  let ft := glFt f
  let (c, h, d) := creditsOf role f
  let s := s.onPort ix fun p => { p with owedH := p.owedH.modify c (· + h), owedD := p.owedD.modify c (· + d) }
  if 1 ≤ ft && ft ≤ 4 then
    (List.range (glArg f % 4 + 1)).foldl (fun s j =>
      let h := BitVec.ofNat 256 (f.body.toNat >>> (256 * j))
      (s.onPort ix fun p => if ft = 4 then p.awaitData h else p).headerIn ix (ft - 1) h) s
  else if ft = 5 && role = 3 then s.onPort ix fun p => p.gotBeat (glArg f / 16)
  else s

/-- A held flit is the STRIPE that closes a role's old stripe on its group (R379). -/
def isMarker (role : Nat) (f : GlFlit) : Bool := glFt f = 6 && glArg f / 256 == 5 && fld f.body 0 8 == role

/-- The first held flit of a group that counts for a role or closes its stripe. -/
def Port.headOn (p : Port) (role g : Nat) : Option (Fin 8 × GlFlit) :=
  p.rxHeld.find? fun e => e.1.val = g && (isMarker role e.2 || (glFt e.2 ≠ 6 && p.flitRole g e.2 == role))

/-- The first held flit of a group that counts for a role and stands behind the STRIPE, or on a group with none. -/
def Port.newOn (p : Port) (role g : Nat) : Option (Fin 8 × GlFlit) :=
  let mine := p.rxHeld.filter fun e => e.1.val = g
  let after := if mine.any fun e => isMarker role e.2 then (mine.dropWhile fun e => !isMarker role e.2).drop 1 else mine
  (after.find? fun e => isMarker role e.2 || (glFt e.2 ≠ 6 && p.flitRole g e.2 == role)).filter fun e => !isMarker role e.2

/-- A flit that a role still has to take of its old stripe. -/
def Port.oldLeft (p : Port) (role : Nat) : Bool :=
  (p.peerStripe role).any fun g => match p.headOn role g with
    | some e => !isMarker role e.2
    | none => false

/-- The map of the first STRIPE of a role that is held (R389). -/
def heldMap (role : Nat) (held : List (Fin 8 × GlFlit)) : Option Nat :=
  (held.find? fun e => isMarker role e.2).map fun e => fld e.2.body 8 8

/-- What is held once the STRIPE that closes a role's old stripe has been taken from each of its groups; where none of them is in
service, the first one of the role, wherever it came. -/
def Port.unmark (p : Port) (role : Nat) : List (Fin 8 × GlFlit) :=
  let old := (p.peerStripe role).filter p.inService
  let done := if old.isEmpty then ((p.rxHeld.find? fun e => isMarker role e.2).map fun e => [e.1.val]).getD [] else old
  done.foldl (fun h g => h.eraseP fun e => e.1.val = g && isMarker role e.2) p.rxHeld

/-- The old stripe of a role is closed on every group of it in service: the map of the STRIPE comes into force, and the count of its new
stripe begins after the flits of it that were taken in the place of lost ones (R379, R382). A STRIPE behind it is the next change's. -/
def Port.turnStripe (p : Port) (role : Nat) : Option Port :=
  match p.stripeDue.getD role none with
  | none => none
  | some map =>
    if (p.peerStripe role).all fun g => !p.inService g || (p.headOn role g).any fun e => isMarker role e.2 then
      let held := p.unmark role
      some { p with rxStripe := p.rxStripe.set role map, stripeDue := p.stripeDue.set role (heldMap role held)
                    stripeIn := p.stripeIn.set role (p.stripeNew.getD role 0), stripeNew := p.stripeNew.set role 0
                    rxHeld := held }
    else none

/-- The next flit of a role in the backing's rotation (R379). A flit that was lost with its group comes first on the new stripe (R382). -/
def Port.nextHeld (p : Port) (role : Nat) : Option (Port × GlFlit) :=
  let st := p.peerStripe role
  let g := st.getD (p.stripeIn.getD role 0 % st.length) 8
  match p.headOn role g with
  | some e => if isMarker role e.2 then none
      else some ({ p with rxHeld := p.rxHeld.erase e, stripeIn := p.stripeIn.modify role (· + 1) }, e.2)
  | none =>
    match p.stripeDue.getD role none with
    | none => none
    | some map =>
      let new := (List.range 8).filter fun k => bitOf (at32 map 0) k
      if p.inService g && st.contains g || !p.oldLeft role then none
      else (p.newOn role (new.getD (p.stripeNew.getD role 0 % new.length) 8)).map fun e =>
        ({ p with rxHeld := p.rxHeld.erase e, stripeIn := p.stripeIn.modify role (· + 1)
                  stripeNew := p.stripeNew.modify role (· + 1) }, e.2)

/-- Flits held until their turn come, and stripes that are closed change (R379, R381). -/
def State.takeHeld (ix : PortIx) : Nat → State → State
  | 0, s => s
  | fuel + 1, s =>
    let p := s.port ix
    match [0, 1, 2, 3].findSome? fun r => (p.nextHeld r).map fun x => (r, x) with
    | some (r, p, f) => State.takeHeld ix fuel ((s.setPort ix p).sorted ix r f)
    | none => match [0, 1, 2, 3].findSome? p.turnStripe with
      | some p => State.takeHeld ix fuel (s.setPort ix p)
      | none => s

/-- What a port has received is taken as far as it goes; then what waits is sent. -/
def State.settlePort (s : State) (ix : PortIx) : State :=
  ((s.takeHeld ix ((s.port ix).rxHeld.length + 5)).pumpPort ix).sendIdles ix

/-- A good flit of a group (R381): a link control message acts by its own row, but for the STRIPE that closes a stripe; a reserved type
is discarded (R371). -/
def State.goodGlFlit (s : State) (ix : PortIx) (g : Fin 8) (f : GlFlit) : State :=
  let lane := (s.port ix).lane g.val
  let s := s.onPort ix fun p => p.setLane g.val
    { lane with seqIn := lane.seqIn + 1, fails := 0, discarding := false, ackDue := some (false, glSeq f) }
  if 8 ≤ glFt f then s.onPort ix Port.dropFlit
  else if glFt f = 6 && badLctl f then s.onPort ix fun p => (p.flagBit Reg.GL_ERR 6).dropFlit
  else if glFt f = 6 && glArg f / 256 ≠ 5 then s
  else s.onPort ix fun p =>
    let p := { p with rxHeld := p.rxHeld ++ [(g, f)] }
    if glFt f = 6 then
      { p with stripeFlits := true
               stripeDue := (List.range 4).map fun r => (p.stripeDue.getD r none).or (heldMap r p.rxHeld) } else p

/-- What a flit's side-band word acknowledges and returns (R370, R381). -/
def State.sideBand (s : State) (ix : PortIx) (g : Fin 8) (f : GlFlit) : State :=
  let s := s.onPort ix fun p => p.credited f.sb
  if bitOf f.sb 35 then s.acked ix g (bitOf f.sb 34) (BitVec.ofNat 8 (fld f.sb 26 8)) else s

/-- GL_FLIT_RECEIVE (R381). -/
def State.glFlitIn (s : State) (ix : PortIx) (g : Fin 8) (f : GlFlit) : State :=
  let p := s.port ix
  if !(p.inService g.val && (p.mode == .discover || p.mode == .up)) then s
  else if fld f.sb 48 16 != (glCrc f.sb f.body).toNat then s.badGlFlit ix g f
  else if glFt f = 0 then (s.sideBand ix g f).settlePort ix
  else if glSeq f != (p.lane g.val).seqIn then s.setPort ix (p.setLane g.val { p.lane g.val with later := glSeq f + 1 })
  else ((s.sideBand ix g f).goodGlFlit ix g f).settlePort ix

def execGlFlitReceive (port : PortIx) (g : Fin 8) (flit : GlFlit) (s : State) : Host.Outcome State Fault Refusal :=
  live s fun s => s.glFlitIn port g flit

/-- STRIPE (R379): the map of the backing's new stripe of a role. Where the port's STRIPE messages come as flits, they bring it
themselves and the row has nothing left to do; else it comes into force at once. -/
def State.stripeIn (s : State) (ix : PortIx) (role : Nat) (map : Nat) : State :=
  let p := s.port ix
  if p.stripeFlits then s
  else (s.setPort ix { p with rxStripe := p.rxStripe.set role map, stripeIn := p.stripeIn.set role 0
                              stripeDue := p.stripeDue.set role none, stripeNew := p.stripeNew.set role 0 }).settlePort ix

def execStripe (port : PortIx) (role : BitVec 8) (map : BitVec 8) (s : State) : Host.Outcome State Fault Refusal :=
  live s fun s => if role.toNat < 4 && map != 0 && ((s.port port).mode == .discover || (s.port port).mode == .up) then
    s.stripeIn port role.toNat map.toNat else s

/-! ## Start-up (R386, R387) -/

/-- PORT_RESTART (R386, R387): a DOWN port starts again from its PLL lock, ALIVE high; after three restarts within 1 ms, which is 100
budget periods, that failed to reach UP it stays DOWN with a port fault. -/
def Port.restart (p : Port) (ix : PortIx) (period : Nat) : Port :=
  if p.mode != .down || p.stays || p.hemmed then p
  else
    let recent := p.restartAt.filter fun t => period - t ≤ 100
    if 3 ≤ recent.length then ({ p with stays := true } : Port).fault ix
    else { p with mode := .lock, aliveOut := true, restarts := recent.length + 1, restartAt := recent ++ [period] }

/-- A port whose router is off stays off with its site (R25). -/
def State.portOn (s : State) (ix : PortIx) : Bool := !s.steward.off (siteOfPort ix).val

def execPortRestart (port : PortIx) (s : State) : Host.Outcome State Fault Refusal :=
  live s fun s => if s.portOn port then s.onPort port fun p => p.restart port s.periods else s

def execPllLock (port : PortIx) (s : State) : Host.Outcome State Fault Refusal :=
  live s fun s => s.onPort port fun p => if p.mode == .lock then { p with mode := .train } else p

def execAliveSeen (port : PortIx) (s : State) : Host.Outcome State Fault Refusal :=
  live s fun s => s.onPort port fun p => if p.mode == .lock || p.mode == .train then { p with aliveIn := true } else p

/-- The version of a link: the lowest of the die's, the backing's and the cap (R391). -/
def Steward.linkVersion (s : Steward) (offered cap : BitVec 8) : BitVec 8 :=
  BitVec.ofNat 8 (min s.ownVersion.toNat (min offered.toNat cap.toNat))

/-- A port in DISCOVER moves to UP under the agreed cap, or stays with a port fault where no version is common (R390, R391). -/
def Port.joinUp (p : Port) (ix : PortIx) (st : Steward) (cap : BitVec 8) : Port :=
  if p.mode != .discover then p
  else
    let v := st.linkVersion p.offered cap
    if v.toNat < 0x30 then (p.flagBit Reg.GL_ERR 7).fault ix
    else { p with mode := .up, version := v, restarts := 0, restartAt := [] }

/-- The test of group `g` at training, each failed forwarded clock counted once for the four groups it serves (R384). -/
def trainTest (tests : List GroupTest) (g : Nat) : GroupTest :=
  let t := fun k : Nat => tests.getD k { rx := [], tx := [], clk := false }
  { t g with clk := g % 4 == 0 && (upto g 4).any fun k => (t k).clk }

/-- PORT_TRAIN_END (R387): spares and CLKS± are assigned, groups removed; credits are granted and the role maps exchanged. A port
with no group stays DOWN with a port fault; after a COMMIT a port goes on to UP (assumption 17). -/
def State.trainEnd (s : State) (ix : PortIx) (offered : BitVec 8) (tests : List GroupTest) : State :=
  let p := s.port ix
  if !(p.mode == .train && p.aliveIn && p.aliveOut) then s
  else
    let clean := [Reg.GL_SPMAP0, Reg.GL_SPMAP1, Reg.GL_SPMAP2, Reg.GL_SPMAP3, Reg.GL_STAT].foldl (fun p o => p.setReg o 0) p
    let (p, out) := (List.range 8).foldl (fun (a : Port × List Nat) g =>
      let (p, o, gs) := a.1.decide g (trainTest tests g)
      (p, a.2 ++ (if o = 2 then [g] else []) ++ gs)) (clean, ([] : List Nat))
    let p := (List.range 8).foldl (fun p g =>
      if g ∈ out then ((p.setStat (24 + g) true).flagBit Reg.GL_ERR 2) else p.setStat (8 + g) true) p
    let p := if (List.range 8).any p.removed then p.fault ix else p
    if (List.range 8).all p.removed then
      (s.setPort ix ({ p with stays := true } : Port)).portDown ix
    else
      let p := { p with mode := .discover, offered := offered, version := s.steward.linkVersion offered 0xFF
                        rolesNow := (p.reg Reg.GL_ROLE).setWidth 16, credH := List.replicate 5 64, credD := List.replicate 5 256
                        stripeIn := [0, 0, 0, 0], stripeOut := [0, 0, 0, 0] }
      let p := { p with rxStripe := (List.range 4).map fun r => stripeMap (p.stripe r) }
      let p := if offered.toNat < 0x30 then (p.flagBit Reg.GL_ERR 7).fault ix else p
      let s := (s.setPort ix p).lctl ix 6 (leBytes 2 (p.reg Reg.GL_ROLE).toNat)
      let s := s.pickDiscovery
      if s.steward.committed && 0x30 ≤ offered.toNat then
        s.onPort ix fun p => p.joinUp ix s.steward (BitVec.ofNat 8 (fld (s.steward.reg Reg.GL_DISC) 8 8)) else s

def execPortTrainEnd (port : PortIx) (offered : BitVec 8) (tests : List GroupTest) (s : State) :
    Host.Outcome State Fault Refusal :=
  live s fun s => s.trainEnd port offered tests

/-! ## Discovery (R388 to R392) -/

/-- ANNOUNCE_RESEND (R388): until ASSIGN and COMMIT have been received. -/
def execAnnounceResend (s : State) : Host.Outcome State Fault Refusal :=
  live s fun s =>
    match s.steward.discovery with
    | some p => if s.steward.discovered then s else s.portSend p (.announce p s.announceBody)
    | none => s

/-- GL_DISC.VALID once ASSIGN and COMMIT have both been applied (R400). -/
def Steward.discValid (s : Steward) : Steward :=
  if s.assigned && s.committed then s.flagBit Reg.GL_DISC 31 else s

/-- ASSIGN (R390). -/
def execAssign (port : PortIx) (msgver : BitVec 8) (slot : BitVec 4) (pkg : BitVec 12) (s : State) :
    Host.Outcome State Fault Refusal :=
  live s fun s =>
    let st := s.steward
    if !((s.port port).mode == .discover || (s.port port).mode == .up) then s
    else if msgver ≠ 1 || (st.assigned && (st.slot ≠ slot.toNat || st.pkg ≠ pkg.toNat)) then
      s.onPort port fun p => (p.flagBit Reg.GL_ERR 6).dropFlit
    else s.onSteward fun x =>
      let w := setFld (setFld (x.reg Reg.GL_DISC) 0 4 slot.toNat) 16 12 pkg.toNat
      ({ x.setReg Reg.GL_DISC w with assigned := true } : Steward).discValid

/-- The protocol version that the die applies under a cap (R389, R391). -/
def Steward.applied (s : Steward) (cap : Nat) : BitVec 8 := BitVec.ofNat 8 (min s.ownVersion.toNat cap)

/-- The agreed feature map. -/
def Steward.agreed (s : Steward) : BitVec 64 := (s.reg Reg.GL_FEAT_AGR_HI) ++ (s.reg Reg.GL_FEAT_AGR_LO)

/-- DISCOVERY_COMMIT (R390, R391): the first sets announced bits and a cap; a later one only clears bits and lowers the cap. -/
def State.discoveryCommit (s : State) (port : PortIx) (cap : BitVec 8) (feat : BitVec 64) : State :=
  let st := s.steward
  let oldCap := fld (st.reg Reg.GL_DISC) 8 8
  let first := !st.committed
  let ok := feat &&& ~~~st.ownFeatures = 0 && (first || (feat &&& ~~~st.agreed = 0 && cap.toNat ≤ oldCap))
  if !ok then
    (s.onPort port fun p => p.flagBit Reg.GL_ERR 6).portSend port (.commitAck port (st.applied oldCap) st.agreed)
  else
    let s := s.onSteward fun x =>
      let x := (x.setReg Reg.GL_FEAT_AGR_LO (feat.setWidth 32)).setReg Reg.GL_FEAT_AGR_HI (BitVec.ofNat 32 (feat.toNat / 2 ^ 32))
      ({ x.setReg Reg.GL_DISC (setFld (x.reg Reg.GL_DISC) 8 8 cap.toNat) with committed := true } : Steward).discValid
    let st := s.steward
    let s := s.onPorts allPorts fun ix p =>
      if p.mode == .up then { p with version := st.linkVersion p.offered cap } else p.joinUp ix st cap
    s.portSend port (.commitAck port (st.applied cap.toNat) feat)

def execDiscoveryCommit (port : PortIx) (msgver : BitVec 8) (cap : BitVec 8) (feat : BitVec 64) (s : State) :
    Host.Outcome State Fault Refusal :=
  live s fun s =>
    if !((s.port port).mode == .discover || (s.port port).mode == .up) then s
    else if msgver ≠ 1 then s.onPort port fun p => (p.flagBit Reg.GL_ERR 6).dropFlit
    else s.discoveryCommit port cap feat

/-! ## K2 transit (R395) -/

/-- A K2 packet that is discarded. -/
def Port.k2Drop (p : Port) : Port := (p.flagBit Reg.GL_ERR 3).count Reg.GL_DROP_COUNT 1

/-- K2_FLIT (R395): a packet's flits are gathered; the whole packet goes to its destination port over the weft. Without the
feature the flits are discarded (R392). -/
def State.k2In (s : State) (ix : PortIx) (ftarg : BitVec 16) (body : List Byte) : State :=
  let p := s.port ix
  let dport := fld ftarg 9 7
  let n := fld ftarg 6 3 + 1
  let beat := fld ftarg 4 2
  if p.mode != .up then s
  else if !s.steward.feature 2 then s.onPort ix fun p => p.count Reg.GL_DROP_COUNT 1
  else
    let parts := (if beat = 0 then [] else p.k2in) ++ [sliceBytes body 0 128]
    if beat + 1 < (n + 1) / 2 then s.setPort ix { p with k2in := parts }
    else
      let p := { p with k2in := [] }
      if h : dport < 96 then
        if (s.port ⟨dport, h⟩).mode == .up then
          s.setPort ix (p.post ix (.port ⟨dport, h⟩) 7 n
            (.k2 (BitVec.ofNat 24 (dport <<< 17 ||| (n - 1) <<< 14)) (parts.flatten.take (64 * n))))
        else s.setPort ix p.k2Drop
      else s.setPort ix p.k2Drop

def execK2Flit (port : PortIx) (ftarg : BitVec 16) (body : List Byte) (s : State) : Host.Outcome State Fault Refusal :=
  live s fun s => s.k2In port ftarg body

/-- K2_DELIVER (R395): the packet leaves as K2 flits with the same count. -/
def execK2Deliver (port : PortIx) (src : PortIx) (arg : BitVec 24) (body : List Byte) (s : State) :
    Host.Outcome State Fault Refusal :=
  live s fun s =>
    s.receive (fun p => p.dst = .port port && p.src = .port src && p.body = .k2 arg body) fun s =>
    let n := fld arg 14 3 + 1
    if (s.port port).mode != .up then s.onPort port Port.k2Drop
    else (List.range ((n + 1) / 2)).foldl (fun s k =>
      s.portSend port (.k2 port (BitVec.ofNat 16 (fld arg 17 7 <<< 9 ||| (n - 1) <<< 6 ||| k <<< 4))
        (sliceBytes body (128 * k) 128))) s

end Sys2Proof.Machine
end

