-- ==== Sys2Proof/Machine/Reach.lean ====
section
/-! DEFINITION. Reach (R402 to R428): the reach cache, its fills and prefetchers, a tile's requests and answers, incoming requests
into windows (R246, R247, R249). -/

namespace Sys2Proof.Machine

/-! ## Addresses (R402, R403) -/

def addrPkg (a : Nat) : Nat := a / 2 ^ 48
def addrSlot (a : Nat) : Nat := a / 2 ^ 44 % 16
def addrLocal (a : Nat) : Nat := a % 2 ^ 44

/-- An address in the local space of this die (R402). -/
def Steward.ownAddr (s : Steward) (a : Nat) : Bool := addrPkg a == s.pkg && addrSlot a == s.slot

/-- The site whose scratchpad holds the `n` bytes from a global address on, if they lie in one (R403). -/
def Steward.ownSite (s : Steward) (a n : Nat) : Option Site :=
  let lo := addrLocal a
  let hi := lo + n - 1
  if s.ownAddr a && hi < 2 ^ 33 && lo / 2 ^ 21 == hi / 2 ^ 21 then
    if h : lo / 2 ^ 21 < 2400 then some ⟨lo / 2 ^ 21, h⟩ else none
  else none

/-! ## The cache (R411 to R416) -/

/-- A sector of the cache. -/
def Port.sector? (p : Port) (sec : Nat) (st : StreamNo) : Option Sector :=
  p.cache.find? fun x => x.addr = sec && x.stream = st

/-- The set of a sector (R411). -/
def setOf (sec : Nat) : Nat := sec % 512

/-- A fill in flight that may still be installed. -/
def Port.filling (p : Port) (sec : Nat) (st : StreamNo) : Option PortReq :=
  p.reqs.find? fun r => r.fill && r.install && r.addr = 512 * sec && r.stream = st

/-- A sector of an eighth of the cache that self-test has out of use (R490, R495). -/
def Port.setOff (p : Port) (sec : Nat) : Bool := p.rcOff.getLsbD (setOf sec / 64)

/-- No way of the set is free of waiting requests (R415), or the set is out of use. -/
def Port.setFull (p : Port) (sec : Nat) : Bool :=
  p.setOff sec ||
  16 ≤ (p.reqs.filter fun r => r.fill && r.install && !r.waits.isEmpty && setOf (r.addr / 512) = setOf sec).length

/-- A sector installed; the least recently used of a full set leaves (R411). -/
def Port.installSector (p : Port) (x : Sector) : Port :=
  let cache := p.cache.filter fun y => !(y.addr = x.addr && y.stream = x.stream)
  let mine := cache.filter fun y => setOf y.addr = setOf x.addr
  let cache := if 16 ≤ mine.length then
      match mine with
      | y :: _ => cache.erase y
      | [] => cache
    else cache
  { p with cache := cache ++ [x] }

/-- Sectors invalidated, and fills of them in flight never to be installed (R414, R415). -/
def Port.invalidate (p : Port) (bad : Nat → StreamNo → Bool) : Port :=
  { p with
    cache := p.cache.filter fun x => !bad x.addr x.stream
    reqs := p.reqs.map fun r => if r.fill && bad (r.addr / 512) r.stream then { r with install := false } else r }

/-- First and last byte address of read-only range `n` (R426). -/
def Port.rangeOf (p : Port) (n : Nat) : Nat × Nat :=
  let lo := p.reg (Reg.GL_RORNG + 16 * n)
  let hi := p.reg (Reg.GL_RORNG + 16 * n + 4)
  let base := lo.toNat * 2 ^ 20 + fld hi 0 8 * 2 ^ 52
  (base, base + (fld (p.reg (Reg.GL_RORNG + 16 * n + 8)) 0 20 + 1) * 2 ^ 20 - 1)

/-- The enabled read-only range that holds all bytes of a request of its stream (R412). -/
def Port.rangeFor (p : Port) (h : ReachHdr) : Option Nat :=
  (List.range 16).find? fun n =>
    let hi := p.reg (Reg.GL_RORNG + 16 * n + 4)
    let (a, b) := p.rangeOf n
    bitOf hi 31 && fld hi 16 14 == h.stream.toNat && a ≤ h.addr.toNat && h.addr.toNat + h.len.toNat ≤ b

/-- The read-only range that makes a GREQ cacheable (R412). -/
def Port.cacheable (p : Port) (st : Steward) (h : ReachHdr) : Option Nat :=
  if bitOf (p.reg Reg.GL_RCCFG) 0 && h.sv && !st.ownAddr h.addr.toNat && !p.setOff (h.addr.toNat / 512) then p.rangeFor h else none

/-! ## Stream prefetchers (R417, R418) -/

def noPrefetch : Nat → Option Prefetcher := fun _ => none

def Port.prefetcher (p : Port) (n : Nat) : Option Prefetcher := Map.get noPrefetch p.prefetchers n

def Port.setPrefetcher (p : Port) (n : Nat) (x : Option Prefetcher) : Port :=
  { p with prefetchers := Map.set noPrefetch p.prefetchers n x }

/-- The order of the next advance of a prefetcher (R417). -/
def Port.nextTurn (p : Port) : Nat := (List.range 16).foldl (fun m n => max m (((p.prefetcher n).map fun x => x.turn + 1).getD 0)) 0

/-- The prefetcher that a training takes: the free one with the lowest number, or the one that advanced least recently. -/
def Port.takePrefetcher (p : Port) : Nat :=
  match (List.range 16).find? fun n => (p.prefetcher n).isNone with
  | some n => n
  | none =>
    let used := fun n => ((p.prefetcher n).map (·.turn)).getD 0
    (List.range 16).foldl (fun m n => if used n < used m then n else m) 0

/-- A prefetcher advanced to its next sector, freed where that leaves its range. -/
def Port.advance (p : Port) (n : Nat) (x : Prefetcher) (period : Nat) : Port :=
  let next : Int := (x.next : Int) + x.stride
  p.setPrefetcher n (if (x.lo : Int) ≤ next && next ≤ x.hi then some { x with next := next.toNat, used := period, turn := p.nextTurn } else none)

/-- A prefetcher trained on its third sector at a constant stride (R417). -/
def Port.train (p : Port) (src : Site) (st : StreamNo) (range : Nat) (a b c period : Nat) : Port :=
  let d : Int := (c : Int) - b
  let (lo, hi) := p.rangeOf range
  let x : Prefetcher := { site := src, stream := st, next := ((c : Int) + d).toNat, stride := d, lo := lo / 512, hi := hi / 512
                          used := period, turn := p.nextTurn }
  let known := (List.range 16).any fun n => match p.prefetcher n with
    | some y => y.site == src && y.stream == st && y.next == x.next && y.stride == d
    | none => false
  if d != (b : Int) - a || d = 0 || fld (p.reg Reg.GL_PFCFG) 8 5 < d.natAbs || known ||
      (c : Int) + d < x.lo || (x.hi : Int) < (c : Int) + d then p
  else p.setPrefetcher p.takePrefetcher (some x)

/-- A cacheable GREQ as the prefetchers see it (R417). -/
def Port.observe (p : Port) (src : Site) (st : StreamNo) (range sec period : Nat) : Port :=
  if !bitOf (p.reg Reg.GL_RCCFG) 1 then p
  else
    let mine := fun n : Nat => match p.prefetcher n with
      | some x => x.site == src && x.stream == st && x.next == sec
      | none => false
    let seen := ((p.history.find? fun h : Site × StreamNo × List Nat => h.1 = src && h.2.1 = st).map (·.2.2)).getD []
    let now := (seen ++ [sec]).drop ((seen.length + 1) - 3)
    let p := { p with history :=
      (p.history.filter fun h : Site × StreamNo × List Nat => !(h.1 = src && h.2.1 = st)) ++ [(src, st, now)] }
    match (List.range 16).find? mine with
    | some n => match p.prefetcher n with
      | some x => p.advance n x period
      | none => p
    | none => match now with
      | [a, b, c] => p.train src st range a b c period
      | _ => p

/-! ## Requests of the port's own to the backing (R409) -/

/-- A read or write sent to the backing, and noted. -/
def State.portReq (s : State) (ix : PortIx) (r : PortReq) (len : Nat) (data : List Byte) (poison : List Bool) : State :=
  let tag := (s.port ix).freeTag
  let a : GAddr := BitVec.ofNat 60 r.addr
  let s := s.onPort ix fun p => { p with reqs := p.reqs ++ [{ r with tag := tag }], nextTag := (tag.toNat + 1) % 4096 }
  s.portSend ix (if r.write then .wr ix tag a data poison else .rd ix tag a (BitVec.ofNat 10 (len - 1))) (s.steward.rank r.waits)

/-- The stream of a reach header. -/
def hdrStream (h : ReachHdr) : StreamNo := ⟨h.stream.toNat % 16384, Nat.mod_lt _ (by decide)⟩

/-- A waiting GREQ or PREQ: the site, its header, and its class. -/
abbrev ReachWait := Site × ReachHdr × Fin 8

/-- A read sent as it was asked for (R409). -/
def State.plainRead (s : State) (ix : PortIx) (w : ReachWait) : State :=
  s.portReq ix { tag := 0, write := false, fill := false, prefetch := false, install := false, addr := w.2.1.addr.toNat
                 stream := hdrStream w.2.1, waits := [w] } (w.2.1.len.toNat + 1) [] []

/-- A cacheable miss (R413, R415). -/
def State.cacheMiss (s : State) (ix : PortIx) (w : ReachWait) (sec : Nat) : State :=
  let st := hdrStream w.2.1
  let p := (s.port ix).count Reg.GL_RCMISS_COUNT 1
  let s := s.setPort ix p
  match p.filling sec st with
  | some r => s.setPort ix { p with
      reqs := p.reqs.map fun x => if x.tag = r.tag then { x with waits := x.waits ++ [w] } else x }
  | none =>
    if p.setFull sec then s.plainRead ix w
    else s.portReq ix { tag := 0, write := false, fill := true, prefetch := false, install := true, addr := 512 * sec
                        stream := st, waits := [w] } 512 [] []

/-- A cacheable request looked up (R411, R413, R416). -/
def State.lookup (s : State) (ix : PortIx) (w : ReachWait) (range : Nat) (ecc : Option EccKind) : State :=
  let h := w.2.1
  let sec := h.addr.toNat / 512
  let st := hdrStream h
  let s := s.onPort ix fun p => p.observe w.1 st range sec s.periods
  let p := s.port ix
  match p.sector? sec st with
  | none => s.cacheMiss ix w sec
  | some x =>
    if ecc = some .ue then
      (s.setPort ix ({ p with cache := p.cache.erase x } |>.flagBit Reg.GL_RCERR 2)).cacheMiss ix w sec
    else
      let p := if ecc = some .ce then (p.flagBit Reg.GL_RCERR 1).count Reg.GL_RCECC_COUNT 1 else p
      let p := ({ p with cache := p.cache.erase x ++ [x] } : Port).count Reg.GL_RCHIT_COUNT 1
      s.setPort ix (p.answer ix w false 0 (sliceBytes x.data (h.addr.toNat % 512) (h.len.toNat + 1)) [])

/-- The class of a packet in flight (R357). -/
def State.packetClass (s : State) (q : Pkt → Bool) : Fin 8 := ((s.net.find? q).map (·.cls)).getD 1

/-- A request is answered without a read of its own: its sector is held, or being filled (R413). -/
def Port.served (p : Port) (st : Steward) (h : ReachHdr) (ecc : Option EccKind) : Bool :=
  let sec := h.addr.toNat / 512
  (p.cacheable st h).isSome && (((p.sector? sec (hdrStream h)).isSome && ecc != some .ue) || (p.filling sec (hdrStream h)).isSome)

/-- GREQ (R412, R413); one that needs a read of its own waits while 4,096 are outstanding (R409). -/
def State.greq (s : State) (ix : PortIx) (src : Site) (h : ReachHdr) (ecc : Option EccKind) : State :=
  let q : Pkt → Bool := fun p => p.dst = .port ix && p.src = .tile src && p.body = .greq h
  let w : ReachWait := (src, h, s.packetClass q)
  let p := s.port ix
  if p.mode != .up then s.receive q fun s => s.onPort ix fun p => p.answer ix w false 1 [] []
  else if 4096 ≤ p.tagged && !p.served s.steward h ecc then s
  else s.receive q fun s =>
    match p.cacheable s.steward h with
    | some n => s.lookup ix w n ecc
    | none => s.plainRead ix w

def execGreq (port : PortIx) (src : Site) (h : ReachHdr) (ecc : Option EccKind) (s : State) :
    Host.Outcome State Fault Refusal :=
  live s fun s => s.greq port src h ecc

/-- POISON of each WR beat of a tile's write, from that of the flits that brought its bytes (R406, R409). -/
def wrBeats (h : ReachHdr) (poison : List Bool) : List Bool :=
  (List.range ((h.len.toNat + 128) / 128)).map fun k =>
    flitsHit h.addr.toNat (h.len.toNat + 1) poison (128 * k) (128 * k + 128)

/-- POISON of each flit of an answer to a tile, from that of the beats of its data, which begin `o` bytes before it (R406, R415). -/
def rdFlits (h : ReachHdr) (o : Nat) (bad : List Bool) : List Bool :=
  (flitSpans h.addr.toNat (h.len.toNat + 1)).map fun x => beatsHit bad (o + x.1) (x.2 - x.1)

/-- PREQ (R409, R414). -/
def State.preq (s : State) (ix : PortIx) (src : Site) (h : ReachHdr) (data : List Byte) (poison : List Bool) : State :=
  let q : Pkt → Bool := fun p => p.dst = .port ix && p.src = .tile src && p.body = .preq h data poison
  let w : ReachWait := (src, h, s.packetClass q)
  let p := s.port ix
  if p.mode != .up then s.receive q fun s => s.onPort ix fun p => p.answer ix w true 1 [] []
  else if 4096 ≤ p.tagged then s
  else
    let lo := h.addr.toNat / 512
    let hi := (h.addr.toNat + h.len.toNat) / 512
    s.receive q fun s =>
    let s := s.onPort ix fun p => p.invalidate fun a _ => lo ≤ a && a ≤ hi
    s.portReq ix { tag := 0, write := true, fill := false, prefetch := false, install := false, addr := h.addr.toNat
                   stream := hdrStream h, waits := [w] } (h.len.toNat + 1) (sliceBytes data 0 (h.len.toNat + 1))
      (wrBeats h poison)

def execPreq (port : PortIx) (src : Site) (h : ReachHdr) (data : List Byte) (poison : List Bool) (s : State) :
    Host.Outcome State Fault Refusal :=
  live s fun s => s.preq port src h data poison

/-- FILL_RESPONSE (R413, R415): the answers go to the requests that waited; a whole, clean fill that nothing has invalidated is
installed. -/
def Port.fillDone (p : Port) (ix : PortIx) (r : PortReq) (status : BitVec 3) (data : List Byte) (bad : List Bool) : Port :=
  let p := { p with reqs := p.reqs.erase r }
  let p := if r.fill && r.install && status = 0 && !bad.any id then
      p.installSector { addr := r.addr / 512, stream := r.stream, data := sliceBytes data 0 512 } else p
  r.waits.foldl (fun p w =>
    let h := w.2.1
    p.answer ix w false status (sliceBytes data (h.addr.toNat - r.addr) (h.len.toNat + 1))
      (rdFlits h (h.addr.toNat - r.addr) bad)) p

def execFillResponse (port : PortIx) (tag : BitVec 12) (status : BitVec 3) (data : List Byte) (bad : List Bool) (s : State) :
    Host.Outcome State Fault Refusal :=
  live s fun s => (s.onPort port fun p =>
    match p.reqs.find? fun r => r.tag = tag && !r.write with
    | some r => p.fillDone port r status data bad
    | none => p).startOwn port

/-- WRACK (R408, R409). -/
def Port.writeDone (p : Port) (ix : PortIx) (r : PortReq) (status : BitVec 3) : Port :=
  r.waits.foldl (fun p w => p.answer ix w true status [] []) { p with reqs := p.reqs.erase r }

def execWrack (port : PortIx) (tag : BitVec 12) (status : BitVec 3) (s : State) : Host.Outcome State Fault Refusal :=
  live s fun s => (s.onPort port fun p =>
    match p.reqs.find? fun r => r.tag = tag && r.write with
    | some r => p.writeDone port r status
    | none => p).startOwn port

/-! ## Answers at the tile (R406, R471) -/

/-- A re-streamed row of a darning arrives at the spare, or its request is refused: the first refused one is asked for again
(R471). -/
def State.darnRow (s : State) (site : Site) (o : ReachOut) (ok : Bool) (data : List Byte) (poison : List Bool) : State :=
  match s.steward.darning with
  | none => s
  | some d =>
    if d.spare ≠ site then s
    else if ok then
      let s := s.onSteward fun x => { x with darning := some { d with gets := d.gets - 1 } }
      s.onTile site fun t => (reachPieces o.goff o.len).foldl (fun t g =>
        t.writeRow site ((d.wrow + (o.goff + g.1) / 512) % 4096) ((o.goff + g.1) % 512) (sliceBytes data g.1 g.2)
          (flitsHit (d.weights + o.goff) o.len poison g.1 (g.1 + g.2)) 7) t
    else if d.getErrs.isEmpty then
      let s := s.onSteward fun x => { x with darning := some { d with getErrs := [(o.goff, o.len)] } }
      s.onTile site fun t => t.askReach site
        [{ user := .darn, goff := o.goff, addr := d.weights + o.goff, len := o.len, data := none, poison := [] }]
    else s.onSteward fun x => { x with darning := some { d with gets := d.gets - 1, bad := d.bad + 1 } }

/-- GDATA (R406). -/
def State.gdata (s : State) (site : Site) (rtag : BitVec 12) (status : BitVec 3) (data : List Byte) (poison : List Bool) : State :=
  s.receive (fun p => p.dst = .site site && p.body = .gdata rtag status data poison) fun s =>
  let (o, t) := (s.tile site).takeReach site rtag
  let s := s.setTile site t
  match o with
  | none => s
  | some o => match o.user with
    | .cmd stamp => s.onTile site fun t => t.getAnswer site stamp o.goff (status = 0) (sliceBytes data 0 o.len) poison
    | .darn => s.darnRow site o (status = 0) data poison
    | .scan => s

def execGdata (site : Site) (rtag : BitVec 12) (status : BitVec 3) (data : List Byte) (poison : List Bool) (s : State) :
    Host.Outcome State Fault Refusal :=
  live s fun s => s.gdata site rtag status data poison

/-- PDONE (R406): a write result counts toward its command's completion, or its scan's (R325). -/
def State.pdone (s : State) (site : Site) (rtag : BitVec 12) (status : BitVec 3) : State :=
  s.receive (fun p => p.dst = .site site && p.body = .pdone rtag status) fun s =>
  let (o, t) := (s.tile site).takeReach site rtag
  s.setTile site (match o.map fun x : ReachOut => x.user with
    | some (.cmd stamp) => t.onRun .sh stamp fun r => { r with left := r.left - 1, refused := r.refused || status != 0 }
    | some .scan =>
      let t := { t with freeze := { t.freeze with scanLeft := t.freeze.scanLeft - 1 } }
      if status = 0 then t else t.flagBit Reg.TC_SCAN_STAT 10
    | _ => t)

def execPdone (site : Site) (rtag : BitVec 12) (status : BitVec 3) (s : State) : Host.Outcome State Fault Refusal :=
  live s fun s => s.pdone site rtag status

/-! ## Prefetching (R417, R418) -/

/-- A demand read waits for an M credit (R418). -/
def Port.demandWaits (p : Port) : Bool :=
  p.backlog.any fun x => x.cls = 0 && x.ft = 1 && fld x.body 0 8 == 1 &&
    !p.reqs.any fun r => r.prefetch && r.tag.toNat == fld x.body 8 12

/-- The sectors a prefetcher keeps filled (R418). -/
def Prefetcher.window (x : Prefetcher) (depth : Nat) : List Nat :=
  (List.range depth).filterMap fun j : Nat =>
    let a : Int := (x.next : Int) + (j : Int) * x.stride
    if (x.lo : Int) ≤ a && a ≤ x.hi then some a.toNat else none

/-- The next sector to prefetch: the prefetchers in number order, nearest sector first. -/
def Port.nextPrefetch (p : Port) : Option (Nat × StreamNo) :=
  (List.range 16).findSome? fun n => match p.prefetcher n with
    | none => none
    | some x => ((x.window (fld (p.reg Reg.GL_PFCFG) 0 6)).find? fun a =>
        (p.sector? a x.stream).isNone && (p.filling a x.stream).isNone && !p.setFull a).map fun a => (a, x.stream)

/-- PREFETCH_ISSUE (R418). -/
def State.prefetchIssue (s : State) (ix : PortIx) : State :=
  let p := s.port ix
  let out := (p.reqs.filter fun r => r.prefetch).length
  if p.mode != .up || fld (p.reg Reg.GL_RCCFG) 0 2 != 3 || fld (p.reg Reg.GL_PFCFG) 16 8 ≤ out || p.demandWaits ||
      4096 ≤ p.tagged then s
  else match p.nextPrefetch with
    | none => s
    | some (sec, st) => (s.setPort ix (p.count Reg.GL_PFFILL_COUNT 1)).portReq ix
        { tag := 0, write := false, fill := true, prefetch := true, install := true, addr := 512 * sec, stream := st, waits := [] }
        512 [] []

def execPrefetchIssue (port : PortIx) (s : State) : Host.Outcome State Fault Refusal :=
  live s fun s => s.prefetchIssue port

/-- PREFETCHER_TIMEOUT (R417): not advanced for 20 us, which is two budget periods. -/
def execPrefetcherTimeout (port : PortIx) (n : Fin 16) (s : State) : Host.Outcome State Fault Refusal :=
  live s fun s => s.onPort port fun p =>
    match p.prefetcher n.val with
    | some x => if x.used + 2 ≤ s.periods then p.setPrefetcher n.val none else p
    | none => p

/-! ## Set-up of the cache (R414, R425, R426) -/

/-- A reserved encoding written to a cache or range register (R427, R578). -/
def Port.rcSetup (p : Port) (keep : Word) : Port := if keep = 0 then p else p.flagBit Reg.GL_RCERR 4

def Port.writeCacheCfg (p : Port) (w : Word) : Port :=
  (p.setReg Reg.GL_RCCFG (mergeMask 3 (p.reg Reg.GL_RCCFG) w)).flushCache

def execCacheConfigWrite (port : PortIx) (val : Word) (s : State) : Host.Outcome State Fault Refusal :=
  live s fun s => if s.portOn port then s.onPort port fun p => p.writeCacheCfg val else s

/-- GL_RORNGn_LO, _HI or _SIZE written (R426): where the range would pass 2^60 - 1, the base or size field keeps its value (R14). -/
def Port.writeRange (p : Port) (n k : Nat) (w : Word) : Port :=
  let off := Reg.GL_RORNG + 16 * n + 4 * k
  let mask : Word := if k = 0 then 0xFFFFFFFF else if k = 1 then 0xBFFF00FF else 0xFFFFF
  let write := fun m : Word => p.setReg off (mergeMask m (p.reg off) w)
  if 2 ^ 60 ≤ ((write mask).rangeOf n).2 then ((write (if k = 1 then 0xBFFF0000 else 0)).rcSetup 1).flushCache
  else (write mask).flushCache

def execRangeConfigWrite (port : PortIx) (n : Fin 16) (k : Fin 3) (val : Word) (s : State) :
    Host.Outcome State Fault Refusal :=
  live s fun s => if s.portOn port then s.onPort port fun p => p.writeRange n.val k.val val else s

def Port.writePrefetchCfg (p : Port) (w : Word) : Port :=
  let keep := keepIf w 16 8 (· == 0) ||| keepIf w 8 5 (· == 0) ||| keepIf w 0 6 (fun v => v == 0 || 32 < v)
  let p := p.rcSetup keep
  { p.setReg Reg.GL_PFCFG (mergeMask (0x00FF1F3F &&& ~~~keep) (p.reg Reg.GL_PFCFG) w) with prefetchers := [], history := [] }

def execPrefetchConfigWrite (port : PortIx) (val : Word) (s : State) : Host.Outcome State Fault Refusal :=
  live s fun s => if s.portOn port then s.onPort port fun p => p.writePrefetchCfg val else s

/-! ## INV (R410, R414) -/

/-- The sectors of an INV: one on protocol 3.0, NSEC + 1 on 3.1. -/
def Port.invRange (p : Port) (addr : GAddr) (nsec : Word) : Nat × Nat :=
  (addr.toNat / 512, addr.toNat / 512 + (if p.version = 0x31 then nsec.toNat else 0))

/-- INV (R410): the sectors of the range are invalidated and counted. -/
def Port.invIn (p : Port) (tag : BitVec 12) (addr : GAddr) (nsec : Word) : Port :=
  let (lo, hi) := p.invRange addr nsec
  let hit : Nat → StreamNo → Bool := fun a _ => lo ≤ a && a ≤ hi
  let n := (p.cache.filter fun x => hit x.addr x.stream).length
  { (p.count Reg.GL_RCINV_COUNT n).invalidate hit with invs := p.invs ++ [(tag, lo, hi)] }

def execInv (port : PortIx) (tag : BitVec 12) (addr : GAddr) (nsec : BitVec 32) (s : State) :
    Host.Outcome State Fault Refusal :=
  live s fun s =>
    if fld (s.steward.reg Reg.ST_BOOT) 0 2 = 3 then s
    else s.onPort port fun p => if p.mode == .up && nsec.toNat < 65536 then p.invIn tag addr nsec else p

/-- INVACK (R410): once no sector of the range is valid and no fill in flight for it can still be installed. -/
def State.invack (s : State) (ix : PortIx) (tag : BitVec 12) : State :=
  let p := s.port ix
  match p.invs.find? fun e : BitVec 12 × Nat × Nat => e.1 = tag with
  | none => s
  | some e =>
    let hit : Nat → Bool := fun a => e.2.1 ≤ a && a ≤ e.2.2
    if (p.cache.any fun x => hit x.addr) || p.reqs.any fun r => r.fill && r.install && hit (r.addr / 512) then s
    else (s.setPort ix { p with invs := p.invs.erase e }).portSend ix (.invack ix tag)

def execInvack (port : PortIx) (tag : BitVec 12) (s : State) : Host.Outcome State Fault Refusal :=
  live s fun s => s.invack port tag

/-- The end of a stream at a port (R414, R417): its sectors and prefetchers go. -/
def Port.streamEnd (p : Port) (st : StreamNo) : Port :=
  let p := p.invalidate fun _ x => x = st
  let p := { p with history := p.history.filter fun h : Site × StreamNo × List Nat => h.2.1 ≠ st }
  (List.range 16).foldl (fun p n => match p.prefetcher n with
    | some x => if x.stream = st then p.setPrefetcher n none else p
    | none => p) p

/-! ## Incoming requests (R403, R419, R420) -/

/-- Tags for the parts of an incoming request that no other uses. -/
def Port.partTags (p : Port) (n : Nat) : List (BitVec 12) :=
  (((List.range 4096).map (BitVec.ofNat 12)).filter fun t => !p.incoming.any fun r => r.left.contains t).take n

/-- The rows a range of bytes touches: address and length of each part. -/
def rowParts (addr len : Nat) : List (Nat × Nat) := (reachPieces addr len).map fun g => (addr + g.1, g.2)

/-- The beats of an answer that hold a byte of a poisoned part (R373). -/
def beatsBad (parts : List (List Byte × Bool)) : List Bool :=
  let flags := parts.flatMap fun e => List.replicate e.1.length e.2
  (List.range ((flags.length + 127) / 128)).map fun k => ((flags.drop (128 * k)).take 128).any id

/-- The answer to a request that is complete (R419). -/
def State.answerIn (s : State) (ix : PortIx) (r : InReq) : State :=
  if r.write then s.portSend ix (.wrack ix r.tag r.orig r.status)
  else
    let parts := if r.status = 0 then r.order.filterMap fun t => (r.parts.find? fun e => e.1 = t).map (·.2) else []
    s.portSend ix (.rdrsp ix r.tag r.orig r.status (parts.flatMap (·.1)) (beatsBad parts))

/-- A part answered (R419). -/
def State.partIn (s : State) (ix : PortIx) (rtag : BitVec 12) (status : BitVec 3) (data : List Byte) (poison : Bool) : State :=
  let p := s.port ix
  match p.incoming.find? fun r => r.left.contains rtag with
  | none => s
  | some r =>
    let x := { r with left := r.left.erase rtag, status := if r.status.toNat < status.toNat then status else r.status
                      parts := r.parts ++ [(rtag, data, poison)] }
    if x.left.isEmpty then ((s.setPort ix { p with incoming := p.incoming.erase r }).answerIn ix x).sendIdles ix
    else s.setPort ix { p with incoming := p.incoming.map fun y => if y = r then x else y }

/-- An incoming read or write of `len` bytes (R419): one part for each row it touches; UNMAPPED where R403 leaves a byte unmapped;
REFUSED for a site that is fenced. -/
def State.incoming (s : State) (ix : PortIx) (tag : BitVec 12) (addr : GAddr) (len : Nat) (orig write : Bool) (data : List Byte)
    (bad : List Bool) : State :=
  let p := s.port ix
  let base : InReq := { tag := tag, orig := orig, write := write, order := [], left := [], status := 0, parts := [] }
  if p.mode != .up || fld (s.steward.reg Reg.ST_BOOT) 0 2 = 3 || 256 ≤ p.incoming.length then s
  else match s.steward.ownSite addr.toNat len with
    | none => s.answerIn ix { base with status := 3 }
    | some n =>
      if s.steward.off (s.steward.darned n).val then s.answerIn ix { base with status := 1 }
      else
        let parts := rowParts addr.toNat len
        let tags := p.partTags parts.length
        let p := { p with incoming := p.incoming ++ [{ base with order := tags, left := tags }] }
        s.setPort ix ((parts.zip tags).foldl (fun (p : Port) (e : (Nat × Nat) × BitVec 12) =>
          let h : ReachHdr := { rtag := e.2, addr := BitVec.ofNat 60 e.1.1, len := BitVec.ofNat 9 (e.1.2 - 1), stream := 0
                                sv := false, orig := orig }
          if write then
            p.post ix (.site n) 6 (1 + reachFlits e.1.1 e.1.2) (.rwr h (sliceBytes data (e.1.1 - addr.toNat) e.1.2)
              (beatsHit bad (e.1.1 - addr.toNat) e.1.2))
          else p.post ix (.site n) 6 1 (.rrd h)) p)

def execIncomingRd (port : PortIx) (tag : BitVec 12) (addr : GAddr) (len : BitVec 10) (orig : Bool) (s : State) :
    Host.Outcome State Fault Refusal :=
  live s fun s => s.incoming port tag addr (len.toNat + 1) orig false [] []

def execIncomingWr (port : PortIx) (tag : BitVec 12) (addr : GAddr) (orig : Bool) (data : List Byte) (bad : List Bool) (s : State) :
    Host.Outcome State Fault Refusal :=
  live s fun s => if data.isEmpty then s else s.incoming port tag addr data.length orig true data bad

def execRrsp (port : PortIx) (rtag : BitVec 12) (status : BitVec 3) (data : List Byte) (poison : Bool) (s : State) :
    Host.Outcome State Fault Refusal :=
  live s fun s => s.receive (fun p => p.dst = .port port && p.body = .rrsp rtag status data poison) fun s => s.partIn port rtag status data poison

/-! ## Incoming requests at the tile (R246, R247, R249) -/

/-- An open window admits the rows of an access (R247, R255). -/
def windowAdmits (w : Word) (row : Nat) (orig write : Bool) : Bool :=
  bitOf w 31 && bitOf w (if write then 28 else 29) && bitOf w 30 == orig && !windowEmpty w &&
    fld w 0 12 ≤ row && row < fld w 0 12 + fld w 12 13

/-- A remote access is admitted (R246, R247). -/
def Tile.admits (t : Tile) (row : Nat) (orig write : Bool) : Bool :=
  bitOf (t.act 3 56) 0 && (List.range 16).any fun n => windowAdmits (t.act 3 (89 + n)) row orig write

/-- The answer of a tile to an RRD or RWR (R407). -/
def rrspPkt (me : Site) (port : PortIx) (h : ReachHdr) (status : BitVec 3) (data : List Byte) (poison : Bool) : Pkt :=
  let n := if data.isEmpty then 0 else reachFlits h.addr.toNat (h.len.toNat + 1)
  { src := .tile me, dst := .port port, cls := 1, flits := 1 + n, body := .rrsp h.rtag status data poison
    hdr := some { h with orig := false } }

/-- The answer of a tile to an RRD or RWR sent (R407). -/
def Tile.rrsp (t : Tile) (me : Site) (port : PortIx) (h : ReachHdr) (status : BitVec 3) (data : List Byte) (poison : Bool) : Tile :=
  t.post (rrspPkt me port h status data poison)

/-- A tile checks a remote access once (R249): refused, or `go` performs it. -/
def State.remote (s : State) (site : Site) (port : PortIx) (h : ReachHdr) (write : Bool) (go : Nat → Nat → Tile → Tile) : State :=
  let t := s.tile site
  let row := h.addr.toNat / 512 % 4096
  if s.steward.site site.val ≠ 1 || t.asleep || t.hemmed then s.setTile site (t.rrsp site port h 1 [] false)
  else if !t.admits row h.orig write then
    s.setTile site (((t.flagBit Reg.SP_ERR 6).count Reg.SP_WINREF_COUNT 1).rrsp site port h 1 [] false)
  else s.setTile site (go row (h.addr.toNat % 512) t)

/-- RRD (R249, R419): the bytes of the row; a gated bank's come poisoned (R252). -/
def execRrd (site : Site) (port : PortIx) (h : ReachHdr) (ph : Phys) (s : State) : Host.Outcome State Fault Refusal :=
  live s fun s => if s.bankTested site (h.addr.toNat / 512 % 4096) then s else
    s.receive (fun p => p.dst = .site site && p.src = .port port && p.body = .rrd h) fun s => s.remote site port h false fun row off t =>
      let r := (t.phys ph).readRow site row
      let t := if r.gated then r.tile.err 1 else r.tile
      t.rrsp site port h 0 (sliceBytes r.bytes off (h.len.toNat + 1)) !r.poisoned.isEmpty

/-- RWR (R239, R249, R408, R419): the bytes written under a byte mask; the answer goes out once they are. -/
def execRwr (site : Site) (port : PortIx) (h : ReachHdr) (data : List Byte) (poison : Bool) (s : State) :
    Host.Outcome State Fault Refusal :=
  live s fun s => if s.bankTested site (h.addr.toNat / 512 % 4096) then s else
    s.receive (fun p => p.dst = .site site && p.src = .port port && p.body = .rwr h data poison) fun s => s.remote site port h true fun row off t =>
      t.applyWrite site { eng := 3, row := row, off := off, data := sliceBytes data 0 (h.len.toNat + 1), poison := poison
                          reply := some (rrspPkt site port h 0 [] false) }

end Sys2Proof.Machine
end

