-- ==== Sys2Proof/Machine/Steward.lean ====
section
/-! DEFINITION. What the steward and the loom share: control messages from the attachments (R353, R457), stitches as the steward
runs them (R306, R307), changes of site states (R30, R33, R351), and the clear of a released tile (R443). -/

namespace Sys2Proof.Machine

/-! ## Messages (R306, R353, R457) -/

/-- A control message from the attachment of a site's field to the site. -/
def Steward.tell (x : Steward) (dst : Site) (m : CtrlMsg) : Steward :=
  { x with outq := x.outq ++
    [{ src := .attach (fieldNo dst), dst := .site dst, cls := 0, flits := 1, body := .ctrl m }] }

/-- The rectangle of a reticle field (R17). -/
def fieldRect (a : FieldNo) : Nat × Nat × Nat × Nat :=
  (24 * (a.val % 2), 24 * (a.val % 2) + 23, if a.val < 2 then 0 else 25, if a.val < 2 then 24 else 49)

/-- A control message to every site, by one multicast of each field. -/
def Steward.tellAll (x : Steward) (m : CtrlMsg) : Steward :=
  { x with outq := x.outq ++ (List.finRange 4).map fun a =>
    ({ src := .attach a, dst := .rects [fieldRect a], cls := 0, flits := 1, body := .ctrl m } : Pkt) }

/-! ## Stitches (R306, R307) -/

def Steward.stitch? (x : Steward) (num : BitVec 16) : Option Stitch := x.stitches.find? fun k => k.num = num

def Steward.dropStitch (x : Steward) (num : BitVec 16) : Steward :=
  { x with stitches := x.stitches.filter fun k => k.num ≠ num }

def Steward.setStitch (x : Steward) (k : Stitch) : Steward :=
  { x with stitches := x.stitches.map fun y => if y.num = k.num then k else y }

/-- OPEN to every participant; the stitch is open until it has switched, failed or been aborted. -/
def Steward.openStitch (x : Steward) (k : Stitch) : Steward :=
  k.sites.foldl (fun x n => x.tell n (.openStitch k.num k.new)) { x with stitches := x.stitches ++ [k] }

/-- ABORT to every participant of a stitch not yet committed. -/
def Steward.abortStitch (x : Steward) (k : Stitch) : Steward :=
  if k.committed then x else k.sites.foldl (fun x n => x.tell n (.abort k.num)) (x.dropStitch k.num)

/-- COMMIT to every participant. -/
def Steward.commitStitch (x : Steward) (k : Stitch) : Steward :=
  k.sites.foldl (fun x n => x.tell n (.commit k.num)) (x.setStitch { k with committed := true })

/-- A number that is open; 0xFFFF is the steward's own while a darning is (R438, R467). -/
def Steward.numberOpen (x : Steward) (num : BitVec 16) : Bool := (x.stitch? num).isSome || (num == 0xFFFF && x.darning.isSome)

/-! ## Site states (R25, R30, R33, R351) -/

/-- A router that has gone off: every flit it holds is lost, and its neighbours send no more to it (R352). -/
def State.routerOff (s : State) (n : Site) : State :=
  let s := s.onTile n fun t => { t with outq := [], router := { RouterSt.reset with released := s.steward.mapChanges } }
  let s := [0, 1, 2, 3].foldl (fun s side => match stepSide n side with
    | some m => s.onTile m fun t => t.cutOutput m ((side + 2) % 4)
    | none => s) s
  let s := { s with net := s.net.filter fun p => !(p.whole && p.dst.site? == some n) }
  match allPorts.find? fun p => siteOfPort p = n with
  | some p => s.portDown p
  | none => s

/-- A router that comes up as its site leaves the fenced state: its buckets, caps, errors and counters are as after a reset (R356,
R366). -/
def State.routerUp (s : State) (n : Site) : State :=
  let fresh : Map Bucket := (List.range 8).foldl (fun m c => Map.set noBucket m c { level := 0, at' := s.periods }) []
  let s := s.onTile n fun t =>
    { t.resetRegs ([Reg.WF_LINKCAP, Reg.WF_ERR, Reg.WF_RETRY_COUNT, Reg.WF_DROP_COUNT, Reg.WF_OVER_COUNT] ++
        (List.range 8).flatMap fun c => [Reg.WF_BKT + 4 * c, Reg.WF_PBKT + 4 * c]) with
      buckets := fresh, router := { RouterSt.reset with released := s.steward.mapChanges } }
  match allPorts.find? fun p => siteOfPort p = n with
  | some p => s.onPort p fun x => { x with buckets := fresh }
  | none => s

/-- A stitch commit that changes site states: one generation of the site states and of the fault map, if any state changes. -/
def State.applySites (s : State) (l : List (Site × BitVec 2)) : State :=
  let l := l.filter fun e => s.steward.site e.1.val ≠ e.2
  if l.isEmpty then s
  else
    let up := l.filter fun e => s.steward.site e.1.val = 0
    let s := s.onSteward fun x =>
      let y := l.foldl (fun y e => y.setSite e.1.val e.2) x
      let gen := x.reg Reg.ST_SITE_GEN + 1
      { y with oldSites := x.siteState, mapChanges := x.mapChanges + 1, fmapGen := gen }.setReg Reg.ST_SITE_GEN gen
    up.foldl (fun s e => s.routerUp e.1) ((l.filter fun e => e.2 = 0).foldl (fun s e => s.routerOff e.1) s)

/-- The state that a hemmed site takes at its commit (R461). -/
def hemState (n : Site) (kind : Nat) : BitVec 2 := if kind = 0 && isPortSite n.val then 3 else 0

/-! ## The darn map and redirects (R469, R470, R480) -/

def noDarn : Nat → Nat × Nat × Bool := fun _ => (0, 0, false)

/-- The halves of WF_WREDIR of a tile, by side. -/
def wredirReg (side : Nat) : Nat := if side < 2 then Reg.WF_WREDIR0 else Reg.WF_WREDIR1

def Tile.wredir (t : Tile) (side : Nat) : Nat := fld (t.reg (wredirReg side)) (16 * (side % 2)) 16

def Tile.setWredir (t : Tile) (side v : Nat) : Tile :=
  t.setReg (wredirReg side) (setFld (t.reg (wredirReg side)) (16 * (side % 2)) 16 v)

/-- A remap that releases a darned site clears its entry of the darn map and the redirects that named it (R480). -/
def State.clearDarn (s : State) (f : Site) : State :=
  let s := s.onSteward fun x =>
    { x with darnMap := x.darnMap.filter fun e : Nat × Nat × Nat × Bool => e.2.1 ≠ f.val && e.2.2.1 ≠ f.val }
  s.onTiles ((s.tiles.filterMap fun e => if h : e.1 < 2400 then some ⟨e.1, h⟩ else none)) fun _ t =>
    [0, 1, 2, 3].foldl (fun t i => if t.wredir i = 0x8000 + f.val then t.setWredir i 0 else t) t

/-! ## Ports (R430, R482) -/

/-- A port that is UP with a group of its M stripe in service. -/
def Port.carries (p : Port) : Bool := p.mode == .up && !(p.ownStripe 0).isEmpty

/-- The nearest port to a port tile that carries reach requests: same field first, then the smallest distance, then the lowest
index (R482). -/
def State.nearestPort (s : State) (p : PortIx) : Option PortIx :=
  let me := (siteOfPort p).val
  let key := fun q : PortIx => (if fieldOf (siteOfPort q).val = fieldOf me then 0 else 1000) + siteDist me (siteOfPort q).val
  (allPorts.filter fun q => q ≠ p && (s.port q).carries).foldl (fun b q =>
    match b with
    | some c => if key q < key c then some q else b
    | none => some q) none

/-! ## The clear of a tile (R209, R443) -/

/-- The loom's record of a site as it stands unclaimed. -/
def State.unclaim (s : State) (n : Site) : State := s.setLoomSite n LoomSite.reset

/-- The buckets of a claim at their reset values, where its tile is released; sleep leaves them (R366, R443). -/
def State.resetClaimBuckets (s : State) (n : Site) : State :=
  if (s.tile n).sleeping then s
  else ([1, 2].foldl (fun s c => s.settleBucket (.tile n) c) s).onTile n fun t => t.resetRegs [Reg.WF_BKT + 4, Reg.WF_BKT + 8]

/-- The scratchpad zeroed but for its gated banks (R253, R254), the void pattern in groups 0 to 6, instruction memory zero, the
claim's registers at their reset values, and no freeze (R443). Writes held for a bank's wake end, since an admitted access completes
(R249, R419). -/
def State.endScrub (s : State) (n : Site) : State :=
  let e := s.env n
  let s := s.resetClaimBuckets n
  s.onTile n fun t =>
    let lost := (List.range 16).filter fun b => t.gated b
    let t := t.sp.held.foldl (fun t h => t.writeEnds n h) t
    let t := t.onSp fun x =>
      { x with mem := x.mem.filter fun c => lost.contains (bankOf (c.1 / 512))
               poison := x.poison.filter fun c => lost.contains (bankOf c.1)
               bad := x.bad.filter fun c => lost.contains (bankOf (c.1 / 64))
               writeback := [], spools := [], inX := [], arrived := [], held := [] }
    let t := (List.range 7).foldl (fun t g => t.voidGroup e g false) t
    let t := { t with core := { t.core with imem := [] }, stitch := StitchSt.reset, freeze := FreezeSt.reset
                      firings := [], helds := [], spillOrder := [], errCounts := [0, 0, 0, 0, 0, 0], scrubbing := false }
    let t := t.resetRegs [Reg.TC_WV_ERR, Reg.TC_WVDROP_COUNT, Reg.TC_STREAM, Reg.LA_SR_SEED, Reg.LA_SR_ADV]
    t.setReg Reg.TC_SCAN_CTL (setFld (t.reg Reg.TC_SCAN_CTL) 31 1 0)

/-- A slice is in progress at a site (R491). -/
def State.inSlice (s : State) (n : Site) : Bool :=
  match s.steward.slice with
  | some x => x.site == n
  | none => false

/-! ## Set points (R538, R544, R555) -/

def Steward.vset (x : Steward) (f : FieldNo) : Word := x.reg (Reg.ST_VSET + 4 * f.val)

/-- A code driven on a field's VID wires, and VREQ toggled; the request stands until VACK answers (R538). -/
def State.vidRequest (s : State) (f : FieldNo) (code : Nat) : State :=
  let c : BitVec 6 := BitVec.ofNat 6 code
  let x := s.steward
  let level := !(x.vreq.getD f.val false)
  (s.onSteward fun x => { x with vreq := x.vreq.set f.val level, vidReq := x.vidReq.set f.val (some c)
                                 vidDefer := x.vidDefer.set f.val none }).send [.vid f c level]

/-- A request of the field is outstanding. -/
def Steward.vidBusy (x : Steward) (f : FieldNo) : Bool := (x.vidReq.getD f.val none).isSome

/-- The next code on the way from one in force to another, at most 10 steps in a request (R538). -/
def codeToward (now goal : Nat) : Nat := if now < goal then min goal (now + 10) else max goal (now - 10)

/-- With AVSEN = 0 the code moves to VID_FIXED (R538, R544). -/
def State.vidFixed (s : State) (f : FieldNo) : State :=
  let w := s.steward.vset f
  let now := fld w 0 6
  let goal := fld w 8 6
  if bitOf w 31 || s.steward.vidBusy f || now = goal then s
  else s.vidRequest f (codeToward now goal)

/-- The codes of a test that are still to be reached. -/
def codesLeft (now : Nat) : List Nat → List Nat
  | [] => []
  | g :: l => if g = now then codesLeft now l else g :: l

/-- The next request of a field: toward the next code of the shutdown test, or else as ST_VSET has it (R544). -/
def State.vidSteer (s : State) (f : FieldNo) : State :=
  if s.steward.vidBusy f then s
  else
    let now := fld (s.steward.vset f) 0 6
    let plan := codesLeft now (s.steward.vidPlan.getD f.val [])
    let s := s.onSteward fun x => { x with vidPlan := x.vidPlan.set f.val plan }
    match plan with
    | [] => s.vidFixed f
    | g :: _ => s.vidRequest f (codeToward now g)

/-- The code that a field returns to after the shutdown test's: the last one planned, requested or in force. -/
def Steward.restCode (x : Steward) (f : FieldNo) : Nat :=
  match (x.vidPlan.getD f.val []).getLast?, x.vidReq.getD f.val none with
  | some c, _ => c
  | none, some c => c.toNat
  | none, none => fld (x.vset f) 0 6

/-- The shutdown test's codes in every field, and back to the loop's (R501, R544). -/
def State.testCodes (s : State) : State :=
  (List.finRange 4).foldl (fun s f =>
    (s.onSteward fun x => { x with vidPlan := x.vidPlan.set f.val [0, 20, 40, x.restCode f] }).vidSteer f) s

/-- The site of a slice that is in its test step (R491). -/
def State.testing (s : State) : Option Site :=
  match s.steward.slice with
  | some x => if x.step == .testing then some x.site else none
  | none => none

/-- The requests that waited for a test step to end; with AVSEN = 0 there is none (R544). -/
def State.vidRelease (s : State) : State :=
  (List.finRange 4).foldl (fun s f => match s.steward.vidDefer.getD f.val none with
    | some c =>
      if !bitOf (s.steward.vset f) 31 then s.onSteward fun x => { x with vidDefer := x.vidDefer.set f.val none }
      else if s.steward.vidBusy f then s else s.vidRequest f c.toNat
    | none => s) s

/-- A sleeping tile begins to wake (R477). -/
def Tile.startWake (t : Tile) : Tile := if t.asleep then { t with waking := true } else t

end Sys2Proof.Machine
end

