-- ==== Sys2Proof/Machine/Loom.lean ====
section
/-! DEFINITION. The loom (R429 to R456): stream messages, rings, descriptors, claims and releases, tokens, errors, halt, kill. -/

namespace Sys2Proof.Machine

/-! ## Sending (R430) -/

/-- The loom port of a stream: the first UP port of 41, 42, 53, 54 from position s mod 4 on. -/
def State.loomPort (s : State) (n : StreamNo) : Option PortIx := s.attUp n.val

/-- A message or request of the loom's leaves through the stream's port. -/
def State.loomSend (s : State) (n : StreamNo) (mk : Option PortIx → Out) : State :=
  match s.loomPort n with
  | some p => s.portSend p (mk (some p))
  | none => s.send [mk none]

/-- A read, or a write, of a stream's that the loom has sent. -/
def Out.loomOf (n : StreamNo) (write : Bool) : Out → Bool
  | .loomRd _ m _ _ => !write && m == n
  | .loomWr _ m _ _ => write && m == n
  | _ => false

/-- The answer to a request of the loom's has come: its port no longer holds it (R386). -/
def State.loomDone (s : State) (n : StreamNo) (write : Bool) : State :=
  match ([41, 42, 53, 54] : List PortIx).find? fun p => (s.port p).loomReqs.any fun e => e.2.loomOf n write with
  | some p => s.ownDone p (Out.loomOf n write)
  | none => s

/-! ## Contexts (R429, R433) -/

/-- The code of a stream's state (R429). -/
def StreamMode.code : StreamMode → Nat
  | .idle => 0 | .running => 1 | .halted => 2 | .ending => 3 | .killing => 4

/-- The index of the descriptor in progress, or of the next one. -/
def Ctx.next (c : Ctx) : Word := c.cidx + BitVec.ofNat 32 (c.completes.filter fun w => !w.stale).length

/-- A running stream that waits for nothing and has a descriptor to work on. -/
def Ctx.work (c : Ctx) : Bool := c.mode == .running && c.park == .none && (c.desc.isSome || c.next != c.pidx)

/-- STATE (R431): the new state, the cause, the class and the descriptor index. -/
def State.tellState (s : State) (n : StreamNo) (cause cls : Nat) : State :=
  let c := s.ctx n
  s.loomSend n fun p => .msg p 0x11 n (BitVec.ofNat 32 c.mode.code)
    (BitVec.ofNat 64 (cause ||| cls <<< 8 ||| c.next.toNat <<< 32)) 0

/-- The sites that a stream has claimed. -/
def State.claimed (s : State) (n : StreamNo) : List Site :=
  s.loom.sites.filterMap fun e => if h : e.1 < 2400 then (if e.2.stream = some n then some ⟨e.1, h⟩ else none) else none

/-- A stream with work joins the ready streams at their back (R446). -/
def State.ready (s : State) (n : StreamNo) : State :=
  if (s.ctx n).work && !s.loom.ready.contains n then { s with loom := { s.loom with ready := s.loom.ready ++ [n] } } else s

def State.unready (s : State) (n : StreamNo) : State := { s with loom := { s.loom with ready := s.loom.ready.erase n } }

/-- What a stream waits for has come (R446). -/
def State.wakeStream (s : State) (n : StreamNo) : State := (s.onCtx n fun c => { c with park := .none }).ready n

/-- Every stream that waits for one thing becomes ready. -/
def State.wakeAll (s : State) (p : Park) : State :=
  s.loom.ctxs.foldl (fun s e => if h : e.1 < 16384 then
    (if (s.ctx ⟨e.1, h⟩).park == p then s.wakeStream ⟨e.1, h⟩ else s) else s) s

/-! ## Errors and halts (R447, R449) -/

/-- A running stream halts: its tiles freeze, and STATE HALTED goes out (R449, R436, R479). -/
def State.haltStream (s : State) (n : StreamNo) (cause cls : Nat) : State :=
  if (s.ctx n).mode != .running then s
  else
    let s := s.onTiles (s.claimed n) fun _ t => ({ t with freeze := { t.freeze with halt := true } } : Tile).applyFreeze
    ((s.onCtx n fun c => { c with mode := .halted }).unready n).tellState n cause cls

/-- Errors of a class added to a context (R447). -/
def Ctx.addErrs (c : Ctx) (cls k : Nat) : Ctx :=
  if k = 0 || c.mode == .idle then c else { c with errs := min 0xFFFF (c.errs + k), lastCls := cls }

/-- One error raised to a stream's policy (R447, R449). -/
def State.streamErr (s : State) (n : StreamNo) (cls : Nat) : State :=
  let s := s.onCtx n fun c => c.addErrs cls 1
  if (s.ctx n).policy then s.haltStream n 4 cls else s

/-! ## Descriptors (R437 to R441) -/

def Desc.num (d : Desc) (o n : Nat) : Nat := numAt d.bytes o n

def Desc.op (d : Desc) : Nat := fld (wordAt d.bytes 0) 24 4

/-- Zero bytes of a descriptor. -/
def Desc.zeros (d : Desc) (o n : Nat) : Bool := d.num o n == 0

/-- Address and length of the list that a descriptor reads: of a STITCH, its site list and then its image. -/
def Desc.listAt (d : Desc) : Nat × Nat :=
  if d.op = 4 && (d.stage == .image || d.stage == .awaits) then (d.num 24 8, d.num 32 4)
  else if d.op = 5 then (d.num 8 8, 16 * d.num 16 4)
  else (d.num 8 8, 2 * d.num 16 2)

/-- Bytes of a list handled. -/
def Desc.took (d : Desc) (k : Nat) : Desc := { d with list := d.list.drop k, pos := d.pos + k }

/-- A site of the die by its index. -/
def siteOf (n : Nat) : Option Site := if h : n < 2400 then some ⟨n, h⟩ else none

/-- A byte range of memory that passes no end of the address space. -/
def rangeOk (a n : Nat) : Bool := a + n ≤ 2 ^ 60

/-- SITE, UNIT and QB of a TOKENS or SLICE that the spec allows (R437, R440). -/
def Desc.targetOk (d : Desc) : Bool :=
  let u := d.num 6 1
  let q := d.num 7 1
  d.num 4 2 < 2400 && (u < 5 || (8 ≤ u && u < 12)) && (q == 0 || (q == 4 && u < 5))

/-- Element index of chunk `k` of a SLICE (R439). -/
def Desc.chunk (d : Desc) (k : Nat) : Nat := d.num 24 6 + k * d.num 32 6

def Desc.fmt (d : Desc) : Nat := d.num 20 1 % 16

/-- Element and scale addresses of a chunk (R439). -/
def Desc.chunkAddr (d : Desc) (k : Nat) : Nat := d.num 8 8 + d.chunk k * fmtBits d.fmt / 8
def Desc.chunkScale (d : Desc) (k : Nat) : Nat := d.num 40 8 + d.chunk k / 32

/-- A SLICE checked over its last chunk (R440). -/
def Desc.sliceOk (d : Desc) : Bool :=
  let n := d.num 16 4
  d.targetOk && d.num 8 8 < 2 ^ 60 && 1 ≤ n && n ≤ 2 ^ 20 && 1 ≤ d.fmt && d.fmt ≤ 9 && d.zeros 21 3 && d.zeros 30 2 && d.zeros 38 2 &&
    d.zeros 48 8 && d.chunk (n - 1) < 2 ^ 48 && d.chunkAddr (n - 1) < 2 ^ 60 &&
    (!fmtMx d.fmt || (d.num 7 1 == 0 && d.num 24 6 % 32 == 0 && d.num 32 6 % 32 == 0 && d.num 40 8 < 2 ^ 60 &&
      d.chunkScale (n - 1) < 2 ^ 60))

/-- A CLAIM, RELEASE or STITCH list of sites. -/
def Desc.sitesOk (d : Desc) : Bool := d.zeros 4 4 && rangeOk (d.num 8 8) (2 * d.num 16 2) && 1 ≤ d.num 16 2 && d.num 16 2 ≤ 2400

/-- The fields of a descriptor are what R437 and R440 allow. -/
def Desc.formOk (d : Desc) : Bool :=
  let w := wordAt d.bytes 0
  fld w 28 4 == 3 && fld w 16 7 == 0 && fld w 0 8 == 0 &&
    match d.op with
    | 1 => d.zeros 4 52
    | 2 => d.sitesOk && d.zeros 18 38
    | 3 => d.sitesOk && d.zeros 18 38
    | 4 => d.sitesOk && d.num 18 2 != 0 && d.num 20 1 < 16 && d.zeros 21 3 && rangeOk (d.num 24 8) (d.num 32 4) &&
        d.num 32 4 % 4 == 0 && 8 ≤ d.num 32 4 && d.num 32 4 ≤ 2 ^ 26 && d.zeros 36 20
    | 5 => d.targetOk && 1 ≤ d.num 16 4 && d.num 16 4 ≤ 2 ^ 20 && rangeOk (d.num 8 8) (16 * d.num 16 4) && d.zeros 20 36
    | 6 => d.sliceOk
    | 7 => d.zeros 12 44
    | 8 => d.zeros 4 52
    | _ => false

/-- The site that a TOKENS or SLICE sends to, under the darn map. -/
def State.descSite (s : State) (d : Desc) : Option Site := (siteOf (d.num 4 2)).map s.steward.darned

/-- The site of a TOKENS or SLICE is claimed by the stream, and its UNIT and QB are those fixed for the site (R440, R444). -/
def State.targetHeld (s : State) (n : StreamNo) (d : Desc) : Bool :=
  match s.descSite d with
  | some t =>
    let x := s.loomSite t
    x.stream == some n && (x.target == none || x.target == some (d.num 6 1, d.num 7 1))
  | none => false

/-- A malformed descriptor, as far as its 64 bytes show (R440). -/
def State.descBad (s : State) (n : StreamNo) (d : Desc) : Bool :=
  !d.formOk || ((d.op == 5 || d.op == 6) && !s.targetHeld n d)

/-! ## Completion (R435, R441, R447, R451) -/

/-- The status word of a descriptor (R441). -/
def statusWord (status errs info : Nat) : BitVec 64 :=
  BitVec.ofNat 64 (2 ^ 63 ||| status <<< 48 ||| errs <<< 32 ||| info % 2 ^ 32)

/-- A descriptor completes: its status word is written into its slot; one that is neither OK nor ABORTED is a DESC error, and a
strict stream halts after the write-back. -/
def State.complete (s : State) (n : StreamNo) (d : Desc) (status info : Nat) : State :=
  let c := s.ctx n
  let w := statusWord status c.errs info
  let w0 := wordAt d.bytes 0
  let s := s.loomSend n fun p => .loomWr p n (c.ring + 64 * (d.index.toNat % 2 ^ c.rlog) + 56) (leBytes 8 w.toNat)
  s.onCtx n fun c =>
    let c := { c with desc := none, completes := c.completes ++
      [{ index := d.index, word := w, notify := bitOf w0 23, vec := BitVec.ofNat 8 (fld w0 8 8), stale := false }] }
    if status = 0 || status = 6 then c
    else
      let c := c.addErrs 3 1
      if c.policy then { c with park := .writeback } else c

/-- The part of a list that is read next: at most 512 B, ending at a 512 B boundary (R445). -/
def State.readMore (s : State) (n : StreamNo) (d : Desc) : State :=
  let (a, len) := d.listAt
  let got := d.pos + d.list.length
  let k := min (len - got) (512 - (a + got) % 512)
  (s.onCtx n fun c => { c with desc := some { d with want := k }, park := .list }).loomSend n fun p => .loomRd p n (a + got) k

def State.keep (s : State) (n : StreamNo) (d : Desc) : State := s.onCtx n fun c => { c with desc := some d }

def State.parkOn (s : State) (n : StreamNo) (d : Desc) (p : Park) : State := s.onCtx n fun c => { c with desc := some d, park := p }

/-! ## CLAIM and RELEASE (R442, R443) -/

/-- A site is claimed for a stream (R442). -/
def State.claimSite (s : State) (n : StreamNo) (site : Site) : State :=
  let c := s.ctx n
  let s := [1, 2].foldl (fun s k => s.settleBucket (.tile site) k) s
  let s := s.onTile site fun t =>
    let t := t.setReg Reg.TC_STREAM (0x80000000 ||| flag32 c.policy 16 ||| at32 n.val 0)
    let t := (t.setReg Reg.LA_SR_SEED c.seed).setReg Reg.LA_SR_ADV c.adv
    let t := (t.setReg (Reg.WF_BKT + 4) c.srate).setReg (Reg.WF_BKT + 8) c.brate
    { t with la := { t.la with draws := 0 }, errCounts := [0, 0, 0, 0, 0, 0] }
  s.setLoomSite site { stream := some n, credits := [16, 16, 16, 16], target := none, noTokens := false }

/-- A site that is being released (R443). -/
def State.releasing (s : State) (site : Site) : Bool := s.loom.ctxs.any fun e => e.2.releases.contains site

/-- A site that a CLAIM may take (R442, R443). -/
def State.free (s : State) (site : Site) : Bool :=
  s.steward.site site.val == 1 && (s.loomSite site).stream.isNone && !(s.tile site).scrubbing && !s.releasing site

/-- Up to a number of entries of a CLAIM; a sleeping tile is woken first, and its entry handled after the wake (R477). -/
def State.claimLoop (n : StreamNo) : Nat → State → Desc → State × Desc
  | 0, s, d => (s, d)
  | k + 1, s, d =>
    if d.list.length < 2 then (s, d)
    else match siteOf (numAt d.list 0 2) with
      | none => State.claimLoop n k s { d.took 2 with partialC := true }
      | some site =>
        if (s.loomSite site).stream = some n then State.claimLoop n k s { d.took 2 with count := d.count + 1 }
        else if !s.free site then State.claimLoop n k s { d.took 2 with partialC := true }
        else if (s.tile site).asleep then ((s.onTile site Tile.startWake).onCtx n fun c => { c with park := .wake }, d)
        else State.claimLoop n k (s.claimSite n site) { d.took 2 with count := d.count + 1 }

/-- A list of which a step has handled a part: more of it is read, or the next step goes on. -/
def State.goOn (s : State) (n : StreamNo) (d : Desc) (size : Nat) : State :=
  if (s.ctx n).park != .none then s.keep n d else if d.list.length < size then s.readMore n d else s.keep n d

def State.stepClaim (s : State) (n : StreamNo) (d : Desc) : State :=
  let (s, d) := State.claimLoop n 64 s d
  if d.pos = 2 * d.num 16 2 then s.complete n d (if d.partialC then 2 else 0) d.count else s.goOn n d 2

/-- A site that a stream gives up: no longer claimed, and waited for until it is clear (R443). -/
def State.letGo (s : State) (n : StreamNo) (site : Site) : State :=
  (s.unclaim site).onCtx n fun c => { c with releases := c.releases ++ [site] }

/-- A site that a RELEASE names is cleared (R443). -/
def State.startRelease (s : State) (n : StreamNo) (site : Site) : State := (s.letGo n site).startScrub site

/-- A RELEASE whose list has not been handled to its end. -/
def Ctx.listing (c : Ctx) : Bool := c.desc.any fun d => d.op == 3 && d.stage != .awaits

/-- The hemmed sites that one RELEASE, END or KILL frees change their states in one commit, once the last of them is clear (R30, R480). -/
def State.commitReleased (s : State) (n : StreamNo) : State :=
  let c := s.ctx n
  if c.commits.isEmpty || c.listing || c.releases.any fun x => (s.tile x).hemmed then s
  else
    let s := (s.onCtx n fun c => { c with commits := [] }).applySites
      (c.commits.map fun x => (x, hemState x (fld ((s.tile x).reg Reg.TC_HEM) 0 2)))
    c.commits.foldl State.clearDarn s

def State.releaseLoop (n : StreamNo) : Nat → State → Desc → State × Desc
  | 0, s, d => (s, d)
  | k + 1, s, d =>
    if d.list.length < 2 then (s, d)
    else match siteOf (numAt d.list 0 2) with
      | none => State.releaseLoop n k s (d.took 2)
      | some site =>
        if (s.loomSite site).stream = some n then
          State.releaseLoop n k (s.startRelease n site) { d.took 2 with count := d.count + 1 }
        else State.releaseLoop n k s (d.took 2)

/-- RELEASE completes once the tiles are clear. -/
def State.stepRelease (s : State) (n : StreamNo) (d : Desc) : State :=
  let (s, d) := State.releaseLoop n 64 s d
  if d.pos = 2 * d.num 16 2 then
    let s := (s.keep n { d with stage := .awaits }).commitReleased n
    if (s.ctx n).releases.isEmpty then s.complete n d 0 d.count else s.parkOn n { d with stage := .awaits } .release
  else s.goOn n d 2

/-! ## STITCH (R438) -/

/-- The packets of a pattern record for a site, of at most eight flits each, in class RECONF (R303, R337, R357). -/
def recPkts (site : Site) (rec : List Word) : List Pkt :=
  (List.range (recParts rec)).map fun k =>
    { src := .attach (fieldNo site), dst := .site site, cls := 5, flits := (min 128 (rec.length - 128 * k) + 15) / 16
      body := .pattern rec, part := k }

/-- A pattern record sent to a site from its attachment (R303, R452). -/
def Steward.sendRecord (x : Steward) (site : Site) (rec : List Word) : Steward :=
  { x with outq := x.outq ++
    recPkts site rec }

/-- The stitch of a descriptor aborted, and the descriptor malformed or its image unreadable. -/
def State.stitchAbort (s : State) (n : StreamNo) (d : Desc) (status : Nat) : State :=
  (s.onSteward fun x => match x.stitch? (BitVec.ofNat 16 (d.num 18 2)) with
    | some k => if k.owner = some n then x.abortStitch k else x
    | none => x).complete n d status d.count

/-- The site list of a STITCH is here: its stitch is opened, unless a site is not the stream's or the number is open; a slice at one
of its sites is awaited (R496). -/
def State.stitchOpen (s : State) (n : StreamNo) (d : Desc) : State :=
  let l := (List.range (d.num 16 2)).map fun i => siteOf (numAt d.list (2 * i) 2)
  let sites := l.filterMap id
  let num := BitVec.ofNat 16 (d.num 18 2)
  if l.any Option.isNone || !sites.all fun x => (s.loomSite (s.steward.darned x)).stream = some n then s.complete n d 1 0
  else if s.steward.numberOpen num then s.complete n d 4 0x12
  else if sites.any fun x => s.inSlice (s.steward.darned x) then s.parkOn n d .stitch
  else
    let s := s.onSteward fun x => x.openStitch { num := num, new := BitVec.ofNat 4 (d.num 20 1), sites := sites.map x.darned
                                                 armed := [], switchedS := [], committed := false, owner := some n }
    s.keep n { d with stage := .image, list := [], pos := 0, sites := sites }

/-- What a frame of an image is: not yet read whole, bad, or a record for a site, with its length in bytes. -/
inductive Frame where
  | more | bad | one (site : Site) (words : List Word) (len : Nat)
deriving DecidableEq, Repr

/-- The next frame of an image of which `left` bytes have not been handled (R438). -/
def Desc.frame (d : Desc) (left : Nat) : Frame :=
  if left < 8 then .bad
  else if d.list.length < 8 then .more
  else
    let len := 20 + 4 * recNwords [wordAt d.list 4]
    match siteOf (wordAt d.list 0).toNat with
    | none => .bad
    | some site =>
      if !d.sites.contains site || left < len then .bad
      else if d.list.length < len then .more
      else .one site (wordsOf (d.list.drop 4) (len / 4 - 1)) len

/-- Frames sent, up to 32 KiB of image in a step (R445). -/
def State.frameLoop (n : StreamNo) : Nat → Nat → State → Desc → State
  | 0, _, s, d => s.keep n d
  | fuel + 1, sent, s, d =>
    let left := d.num 32 4 - d.pos
    if left = 0 then s.parkOn n { d with stage := .awaits } .stitch
    else match d.frame left with
      | .more => s.readMore n d
      | .bad => s.stitchAbort n d 1
      | .one site ws len =>
        if 32768 < sent + len then s.keep n d
        else State.frameLoop n fuel (sent + len) (s.onSteward fun x => x.sendRecord (x.darned site) ws)
          { d.took len with count := d.count + 1 }

def State.stepStitch (s : State) (n : StreamNo) (d : Desc) : State :=
  match d.status with
  | some (st, info) => s.complete n d st info
  | none =>
    match d.stage with
    | .image => State.frameLoop n 2048 0 s d
    | .awaits => s.parkOn n d .stitch
    | _ =>
      if d.list.length = 2 * d.num 16 2 then s.stitchOpen n d else s.readMore n { d with stage := .list }

/-! ## TOKENS and SLICE (R437, R439, R444) -/

/-- The loom's tokens wait for their attachment's bucket when what waits there already takes all it holds (R444, R446). -/
def State.bucketOpen (s : State) (site : Site) (k : Nat) : Bool :=
  let a : InjPoint := .attach (fieldNo site)
  let queued := ((s.line a).filter fun p => p.cls = 1).length
  queued + k ≤ s.level a 1

/-- One token sent to a site; an EMARK needs no credit. -/
def State.sendToken (s : State) (site : Site) (unit qb p : Nat) (tok : BitVec 64) : State :=
  let s := if tokIsMark tok then s
    else s.setLoomSite site { s.loomSite site with credits := (s.loomSite site).credits.modify p (· - 1) }
  s.onSteward fun x => { x with outq := x.outq ++
    [{ src := .attach (fieldNo site), dst := .site site, cls := 1, flits := 1
       body := .token (BitVec.ofNat 4 unit) (BitVec.ofNat 3 (qb + p)) tok (.loom (fieldNo site) (BitVec.ofNat 2 p)) }] }

def State.hasCredit (s : State) (site : Site) (p : Nat) : Bool := 0 < (s.loomSite site).credits.getD p 0

/-- The entries of a TOKENS list in hand, up to 512 of them. -/
def State.tokenLoop (n : StreamNo) (site : Site) : Nat → State → Desc → State
  | 0, s, d => s.keep n d
  | k + 1, s, d =>
    if d.pos = 16 * d.num 16 4 then s.complete n d 0 d.count
    else if d.list.length < 16 then s.readMore n d
    else
      let tok := BitVec.ofNat 64 (numAt d.list 0 8)
      let p := numAt d.list 8 1
      if 4 ≤ p || numAt d.list 9 7 != 0 then s.complete n d 1 d.count
      else if (s.loomSite site).noTokens then s.parkOn n d .held
      else if !tokIsMark tok && !s.hasCredit site p then s.parkOn n d .credits
      else if !s.bucketOpen site 1 then s.parkOn n d .bucket
      else State.tokenLoop n site k (s.sendToken site (d.num 6 1) (d.num 7 1) p tok) { d.took 16 with count := d.count + 1 }

/-- The payloads of a chunk, by P (R439). -/
def Desc.payloads (d : Desc) (k : Nat) : List Nat :=
  let a := d.chunkAddr k
  let x := d.chunkScale k
  [a % 2 ^ 32, a / 2 ^ 32] ++ if fmtMx d.fmt then [x % 2 ^ 32, x / 2 ^ 32] else []

/-- The chunks of a SLICE, up to 256 of them. -/
def State.chunkLoop (n : StreamNo) (site : Site) : Nat → State → Desc → State
  | 0, s, d => s.keep n d
  | k + 1, s, d =>
    let l := d.payloads d.count
    if d.count = d.num 16 4 then s.complete n d 0 d.count
    else if (s.loomSite site).noTokens then s.parkOn n d .held
    else if !(List.range l.length).all fun p => s.hasCredit site p then s.parkOn n d .credits
    else if !s.bucketOpen site l.length then s.parkOn n d .bucket
    else
      let s := (List.range l.length).foldl (fun s p => s.sendToken site (d.num 6 1) (d.num 7 1) p
        (mkToken (d.num 20 1 / 16) 2 false d.count (l.getD p 0))) s
      State.chunkLoop n site k s { d with count := d.count + 1 }

/-- The first TOKENS or SLICE fixes UNIT and QB of a site (R444); a site that the stream has lost since takes no more. -/
def State.stepSend (s : State) (n : StreamNo) (d : Desc) : State :=
  match s.descSite d with
  | none => s.complete n d 1 d.count
  | some site =>
    if !s.targetHeld n d then s.complete n d 1 d.count
    else
      let s := s.setLoomSite site { s.loomSite site with target := some (d.num 6 1, d.num 7 1) }
      if d.op = 5 then State.tokenLoop n site 512 s d else State.chunkLoop n site 256 s d

/-- Tokens that a descriptor still has to send on a counter (R446): those among the entries that the loom has read, and among the entries
left in memory as many as stand there. -/
def Desc.remains (d : Desc) (p : Nat) : Nat :=
  if d.op = 6 then (if p < (d.payloads 0).length then d.num 16 4 - d.count else 0)
  else
    let got := d.pos + d.list.length
    ((List.range (d.list.length / 16)).filter fun i =>
      numAt d.list (16 * i + 8) 1 == p && !tokIsMark (BitVec.ofNat 64 (numAt d.list (16 * i) 8))).length +
      min (d.num 16 4 - got / 16) (Config.unreadTokens (d.num 8 8 + got) p)

/-- A stream parked for credits may go on (R446). -/
def State.creditsReady (s : State) (n : StreamNo) : Bool :=
  match (s.ctx n).desc with
  | some d => match s.descSite d with
    | some site => (List.range 4).all fun p => min 8 (d.remains p) ≤ (s.loomSite site).credits.getD p 0
    | none => true
  | none => true

/-! ## WAIT and END (R437, R450) -/

/-- The condition of a WAIT: (EVT − VALUE) mod 2^32 < 2^31. -/
def waitMet (c : Ctx) (d : Desc) : Bool := (c.evt - wordAt d.bytes 4).toNat < 2 ^ 31

def State.stepWait (s : State) (n : StreamNo) (d : Desc) : State :=
  if waitMet (s.ctx n) d then s.complete n d 0 (s.ctx n).evt.toNat else s.parkOn n d .event

/-- The tiles of a stream that ends are released together, by one multicast to each field; a tile whose router a SITE hem has stopped
is cleared without it (R443, R450, R461; assumption 84). -/
def State.goTiles (s : State) (n : StreamNo) : State :=
  if (s.ctx n).teardown == .stitch && !s.steward.stitches.any fun k => k.owner = some n then
    let l := s.claimed n
    let s := (l.foldl (fun s x => s.letGo n x) s).onCtx n fun c => { c with teardown := .tiles }
    let s := if l.isEmpty then s else s.onSteward fun x => x.tellAll (.release n)
    (l.filter fun x => (s.tile x).siteHem).foldl State.startScrub s
  else s

/-- Then every port invalidates the stream's sectors. -/
def State.goPorts (s : State) (n : StreamNo) : State :=
  if (s.ctx n).teardown == .tiles && (s.ctx n).releases.isEmpty then
    s.onCtx n fun c => { c with teardown := .ports, portsLeft := allPorts.filter fun p => (s.port p).mode == PortMode.up }
  else s

/-- Then the stream can go IDLE; an END is written back OK. -/
def State.goDone (s : State) (n : StreamNo) : State :=
  if (s.ctx n).teardown == .ports && (s.ctx n).portsLeft.isEmpty then
    let s := s.onCtx n fun c => { c with teardown := .done }
    match (s.ctx n).desc with
    | some d => s.complete n d 0 0
    | none => s
  else s

/-- The end of a stream taken as far as it goes. -/
def State.progress (s : State) (n : StreamNo) : State := (((s.goTiles n).commitReleased n).goPorts n).goDone n

def State.stepEnd (s : State) (n : StreamNo) (d : Desc) : State :=
  let s := s.onCtx n fun c => { c with mode := .ending, desc := some d, slots := [], teardown := .stitch }
  ((s.unready n).tellState n 0 0).progress n

/-! ## Steps (R433, R435, R445, R446) -/

/-- The fetch of the next slots (R435). -/
def State.fetch (s : State) (n : StreamNo) (from' : Word) (k : Nat) (retried : Bool) : State :=
  let c := s.ctx n
  (s.setCtx n { c with park := .fetch, fetchFrom := from', fetchN := k, retried := retried }).loomSend n fun p =>
    .loomRd p n (c.ring + 64 * (from'.toNat % 2 ^ c.rlog)) (64 * k)

/-- Up to 8 consecutive slots below PIDX that cross no 512 B boundary and do not wrap. -/
def Ctx.fetchLen (c : Ctx) : Nat :=
  let slot := c.next.toNat % 2 ^ c.rlog
  min (c.pidx - c.next).toNat (min (8 - slot % 8) (2 ^ c.rlog - slot))

/-- A descriptor not yet begun. -/
def Desc.load (i : Word) (b : List Byte) : Desc :=
  { index := i, bytes := b, stage := .fresh, list := [], want := 0, pos := 0, count := 0, partialC := false, listErr := false
    sites := [], status := none }

/-- The step of a descriptor by its operation. -/
def State.stepOp (s : State) (n : StreamNo) (d : Desc) : State :=
  if d.listErr then (if d.op = 4 then s.stitchAbort n d 3 else (s.complete n d 3 d.count).commitReleased n)
  else match d.op with
    | 1 => s.complete n d 0 0
    | 2 => s.stepClaim n d
    | 3 => s.stepRelease n d
    | 4 => s.stepStitch n d
    | 7 => s.stepWait n d
    | 8 => s.stepEnd n d
    | _ => s.stepSend n d

/-- A step of a descriptor; a malformed one does nothing (R440). -/
def State.stepDesc (s : State) (n : StreamNo) (d : Desc) : State :=
  if d.stage == .fresh && d.pos = 0 && d.count = 0 && s.descBad n d then s.complete n d 1 0 else s.stepOp n d

/-- The descriptor that the next step of a stream works on. -/
def Ctx.current (c : Ctx) : Option Desc :=
  match c.desc, c.slots with
  | some d, _ => some d
  | none, (i, b) :: _ => some (Desc.load i b)
  | none, [] => none

/-- The four step engines serve the ready streams in their order (R445, R446). -/
def State.served (s : State) (n : StreamNo) : Bool := (s.loom.ready.take 4).contains n && (s.ctx n).work

/-- One step of a stream. -/
def State.stepStream (s : State) (n : StreamNo) : State :=
  let c := s.ctx n
  let s := s.unready n
  let s := match c.desc, c.slots with
    | some d, _ => s.stepDesc n d
    | none, (i, b) :: rest => (s.setCtx n { c with slots := rest }).stepDesc n (Desc.load i b)
    | none, [] => s.fetch n c.next c.fetchLen false
  s.ready n

/-- LOOM_STEP (R445). -/
def execLoomStep (stream : StreamNo) (s : State) : Host.Outcome State Fault Refusal :=
  live s fun s => if s.served stream then s.stepStream stream else s

/-- A step of a stream whose next descriptor is of the given operation. -/
def State.opStep (s : State) (n : StreamNo) (op : Nat) : State :=
  match (s.ctx n).current with
  | some d => if s.served n && d.op = op then s.stepStream n else s
  | none => s

def execNop (stream : StreamNo) (s : State) : Host.Outcome State Fault Refusal := live s fun s => s.opStep stream 1
def execClaim (stream : StreamNo) (s : State) : Host.Outcome State Fault Refusal := live s fun s => s.opStep stream 2
def execRelease (stream : StreamNo) (s : State) : Host.Outcome State Fault Refusal := live s fun s => s.opStep stream 3
def execDescStitch (stream : StreamNo) (s : State) : Host.Outcome State Fault Refusal := live s fun s => s.opStep stream 4
def execTokens (stream : StreamNo) (s : State) : Host.Outcome State Fault Refusal := live s fun s => s.opStep stream 5
def execSlice (stream : StreamNo) (s : State) : Host.Outcome State Fault Refusal := live s fun s => s.opStep stream 6
def execWait (stream : StreamNo) (s : State) : Host.Outcome State Fault Refusal := live s fun s => s.opStep stream 7
def execEndStream (stream : StreamNo) (s : State) : Host.Outcome State Fault Refusal := live s fun s => s.opStep stream 8

/-- WAIT_TIMEOUT (R437): a parked WAIT with a TMO completes TIMEOUT. -/
def execWaitTimeout (stream : StreamNo) (s : State) : Host.Outcome State Fault Refusal :=
  live s fun s =>
    let c := s.ctx stream
    match c.desc with
    | some d =>
      if c.mode == .running && c.park == .event && d.op = 7 && d.num 8 4 != 0 && !waitMet c d then
        ((s.onCtx stream fun c => { c with park := .none }).complete stream d 5 c.evt.toNat).ready stream
      else s
    | none => s

/-- FETCH_RESPONSE (R435, R436): bytes 56 to 63 of a slot are ignored. -/
def State.fetched (s : State) (n : StreamNo) (ok : Bool) (data : List Byte) : State :=
  let c := s.ctx n
  if c.park != .fetch then s
  else if ok then
    let slots := (List.range c.fetchN).map fun k =>
      (c.fetchFrom + BitVec.ofNat 32 k, sliceBytes data (64 * k) 56 ++ List.replicate 8 0)
    (s.setCtx n { c with park := .none, slots := slots, retried := false }).ready n
  else if c.retried then
    let s := (s.setCtx n { c with park := .none, retried := false }).onSteward fun x => x.flagBit Reg.LM_ERR 1
    s.haltStream n 3 0
  else s.setCtx n { c with park := .retry }

def execFetchResponse (stream : StreamNo) (status : BitVec 3) (data : List Byte) (poison : Bool) (s : State) :
    Host.Outcome State Fault Refusal :=
  live s fun s => (s.loomDone stream false).fetched stream (status = 0 && !poison) data

/-- FETCH_RETRY (R436). -/
def execFetchRetry (stream : StreamNo) (s : State) : Host.Outcome State Fault Refusal :=
  live s fun s =>
    let c := s.ctx stream
    if c.park == .retry then s.fetch stream c.fetchFrom c.fetchN true else s

/-- LIST_READ_RESPONSE (R441, R446): the stream becomes ready; after a failed read its descriptor ends with LISTERR. -/
def State.listRead (s : State) (n : StreamNo) (ok : Bool) (data : List Byte) : State :=
  let c := s.ctx n
  match c.desc with
  | some d =>
    if c.park != .list then s
    else if ok then (s.setCtx n { c with park := .none, desc := some { d with list := d.list ++ sliceBytes data 0 d.want } }).ready n
    else
      let d := { d with listErr := true }
      let s := s.setCtx n { c with park := .none, desc := some d }
      if c.mode == .running then (s.stepOp n d).ready n else s
  | none => s

def execListReadResponse (stream : StreamNo) (status : BitVec 3) (data : List Byte) (poison : Bool) (s : State) :
    Host.Outcome State Fault Refusal :=
  live s fun s => (s.loomDone stream false).listRead stream (status = 0 && !poison) data

/-- WRITEBACK_ACK (R435, R451): CIDX advances, COMPLETE goes out, and a strict stream halts on an error of the descriptor. -/
def State.writtenBack (s : State) (n : StreamNo) (ok : Bool) : State :=
  match (s.ctx n).completes with
  | [] => s
  | w :: ws =>
    let status := fld w.word 48 8
    let s := s.onCtx n fun c => { c with completes := ws, cidx := if w.stale then c.cidx else w.index + 1 }
    let s := if w.notify || status != 0 then s.loomSend n fun p => .msg p 0x10 n w.index w.word w.vec else s
    if w.stale then s
    else
      let s := if ok then s else s.streamErr n 5
      let strict := (s.ctx n).policy && status != 0 && status != 6
      let s := if strict then s.haltStream n 4 3 else s
      if strict && (s.ctx n).park == .writeback then s.wakeStream n else s.ready n

def execWritebackAck (stream : StreamNo) (status : BitVec 3) (s : State) : Host.Outcome State Fault Refusal :=
  live s fun s => (s.loomDone stream true).writtenBack stream (status = 0)

/-! ## Messages of the host (R431, R432, R434, R449, R450) -/

/-- A stream message has come over the weft to the loom. -/
def State.gotMsg (s : State) (ty : BitVec 8) (n : StreamNo) (args : Word → BitVec 64 → Bool) (f : State → State) : State :=
  s.receive (fun p => (match p.dst with | .att _ => true | _ => false) &&
    (match p.body with | .ctrl (.streamMsg y m a0 a1) => y == ty && m == n && args a0 a1 | _ => false)) f

def State.doorbell (s : State) (n : StreamNo) (v : Word) : State :=
  let c := s.ctx n
  if c.mode != .running && c.mode != .halted then s.onSteward Steward.badMsg
  else if 2 ^ 31 ≤ (v - c.pidx).toNat then s
  else if 2 ^ c.rlog < (v - c.cidx).toNat then (s.onSteward fun x => x.flagBit Reg.LM_ERR 0).streamErr n 5
  else (s.setCtx n { c with pidx := v }).ready n

def execDoorbell (stream : StreamNo) (n : Word) (s : State) : Host.Outcome State Fault Refusal :=
  live s fun s => s.gotMsg 1 stream (fun a _ => a == n) fun s => s.doorbell stream n

/-- EVENT (R431, R446). -/
def State.eventIn (s : State) (n : StreamNo) (inc : Word) : State :=
  let c := s.ctx n
  if inc = 0 || (c.mode != .running && c.mode != .halted) then s.onSteward Steward.badMsg
  else
    let s := s.setCtx n { c with evt := c.evt + inc }
    if c.park == .event then s.wakeStream n else s

def execEvent (stream : StreamNo) (inc : Word) (s : State) : Host.Outcome State Fault Refusal :=
  live s fun s => s.gotMsg 2 stream (fun a _ => a == inc) fun s => s.eventIn stream inc

/-- The shutdown test is running (R500). -/
def Steward.sdRunning (x : Steward) : Bool := fld (x.reg Reg.BT_STAT) 29 3 == 1

/-- The loom takes no START: before the firmware runs (R515) and during the shutdown test (R500). -/
def Steward.noStart (x : Steward) : Bool := fld (x.reg Reg.ST_BOOT) 0 2 != 2 || x.sdRunning

def State.startIn (s : State) (n : StreamNo) (addr : BitVec 64) : State :=
  let c := s.ctx n
  if addr.toNat % 64 ≠ 0 || 2 ^ 60 ≤ addr.toNat then s.onSteward Steward.badMsg
  else if c.mode != .idle || c.park != .none || s.steward.noStart then s.tellState n 2 0
  else (s.setCtx n { c with park := .started addr.toNat }).loomSend n fun p => .loomRd p n addr.toNat 64

def execStart (stream : StreamNo) (addr : BitVec 64) (s : State) : Host.Outcome State Fault Refusal :=
  live s fun s => s.gotMsg 3 stream (fun _ a => a == addr) fun s => s.startIn stream addr

/-- A bucket of a context record with RATE nonzero and BURST below 9 (R432). -/
def recBucketBad (w : Word) : Bool := fld w 16 16 != 0 && fld w 0 16 < 9

/-- A context record that the loom accepts (R432). -/
def recordOk (b : List Byte) : Bool :=
  let w := wordAt b 0
  let ring := numAt b 8 8
  fld w 28 4 == 3 && fld w 21 6 == 0 && fld w 0 16 == 0 && fld w 16 5 ≤ 20 && wordAt b 4 == 0 && ring % 4096 == 0 &&
    rangeOk ring (64 * 2 ^ fld w 16 5) && fld (wordAt b 16) 16 16 != 0xFFFF && !recBucketBad (wordAt b 16) &&
    !recBucketBad (wordAt b 20) && numAt b 40 24 == 0

/-- The context that a record sets up. -/
def Ctx.ofRecord (c : Ctx) (b : List Byte) : Ctx :=
  { Ctx.reset with
    mode := .running, policy := bitOf (wordAt b 0) 27, rlog := fld (wordAt b 0) 16 5, ring := numAt b 8 8
    srate := wordAt b 16, brate := wordAt b 20, seed := wordAt b 24, adv := wordAt b 28, cidx := wordAt b 32
    pidx := wordAt b 32, evt := wordAt b 36, completes := c.completes }

def Park.isStarted : Park → Bool
  | .started _ => true
  | _ => false

/-- CONTEXT_RECORD (R432). -/
def State.contextIn (s : State) (n : StreamNo) (ok : Bool) (data : List Byte) : State :=
  let c := s.ctx n
  let b := sliceBytes data 0 64
  if !c.park.isStarted then s
  else if ok && recordOk b then (s.setCtx n (c.ofRecord b)).tellState n 0 0
  else ((s.setCtx n { c with park := .none }).onSteward fun x => x.flagBit Reg.LM_ERR 2).tellState n 1 0

def execContextRecord (stream : StreamNo) (status : BitVec 3) (data : List Byte) (poison : Bool) (s : State) :
    Host.Outcome State Fault Refusal :=
  live s fun s => (s.loomDone stream false).contextIn stream (status = 0 && !poison) data

/-- A request of the loom's is answered REFUSED, its port having gone DOWN (R386). -/
def State.loomRefused (s : State) (o : Out) : State :=
  match o with
  | .loomWr _ n _ _ => s.writtenBack n false
  | .loomRd _ n _ _ =>
    match (s.ctx n).park with
    | .fetch => s.fetched n false []
    | .list => s.listRead n false []
    | .started _ => s.contextIn n false []
    | _ => s
  | _ => s

/-- The loom takes the refusals that wait for it. -/
def State.takeRefusals (s : State) : State :=
  s.loom.refused.foldl State.loomRefused { s with loom := { s.loom with refused := [] } }

/-- KILL (R450): every fetched descriptor that has not completed is written back ABORTED, and the stream's stitch aborted. -/
def State.killStream (s : State) (n : StreamNo) : State :=
  let c := s.ctx n
  if c.mode != .running && c.mode != .halted && c.mode != .ending then s.onSteward Steward.badMsg
  else
    let s := ((s.setCtx n { c with mode := .killing, park := .none }).unready n).tellState n 0 0
    let s := match c.desc with
      | some d => s.complete n d 6 d.count
      | none => s
    let s := c.slots.foldl (fun s e => s.complete n (Desc.load e.1 e.2) 6 0) s
    let s := s.onCtx n fun x => { x with slots := [], teardown := if x.teardown == .none then .stitch else x.teardown }
    let s := s.onSteward fun x => (x.stitches.filter fun k => k.owner = some n).foldl Steward.abortStitch x
    s.progress n

def execKill (stream : StreamNo) (s : State) : Host.Outcome State Fault Refusal :=
  live s fun s => s.gotMsg 4 stream (fun _ _ => true) fun s => s.killStream stream

/-- RESUME (R431, R449). -/
def State.resumeStream (s : State) (n : StreamNo) : State :=
  if (s.ctx n).mode != .halted || (s.claimed n).any fun x => (s.tile x).hemmed then s.onSteward Steward.badMsg
  else
    let s := s.onTiles (s.claimed n) fun _ t => ({ t with freeze := { t.freeze with halt := false } } : Tile).endFreeze
    ((s.onCtx n fun c => { c with mode := .running }).tellState n 0 0).ready n

def execResume (stream : StreamNo) (s : State) : Host.Outcome State Fault Refusal :=
  live s fun s => s.gotMsg 5 stream (fun _ _ => true) fun s => s.resumeStream stream

/-- KILL_COMPLETE (R450): the context becomes IDLE once the teardown, and an END's write-back, have ended. -/
def State.killComplete (s : State) (n : StreamNo) : State :=
  let c := s.ctx n
  if c.teardown == .done && (c.mode == .killing || (c.mode == .ending && c.completes.isEmpty)) then
    let idle := { Ctx.reset with cidx := c.cidx, pidx := c.pidx, evt := c.evt, errs := c.errs, lastCls := c.lastCls
                                 completes := c.completes.map fun w => { w with stale := true } }
    (s.setCtx n idle).tellState n 0 0
  else s

def execKillComplete (stream : StreamNo) (s : State) : Host.Outcome State Fault Refusal :=
  live s fun s => s.killComplete stream

/-- STREAM_END_INVALIDATE (R414, R450). -/
def execStreamEndInvalidate (port : PortIx) (stream : StreamNo) (s : State) : Host.Outcome State Fault Refusal :=
  live s fun s =>
    if (s.ctx stream).portsLeft.contains port then
      let s := (s.onPort port fun p => p.streamEnd stream).onCtx stream fun c => { c with portsLeft := c.portsLeft.erase port }
      s.progress stream
    else s

/-! ## The clear of a tile ends (R253, R443, R480, R567) -/

/-- A released tile is ready for reassignment: the streams that wait for it go on. -/
def State.released (s : State) (site : Site) : State :=
  s.loom.ctxs.foldl (fun s e => if h : e.1 < 16384 then
    let n : StreamNo := ⟨e.1, h⟩
    if (s.ctx n).releases.contains site then
      let s := (s.onCtx n fun c =>
        { c with releases := c.releases.erase site
                 commits := if (s.tile site).hemmed then c.commits ++ [site] else c.commits }).commitReleased n
      let s := if (s.ctx n).park == .release && (s.ctx n).releases.isEmpty then s.wakeStream n else s
      s.progress n
    else s else s) s

/-- An action of ST_SLEEP on a site has been done: GO reads 1 while another is not (R567). -/
def Steward.sleepActed (x : Steward) (site : Site) : Steward :=
  if x.sleepActs.contains site then
    let l := x.sleepActs.filter (· ≠ site)
    { x.setReg Reg.ST_SLEEP (setFld (x.reg Reg.ST_SLEEP) 31 1 (if l.isEmpty then 0 else 1)) with slept := some site, sleepActs := l }
  else x

/-- KILL_SCRUB_DONE (R30, R253, R443, R480, R496, R567); the scrub of a tile in a slice follows the slice's test, and a site fenced before
its release came has nothing to clear. -/
def State.scrubDone (s : State) (site : Site) : State :=
  let t := s.tile site
  if s.steward.site site.val = 0 && s.releasing site then s.released site
  else if !t.scrubbing || s.inSlice site then s
  else
    let s := s.endScrub site
    if t.sleeping then
      let s := (s.onTile site fun t => { t with sleeping := false, asleep := true, repairMap := [] }).onSteward fun x => x.sleepActed site
      s.released site
    else
      if t.hemmed && !s.releasing site then (s.applySites [(site, hemState site (fld (t.reg Reg.TC_HEM) 0 2))]).clearDarn site
      else s.released site

def execKillScrubDone (site : Site) (s : State) : Host.Outcome State Fault Refusal :=
  live s fun s => s.scrubDone site

/-! ## Credits and errors from tiles (R444, R447) -/

/-- LOOM_CREDIT (R444, R446). -/
def State.loomCredit (s : State) (site : Site) (p k : Nat) : State :=
  let x := s.loomSite site
  match x.stream with
  | none => s
  | some n =>
    let s := s.setLoomSite site { x with credits := x.credits.modify p fun c => min 16 (c + k) }
    if (s.ctx n).park == .credits && s.creditsReady n then s.wakeStream n else s

def execLoomCredit (site : Site) (port : BitVec 2) (count : BitVec 5) (s : State) : Host.Outcome State Fault Refusal :=
  live s fun s =>
    s.receive (fun p => p.src = .tile site && (match p.dst with | .att _ => true | _ => false) &&
      (match p.body with | .credit u q c _ => u == 0xF && q == port && c == count | _ => false)) fun s => s.loomCredit site port.toNat count.toNat

/-- The counts that a claimed tile reports are added to its stream's; the first error of a strict stream halts it (R447). -/
def State.errorsIn (s : State) (site : Site) (k : List Nat) : State :=
  match (s.loomSite site).stream with
  | none => s
  | some n =>
    let s := s.onCtx n fun c => (upto 1 5).foldl (fun c i => c.addErrs i (k.getD i 0)) c
    match (upto 1 5).find? fun i => k.getD i 0 != 0 with
    | some i => if (s.ctx n).policy then s.haltStream n 4 i else s
    | none => s

/-- The error counts that a message carries. -/
def PktBody.errors : PktBody → Option (List Nat)
  | .ctrl (.errors k) => some k
  | _ => none

/-- ERROR_REPORT (R447): the packet of a tile's report has come to its attachment. -/
def State.errorReport (s : State) (site : Site) : State :=
  match s.net.find? fun p => p.src = .tile site && p.body.errors.isSome && s.mayTake p with
  | some p => (s.deliver (· == p)).errorsIn site (p.body.errors.getD [])
  | none => s

def execErrorReport (site : Site) (s : State) : Host.Outcome State Fault Refusal :=
  live s fun s => s.errorReport site

end Sys2Proof.Machine
end

