-- ==== Sys2Proof/Machine/Fault.lean ====
section
/-! DEFINITION. The steward in service: answers to stitches (R306, R307), faults, hems, darning (R457 to R489), liveness (R459),
deadlock windows and spills (R318 to R322). -/

namespace Sys2Proof.Machine

/-- A control message of a site has come to its attachment. -/
def State.gotAtt (s : State) (site : Site) (m : CtrlMsg) (f : State → State) : State :=
  s.receive (fun p => p.src = .tile site && (match p.dst with | .att _ => true | _ => false) && p.body = .ctrl m) f

/-- Every tile that holds anything of its own. -/
def State.someTiles (s : State) : List Site := s.tiles.filterMap fun e => siteOf e.1

/-! ## The fault log (R460, R488) -/

/-- A FAULT recorded; the log keeps the newest 256, and its entries are numbered from 0. -/
def Steward.log (x : Steward) (site : Site) (code unit us : Nat) (reg : Word) (periods : Nat) : Steward :=
  let e : LogEnt := { id := x.flogCount, code := code, unit := unit, outcome := 0, site := site
                      time := BitVec.ofNat 32 (10 * periods + us), reg := reg, spare := 0 }
  { x with flog := (e :: x.flog).take 256, flogCount := x.flogCount + 1 }

/-- The outcome of a logged fault. -/
def Steward.outcome (x : Steward) (id o : Nat) (spare : Word) : Steward :=
  { x with flog := x.flog.map fun e => if e.id = id then { e with outcome := o, spare := spare } else e }

def noCount : Nat → Nat := fun _ => 0

/-- Whether the policy of a code calls for darning, after one more event of it at a site (R460). -/
def Steward.countFault (x : Steward) (site : Site) (code : Nat) : Steward × Bool :=
  let key := 16 * site.val + code
  let n := Map.get noCount x.counts key + 1
  let w := x.reg (Reg.ST_FPOL + 4 * code)
  ({ x with counts := Map.set noCount x.counts key n }, fld w 8 2 == 1 || (fld w 8 2 == 2 && fld w 0 8 ≤ n))

/-! ## Ports (R481, R482) -/

/-- A port that the steward hems: DOWN for good, without a common version, or without a group of its M stripe (R482). -/
def Port.lost (p : Port) : Bool :=
  p.stays || (p.mode == .discover && bitOf (p.reg Reg.GL_ERR) 7) || (p.mode == .up && (p.ownStripe 0).isEmpty)

/-- The tiles whose SH_REACH.PORT names a port are given another (R405, R482). -/
def State.repoint (s : State) (p q : PortIx) : State :=
  s.onTiles (allSites.filter fun n => (s.tile n).reachPort n == p) fun _ t => t.setReg Reg.SH_REACH (BitVec.ofNat 32 (0x80 + q.val))

/-- A PORT fault (R482): the port is hemmed if it is lost; a group removal takes no further action (R481). -/
def State.portFault (s : State) (site : Site) (id : Nat) : State :=
  match allPorts.find? fun p => siteOfPort p = site with
  | none => s
  | some p =>
    if !(s.port p).lost then s
    else
      let s := s.onSteward fun x =>
        (((x.tell site (.hem 2)).flagBit (Reg.ST_PHEM + 4 * (p.val / 32)) (p.val % 32)).outcome id 4 0)
      match s.nearestPort p with
      | some q => s.repoint p q
      | none => s

/-! ## The items of the rotation (R490, R494) -/

/-- The items of a site, in code order (R490). -/
def itemList (port : Bool) : List Nat := upto 0 7 ++ upto 0x10 16 ++ [0x20, 0x21] ++ if port then upto 0x30 16 else []

/-- An item that freezes its tile (R490). -/
def itemFreezes (i : Nat) : Bool := i < 0x20

/-- An item applies to a site (R490, R494). -/
def State.itemApplies (s : State) (n : Site) (i : Nat) : Bool :=
  let st := s.steward.site n.val
  if itemFreezes i then st == 1 || st == 2 else st != 0

/-- The next item of the rotation from the steward's position on. -/
def State.nextItem (s : State) : Option (Site × Nat) :=
  (allSites.drop s.steward.rotSite).findSome? fun n =>
    ((itemList (isPortSite n.val)).find? fun i =>
      (n.val != s.steward.rotSite || s.steward.rotItem ≤ i) && s.itemApplies n i).map fun i => (n, i)

/-- The deferred items that still apply. -/
def State.deferredLeft (s : State) : List (Nat × Nat × Nat) :=
  s.steward.deferred.filter fun e => (siteOf e.1).any fun n => s.itemApplies n e.2.1

/-- A slice that is deferred goes to the end of the rotation; the third time it is skipped (R494). -/
def Steward.defer (x : Steward) (n i k : Nat) : Steward :=
  if 3 ≤ k + 1 then
    let w := x.reg Reg.BT_STAT
    x.setReg Reg.BT_STAT (setFld w 16 12 (min 0xFFF (fld w 16 12 + 1)))
  else { x with deferred := x.deferred ++ [(n, i, k + 1)] }

/-- A rotation ends (R494, R506). -/
def Steward.endRotation (x : Steward) : Steward :=
  let w := x.reg Reg.BT_STAT
  { x.setReg Reg.BT_STAT (setFld (setFld w 16 12 0) 0 16 (min 0xFFFF (fld w 0 16 + 1))) with
    rotations := x.rotations + 1, rotSite := 0, rotItem := 0, deferred := [] }

/-- A rotation with no item left ends with its last slice (R494). -/
def State.turnRotation (s : State) : State :=
  if s.steward.slice.isNone && s.nextItem.isNone && s.deferredLeft.isEmpty then s.onSteward Steward.endRotation else s

/-! ## Slices that a hem ends (R490, R496, R508) -/

/-- A lane group taken out of its stripes, or brought back where its port has not gone down; an eighth of the reach cache likewise
(R490). -/
def State.laneTest (s : State) (n : Site) (i : Nat) (back : Bool) : State :=
  match allPorts.find? fun p => siteOfPort p = n with
  | some p =>
    if 0x30 ≤ i && i < 0x38 then
      if back && (((s.port p).mode != .up && (s.port p).mode != .discover) || (s.port p).removed (i - 0x30) ||
        (s.port p).inRetrain (i - 0x30)) then s
      else (s.onPort p fun x => x.setStat (8 + (i - 0x30)) back).restripe p (s.port p)
    else if 0x38 ≤ i then s.onPort p fun x =>
      let bit : BitVec 8 := BitVec.ofNat 8 (2 ^ (i - 0x38))
      if back then { x with rcOff := x.rcOff &&& ~~~bit }
      else { x.invalidate fun a _ => setOf a / 64 == i - 0x38 with rcOff := x.rcOff ||| bit }
    else s
  | none => s

/-- BT_TSTAT of a slice that has ended (R508). -/
def State.sliceReport (s : State) (x : Slice) (result dur : Nat) : State :=
  let n := (s.steward.repairs.filter fun e => fld e 0 12 == x.site.val).length
  s.onTile x.site fun t => t.setReg Reg.BT_TSTAT (at32 x.item 24 ||| at32 result 22 ||| at32 (min 255 n) 12 ||| at32 dur 0)

/-- A slice that ends before its last step: its result, with an interruption that no command states (assumption 38). -/
def State.sliceStops (s : State) (x : Slice) (result : Nat) : State :=
  { s.sliceReport x result (Config.sliceTime s.fresh).toNat with fresh := s.fresh + 1 }

/-- The TEST buckets of a slice's tile and port return to their values (R491). -/
def State.restoreBuckets (s : State) (x : Slice) : State :=
  let s := (s.settleBucket (.tile x.site) 3).settleBucket (.port x.port) 3
  (s.onTile x.site fun t => t.setReg (Reg.WF_BKT + 12) x.bkt).onTile (siteOfPort x.port) fun t =>
    t.setReg (Reg.WF_PBKT + 12) x.pbkt

/-- A slice ended at once, its result discarded, its lane group or cache eighth in use again (R496). -/
def State.dropSlice (s : State) (site : Site) : State :=
  match s.steward.slice with
  | some x =>
    if x.site = site then
      let s := ((s.laneTest x.site x.item true).restoreBuckets x).sliceStops x 3
      (((s.onSteward fun y => { y with slice := none }).turnRotation).vidRelease).wakeAll .stitch
    else s
  | none => s

/-! ## Hems (R461, R462) -/

/-- Packets that a hemmed tile no longer emits. -/
def hemStops (b : PktBody) : Bool :=
  match b with
  | .token _ _ _ _ => true
  | .credit _ _ _ _ => true
  | .data _ => true
  | .greq _ => true
  | .preq _ _ _ => true
  | _ => false

/-- A COMPUTE or SITE hem at its tile (R462); a scan of it goes no further. -/
def Tile.hemNow (t : Tile) (e : Env) (kind : Nat) : Tile :=
  let old := t.reg Reg.TC_HEM
  let t := t.setReg Reg.TC_HEM (0x80000000 ||| at32 (if bitOf old 31 then max kind (fld old 0 2) else kind) 0)
  let t := (t.abortUnits e allUnits).endWait.haltCore
  { t with outq := t.outq.filter fun p => !hemStops p.body, warpq := [], sh := { t.sh with toSend := [] }
           freeze := { t.freeze with scanBusy := false, scanLeft := 0, scanAcks := [], scanPend := none } }

/-- HEM at a site (R461). -/
def State.hemIn (s : State) (site : Site) (kind : Nat) : State :=
  if kind < 2 then (s.onTile site fun t => t.hemNow (s.env site) kind).dropSlice site
  else if kind = 2 then
    match allPorts.find? fun p => siteOfPort p = site with
    | some p => (s.onPort p fun x => { x with hemmed := true }).portDown p
    | none => s
  else s

def execHem (site : Site) (kind : BitVec 8) (s : State) : Host.Outcome State Fault Refusal :=
  live s fun s => s.gotCtrl site (.hem kind) fun s => s.hemIn site kind.toNat

/-! ## Segments (R463, R464) -/

/-- The weave of a tile (R293). -/
def Tile.weave (t : Tile) : BitVec 16 := BitVec.ofNat 16 (fld (t.act 6 2) 16 16)

def Tile.ltid (t : Tile) : Nat := fld (t.act 6 2) 0 16

/-- SEGHOLD (R463): a tile of the segment stops firing and answers. -/
def State.segholdIn (s : State) (site : Site) (n : StreamNo) (w : BitVec 16) : State :=
  let t := s.tile site
  if t.stream? = some n && t.weave = w && !t.hemmed then
    s.setTile site (({ t with freeze := { t.freeze with seghold := true } } : Tile).tell site .segheld)
  else s

def execSeghold (site : Site) (stream : StreamNo) (weave : BitVec 16) (s : State) : Host.Outcome State Fault Refusal :=
  live s fun s => s.gotCtrl site (.seghold stream weave) fun s => s.segholdIn site stream weave

/-- SEGHELD (R463): the loom sends the site no token until SEGGO. -/
def execSegheld (site : Site) (s : State) : Host.Outcome State Fault Refusal :=
  live s fun s => s.gotAtt site .segheld fun s =>
    if (s.tile site).freeze.seghold && (s.loomSite site).stream.isSome then
      s.setLoomSite site { s.loomSite site with noTokens := true } else s

/-- SEGGO (R463). -/
def execSeggo (site : Site) (stream : StreamNo) (weave : BitVec 16) (s : State) : Host.Outcome State Fault Refusal :=
  live s fun s => s.gotCtrl site (.seggo stream weave) fun s => s.onTile site fun t =>
    if t.stream? = some stream && t.weave = weave then ({ t with freeze := { t.freeze with seghold := false } } : Tile) else t

/-- A token whose producer is the failed tile; its credit is not returned (R464). -/
def fromSite (f : Site) (k : TokSrc) : Bool :=
  match k with
  | .seq a _ _ _ _ => a == f
  | .loom _ _ => false

/-- The units and steering units of a tile. -/
def allSeqs : List Nat := [0, 1, 2, 3, 4, 8, 9, 10, 11]

/-- A queue emptied by the segment reset; the producers of its tokens get their credits back. -/
def Tile.resetQueue (t : Tile) (me f : Site) (u q : Nat) : Tile :=
  let x := t.queue u q
  let t := x.spills.foldl (fun t r => t.freeSpill r.off) (t.setQueue u q Queue.reset)
  x.toks.foldl (fun t k => if fromSite f k.src then t else t.dropCredit me k.tok k.src) t

/-- The segment reset at a tile (R464). -/
def Tile.segmentReset (t : Tile) (e : Env) (f : Site) : Tile :=
  let t := { t with helds := t.helds.filter fun h => !fromSite f h.src }
  let t := t.abortUnits e allUnits
  let t := t.firings.foldl (fun t x => t.unreserve x) t
  let t := allSeqs.foldl (fun t u => (List.range 8).foldl (fun t q => t.resetQueue e.me f u q) t) t
  let t := { t with firings := [], helds := t.helds.map fun h : Held => { h with cur := false, uses := 0 } }
  let t := t.release e.me
  (List.range 5).foldl (fun t u => t.setSeq u { SeqSt.reset with run := bitOf (t.act u 0) 31 }) t

/-- A port of the tile sends to the site now in the failed one's place. -/
def Tile.sendsTo (t : Tile) (x : Steward) (spare : Site) (u p : Nat) : Bool :=
  let d := t.dstWord u p
  if fld d 30 2 = 1 then t.redirect (fld d 28 2) == some spare
  else fld d 30 2 == 2 && match siteAt (fld d 22 6) (fld d 16 6) with
    | some n => n != spare && x.darned n == spare
    | none => false

/-- Ports to the darned site hold CREDITS credits (R465). -/
def Tile.resetCredits (t : Tile) (x : Steward) (spare : Site) : Tile :=
  allSeqs.foldl (fun t u => (t.portsInUse u).foldl (fun t p =>
    if t.sendsTo x spare u p then t.setPortSt u p { t.portSt u p with credits := t.portCredits u p, outstanding := 0 } else t) t) t

/-! ## Darning (R467 to R480) -/

/-- A spare of the die: not hemmed and not used up (R468). -/
def State.spareOk (s : State) (n : Site) : Bool := s.steward.site n.val == 2 && !(s.tile n).hemmed

/-- The spare for a failed site: its field first, then the smallest distance, then the lowest index; one in a slice only if no
other qualifies (R468). -/
def State.chooseSpare (s : State) (f : Site) : Option Site :=
  let key := fun n : Site => (if s.inSlice n then 2000 else 0) + (if fieldOf n.val = fieldOf f.val then 0 else 1000) +
    siteDist f.val n.val
  (allSites.filter s.spareOk).foldl (fun b n => match b with
    | some c => if key n < key c then some n else b
    | none => some n) none

/-- The address of a site's darning table entry (R467). -/
def Steward.darnEntryAddr (x : Steward) (f : Site) : Nat :=
  fld (x.reg Reg.ST_DARNTAB_HI) 0 28 * 2 ^ 32 + fld (x.reg Reg.ST_DARNTAB_LO) 6 26 * 64 + 32 * f.val

/-- A darning that cannot go on: SHORT, the stream halted whatever its policy, the segment held (R479). -/
def State.darnShort (s : State) (d : Darning) (outcome : Nat) : State :=
  let s := s.onSteward fun x => ({ x.flagBit Reg.ST_DARN_STAT 30 with darning := none }).outcome d.logId outcome 0
  match d.stream with
  | some n => s.haltStream n 4 1
  | none => s

/-- The spare is chosen, and the failed site's table entry read; with no spare, a full map or no table the die is short (R468,
R479, R480). -/
def State.darnSpare (s : State) (d : Darning) : State :=
  match s.chooseSpare d.failed with
  | none => s.darnShort d 3
  | some n =>
    if 256 ≤ s.steward.darnMap.length || !bitOf (s.steward.reg Reg.ST_DARNTAB_HI) 31 then s.darnShort d 3
    else
      let d := { d with spare := n, step := .entry, recs := none, asked := false, gets := 0, getErrs := [], bad := 0 }
      (s.onSteward fun x => { x with darning := some d }).stewardAsk fun p => stewardReads p (s.steward.darnEntryAddr d.failed) 32

/-- A darning starts: HEM and SEGHOLD go out, and a spare is sought (R463, R471). -/
def State.darnStart (s : State) (f : Site) (kind id : Nat) : State :=
  let t := s.tile f
  let s := s.onSteward fun x => x.tell f (.hem (BitVec.ofNat 8 kind))
  let s := match t.stream? with
    | some n => s.onSteward fun x => x.tellAll (.seghold n t.weave)
    | none => s
  s.darnSpare { failed := f, holder := f, spare := f, kind := kind, step := .entry, image := 0, ibytes := 0, wrow := 0, nrows := 0
                weights := 0, recs := none, tries := 0, refused := 0, stream := t.stream?, weave := t.weave, logId := id
                asked := false, gets := 0, getErrs := [], bad := 0 }

/-- The next darning in the order of the faults, once none is open (R476); a site hemmed since is passed over. -/
def State.darnNext : Nat → State → State
  | 0, s => s
  | fuel + 1, s =>
    if s.steward.darning.isSome then s
    else match s.steward.darnQueue with
      | [] => s
      | (f, kind, id) :: rest =>
        let s := s.onSteward fun x => { x with darnQueue := rest }
        State.darnNext fuel (if s.steward.site f.val = 1 && !(s.tile f).hemmed then s.darnStart f kind id else s)

def State.darnGoOn (s : State) : State := State.darnNext (s.steward.darnQueue.length + 1) s

/-- A spare that fails or is silent is hemmed, and fenced by a commit of its own at once (R459, R475). -/
def State.hemSpare (s : State) (n : Site) (kind : Nat) : State :=
  (s.onSteward fun x => x.tell n (.hem (BitVec.ofNat 8 kind))).applySites [(n, hemState n kind)]

/-- What a fault whose policy calls for darning does at the site that it hems (R459, R460, R476, R483). -/
def State.callDarn (s : State) (f : Site) (kind id : Nat) : State :=
  let busy := match s.steward.darning with
    | some d => d.failed == f || d.holder == f
    | none => false
  if (s.tile f).hemmed || busy then s
  else if s.steward.site f.val = 2 then s.hemSpare f kind
  else if s.steward.site f.val = 1 then
    (s.onSteward fun x => { x with darnQueue := x.darnQueue ++ [(f, kind, id)] }).darnGoOn
  else s

/-- The side of a site whose input has gone down, for the next LINK fault (R340, R483). -/
def Tile.downSide (t : Tile) : Nat :=
  (t.router.linkFaults.head?.orElse fun _ => [0, 1, 2, 3].find? fun i => bitOf t.router.down i).getD 0

/-- The site that a fault hems, and the kind of hem (R461, R483). -/
def State.faultTarget (s : State) (site : Site) (code : Nat) : Site × Nat :=
  if code = 0x0A then
    if isPortSite site.val then ((stepSide site (s.tile site).downSide).getD site, 1) else (site, 1)
  else (site, if code = 0x0D then 1 else 0)

/-- The RECONF bucket of an attachment (R361). -/
def reconfReg (a : FieldNo) : Nat := Reg.ST_ABKT + 0x40 * a.val + 20

/-- The RECONF bucket of the spare's attachment is unlimited while the image goes out (R471). -/
def State.raiseReconf (s : State) (n : Site) : State :=
  let a := fieldNo n
  (s.settleBucket (.attach a) 5).onSteward fun x =>
    { x.setReg (reconfReg a) 0xFFFFFFFF with darning := x.darning.map fun d => { d with reconf := some (x.reg (reconfReg a)) } }

/-- That bucket restored (R471). -/
def State.lowerReconf (s : State) : State :=
  match s.steward.darning with
  | none => s
  | some d => match d.reconf with
    | none => s
    | some w => (s.settleBucket (.attach (fieldNo d.spare)) 5).onSteward fun x =>
        { x.setReg (reconfReg (fieldNo d.spare)) w with darning := some { d with reconf := none } }

/-- Darning of a site has gone wrong at its spare: the spare is hemmed; before the commit another is tried, after it another takes
over the claim (R475). -/
def State.spareFailed (s : State) (d : Darning) (kind : Nat) : State :=
  let d := { d with reconf := none }
  let s := s.lowerReconf.onSteward fun x => match x.stitch? 0xFFFF with
    | some k => if k.committed then x.dropStitch 0xFFFF else x.abortStitch k
    | none => x
  if d.step == .restream || s.steward.site d.spare.val = 1 then
    (s.onSteward fun x => x.tell d.spare (.hem (BitVec.ofNat 8 kind))).darnSpare { d with holder := d.spare, kind := kind }
  else (s.hemSpare d.spare kind).darnSpare d

/-- FAULT (R457, R460): logged, counted, and handled as its policy says. -/
def State.faultIn (s : State) (site : Site) (code unit us : Nat) (reg : Word) : State :=
  let id := s.steward.flogCount
  let s := s.onSteward fun x => x.log site code unit us reg s.periods
  if code = 0x0B then s.portFault site id
  else if code = 0 || 0x0F ≤ code then s
  else
    let (x, darn) := s.steward.countFault site code
    let s := { s with steward := x }
    let (f, kind) := s.faultTarget site code
    let s := if code = 0x0A then s.onTile site fun t => t.onRouter fun r => { r with linkFaults := r.linkFaults.drop 1 } else s
    let mine := match s.steward.darning with
      | some d => if d.spare = f && d.failed ≠ f then some d else none
      | none => none
    let silentSpare := code == 0x0D && s.steward.site f.val == 2
    if !(darn || silentSpare) then s
    else match mine with
      | some d => (s.spareFailed d kind).darnGoOn
      | none => s.callDarn f kind id

/-- FAULT (R457, R460, R484): the message of a tile, router or port. -/
def execFault (site : Site) (f : FaultMsg) (s : State) : Host.Outcome State Fault Refusal :=
  live s fun s =>
    s.receive (fun p => pointSite p.src = site && (match p.body with | .ctrl (.fault g) => sameFault g f | _ => false)) fun s =>
      s.faultIn site f.code.toNat f.unit.toNat f.us.val f.reg

def execFaultCountReset (s : State) : Host.Outcome State Fault Refusal :=
  live s fun s => s.onSteward fun x => { x with counts := [] }

/-- WATCHDOG (R458): a unit with a command in progress, or a core stalled in an issue or a wait. -/
def execWatchdog (site : Site) (unit : BitVec 4) (s : State) : Host.Outcome State Fault Refusal :=
  live s fun s => s.onTile site fun t =>
    match unitOfCode unit.toNat with
    | some u => if (t.unit u).running.isEmpty then t else t.raise site 0x05 unit.toNat (t.reg (errReg u))
    | none => if unit = 0xC && t.core.mode == .stalled then t.raise site 0x05 0xC (t.reg Reg.TC_ERR) else t

/-! ### The table entry and the image (R467, R471, R475) -/

/-- A darning table entry that can be used: VALID, with its fields in their ranges; reserved bits are ignored (R13, R467). -/
def darnEntryOk (b : List Byte) : Bool :=
  let w := wordAt b 12
  bitOf w 31 && numAt b 8 4 % 4 == 0 && 8 ≤ numAt b 8 4 && numAt b 8 4 ≤ 98304 && fld w 0 12 + fld w 12 13 ≤ 4096

/-- The records of a darning image. -/
def imageRecs : Nat → List Byte → Option (List (List Word))
  | 0, _ => none
  | fuel + 1, b =>
    if b.isEmpty then some []
    else
      let len := 16 + 4 * recNwords [wordAt b 0]
      if b.length < len then none else (imageRecs fuel (b.drop len)).map (wordsOf b (len / 4) :: ·)

/-- A darning that fails for its image or its re-stream: the spare is hemmed and the failed site handled as with no spare left
(R475). -/
def State.darnFail (s : State) (d : Darning) : State :=
  let s := s.lowerReconf.onSteward fun x => match x.stitch? 0xFFFF with
    | some k => if k.committed then x.dropStitch 0xFFFF else x.abortStitch k
    | none => x
  let s := if d.step == .restream then s.onSteward fun x => x.tell d.spare (.hem 0) else s.hemSpare d.spare 0
  (s.darnShort d 2).darnGoOn

/-- The image is read (R471). -/
def State.readImage (s : State) (d : Darning) : State :=
  (s.onSteward fun x => { x with darning := some { d with step := .image, recs := none } }).stewardAsk fun p =>
    stewardReads p d.image d.ibytes

/-- An image that does not pass: read again once, then the darning fails (R475). -/
def State.imageBad (s : State) (d : Darning) : State :=
  let d := { d with reconf := none }
  let s := s.lowerReconf.onSteward fun x => match x.stitch? 0xFFFF with
    | some k => x.abortStitch k
    | none => x
  if d.tries = 0 then s.readImage { d with tries := 1 } else s.darnFail d

/-- The stitch of a darning is opened once the spare is awake and the image here; its records go before every other PATTERN packet
(R471). -/
def State.darnOpen (s : State) : State :=
  match s.steward.darning with
  | none => s
  | some d =>
    match d.recs with
    | none => s
    | some b =>
      if d.step != .image || (s.tile d.spare).asleep then s
      else match imageRecs 24577 b with
        | none => s.imageBad d
        | some rs =>
          let new := BitVec.ofNat 4 (fld ((rs.headD []).getD 1 0) 12 4)
          (s.onSteward fun x =>
            let x := { x with darning := some { d with step := .stitch } }
            let x := x.openStitch { num := 0xFFFF, new := new, sites := [d.spare], armed := [], switchedS := [], committed := false
                                    owner := none }
            { x with outq := rs.flatMap (recPkts d.spare) ++ x.outq }).raiseReconf d.spare

/-- DARN_ENTRY_READ (R467, R471). -/
def State.darnEntry (s : State) (ok : Bool) (b : List Byte) : State :=
  match s.steward.darning with
  | none => s
  | some d =>
    if d.step != .entry then s
    else if !(ok && darnEntryOk b) then (s.darnShort d 3).darnGoOn
    else
      let d := { d with image := numAt b 0 8 % 2 ^ 60, ibytes := numAt b 8 4, nrows := fld (wordAt b 12) 12 13, wrow := fld (wordAt b 12) 0 12
                        weights := numAt b 16 8 % 2 ^ 60 }
      let s := if s.inSlice d.spare then s else s.onTile d.spare Tile.startWake
      s.readImage d

def execDarnEntryRead (status : BitVec 3) (data : List Byte) (poison : Bool) (s : State) : Host.Outcome State Fault Refusal :=
  live s fun s =>
    let s := match s.steward.darning with
      | some d => s.stewardDone (s.steward.darnEntryAddr d.failed) 32
      | none => s
    s.darnEntry (status = 0 && !poison) (sliceBytes data 0 32)

/-- DARN_IMAGE_READ (R471, R475): a refused read is retried once. -/
def State.darnImage (s : State) (ok : Bool) (data : List Byte) : State :=
  match s.steward.darning with
  | none => s
  | some d =>
    if d.step != .image || d.recs.isSome then s
    else if ok then
      (s.onSteward fun x => { x with darning := some { d with recs := some (sliceBytes data 0 d.ibytes) } }).darnOpen
    else if d.refused = 0 then s.readImage { d with refused := 1 }
    else s.darnFail d

def execDarnImageRead (status : BitVec 3) (data : List Byte) (poison : Bool) (s : State) : Host.Outcome State Fault Refusal :=
  live s fun s =>
    let s := match s.steward.darning with
      | some d => s.stewardDone d.image d.ibytes
      | none => s
    s.darnImage (status = 0 && !poison) data

/-! ### The commit (R464, R465, R469, R470, R471, R474) -/

/-- The tiles that lose a warp neighbour where a site leaves service, with the side and the neighbour: the site itself, or where it is
fenced one that lay beyond its registers (R276, R470). -/
def State.warpUsers (s : State) (f : Site) (fenced : Bool) : List (Site × Nat × Site) :=
  let after := if fenced then s.onSteward fun x => x.setSite f.val 0 else s
  (allSites.filter fun n => n ≠ f && (siteX n.val = siteX f.val || siteY n.val = siteY f.val)).flatMap fun n =>
    [0, 1, 2, 3].filterMap fun i => match s.warpNbr n i with
      | some m => if m = f || after.warpNbr n i ≠ some m then some (n, i, m) else none
      | none => none

/-- WREDIR at a darning's commit: of the tiles that have lost their neighbour, of those already redirected to it, and of the
spare; a neighbour that is darned is named by its target (R469, R470). -/
def State.redirect (s : State) (users : List (Site × Nat × Site)) (mine : List (Option Site)) (f spare : Site) : State :=
  let s := users.foldl (fun s e => s.onTile e.1 fun t => t.setWredir e.2.1 (0x8000 + (s.steward.darned e.2.2).val)) s
  let s := s.onTiles s.someTiles fun _ t =>
    [0, 1, 2, 3].foldl (fun t i => if t.wredir i = 0x8000 + f.val then t.setWredir i (0x8000 + spare.val) else t) t
  s.onTile spare fun t => [0, 1, 2, 3].foldl (fun t i => t.setWredir i (match mine.getD i none with
    | some n => 0x8000 + (s.steward.darned n).val
    | none => 0)) t

/-- The darn map after a darning: entries that led to the holder lead to the spare, and the holder's own is added (R469). -/
def Steward.mapDarn (x : Steward) (f spare : Site) : Steward :=
  let m := x.darnMap.map fun e : Nat × Nat × Nat × Bool => if e.2.2.1 = f.val then (e.1, e.2.1, spare.val, true) else e
  let i := ((List.range 256).find? fun k => !m.any fun e => e.1 = k).getD 0
  { x with darnMap := Map.set noDarn m i (f.val, spare.val, true) }

/-- The claim of the failed tile passes to the spare: stream, buckets, stochastic settings, with n of R52 at 0, and the DARN bucket that
the steward sets for the re-stream (R366, R443, R473; assumption 73). -/
def State.passClaim (s : State) (d : Darning) : State :=
  let o := s.tile d.holder
  let s := [1, 2, 4].foldl (fun s c => s.settleBucket (.tile d.spare) c) s
  let x := s.loomSite d.holder
  let s := s.onTile d.spare fun t =>
    let t := [Reg.LA_SR_SEED, Reg.LA_SR_ADV, Reg.WF_BKT + 4, Reg.WF_BKT + 8].foldl (fun t r => t.setReg r (o.reg r)) t
    let t := t.setReg (Reg.WF_BKT + 16) (Config.darnBucket d.spare.val)
    { t.setReg Reg.TC_DARN (0x80000000 ||| at32 d.failed.val 0) with
      la := { t.la with draws := 0 }, errCounts := [0, 0, 0, 0, 0, 0] }
  match x.stream with
  | none => s
  | some n =>
    let s := s.onTile d.spare fun t => t.setReg Reg.TC_STREAM (o.reg Reg.TC_STREAM)
    let s := (s.onTile d.holder fun t => t.setReg Reg.TC_STREAM 0).unclaim d.holder
    let s := s.setLoomSite d.spare { x with credits := [16, 16, 16, 16] }
    if (s.ctx n).park == .credits && s.creditsReady n then s.wakeStream n else s

/-- The commit of a darning; its one DATA error comes before the claim passes, so that a strict stream's halt freezes the spare only at GO
(R474). -/
def State.darnCommit (s : State) (d : Darning) (k : Stitch) : State :=
  let s := s.lowerReconf
  let s := match d.stream with
    | some n => if d.told then s
      else (s.streamErr n 1).onSteward fun x => { x with darning := x.darning.map fun d : Darning => { d with told := true } }
    | none => s
  let users := s.warpUsers d.holder (hemState d.holder d.kind == 0)
  let mine := [0, 1, 2, 3].map fun i => ((s.tile d.holder).redirect i).orElse fun _ => s.warpNbr d.holder i
  let s := s.applySites [(d.holder, hemState d.holder d.kind), (d.spare, 1)]
  let s := s.onSteward fun x => x.mapDarn d.holder d.spare
  let s := (s.redirect users mine d.holder d.spare).passClaim d
  let segment := s.someTiles.filter fun n =>
    (s.tile n).freeze.seghold && (s.tile n).stream? == d.stream && (s.tile n).weave == d.weave && n ≠ d.holder
  let s := segment.foldl (fun s n => s.onTile n fun t => t.segmentReset (s.env n) d.holder) s
  let s := s.onTiles s.someTiles fun _ t => t.resetCredits s.steward d.spare
  s.onSteward fun x => x.commitStitch k

/-! ## Stitch answers (R306, R307, R438) -/

/-- A stitch that has ended is reported to the STITCH descriptor that asked for it. -/
def State.stitchResult (s : State) (k : Stitch) (status info : Nat) : State :=
  match k.owner with
  | none => s
  | some n =>
    let c := s.ctx n
    let s := match c.desc with
      | some d =>
        if d.op = 4 && d.num 18 2 = k.num.toNat && (d.stage == DescStage.image || d.stage == DescStage.awaits) then
          let s := s.keep n { d with status := some (status, info) }
          if c.park == Park.stitch then s.wakeStream n else s
        else s
      | none => s
    s.progress n

/-- ARMED (R307): once every participant has answered, COMMIT goes out. -/
def State.armedIn (s : State) (site : Site) (num : BitVec 16) : State :=
  match s.steward.stitch? num with
  | none => s
  | some k =>
    if k.committed || !k.sites.contains site then s
    else
      let k := { k with armed := if k.armed.contains site then k.armed else k.armed ++ [site] }
      let s := s.onSteward fun x => x.setStitch k
      if !k.sites.all k.armed.contains then s
      else match k.owner, s.steward.darning with
        | none, some d => if num = 0xFFFF then s.darnCommit d k else s.onSteward fun x => x.commitStitch k
        | _, _ => s.onSteward fun x => x.commitStitch k

def execArmed (site : Site) (stitch : BitVec 16) (s : State) : Host.Outcome State Fault Refusal :=
  live s fun s => s.gotAtt site (.armed stitch) fun s => s.armedIn site stitch

/-- A stitch that is aborted, with the cause that INFO reports (R307, R438); of a darning, what R475 says. -/
def State.stitchFails (s : State) (k : Stitch) (info : Nat) : State :=
  if k.committed then s
  else match k.owner, s.steward.darning with
    | none, some d => if info = 0x10 then (s.spareFailed d 0).darnGoOn else s.imageBad d
    | _, _ => (s.onSteward fun x => x.abortStitch k).stitchResult k 4 info

/-- FAILED (R306, R307). -/
def execFailed (site : Site) (stitch : BitVec 16) (cause : BitVec 8) (s : State) : Host.Outcome State Fault Refusal :=
  live s fun s => s.gotAtt site (.failed stitch cause) fun s =>
    match s.steward.stitch? stitch with
    | some k => if k.sites.contains site then s.stitchFails k cause.toNat else s
    | none => s

/-- SWITCHED (R306): the stitch ends once every participant has switched; a darning goes on to its re-stream (R471). -/
def State.switchedIn (s : State) (site : Site) (num : BitVec 16) : State :=
  match s.steward.stitch? num with
  | none => s
  | some k =>
    if !k.committed || !k.sites.contains site then s
    else
      let k := { k with switchedS := if k.switchedS.contains site then k.switchedS else k.switchedS ++ [site] }
      if !k.sites.all k.switchedS.contains then s.onSteward fun x => x.setStitch k
      else
        let s := s.onSteward fun x => x.dropStitch num
        match k.owner, s.steward.darning with
        | none, some d => s.onSteward fun x => { x with darning := some { d with step := .restream } }
        | _, _ => s.stitchResult k 0 0

def execSwitched (site : Site) (stitch : BitVec 16) (s : State) : Host.Outcome State Fault Refusal :=
  live s fun s => s.gotAtt site (.switched stitch) fun s => s.switchedIn site stitch

/-- ARM_TIMEOUT (R307, R438). -/
def execArmTimeout (stitch : BitVec 16) (s : State) : Host.Outcome State Fault Refusal :=
  live s fun s => match s.steward.stitch? stitch with
    | some k => s.stitchFails k 0x10
    | none => s

/-- SWITCH_TIMEOUT (R307, R438): the stitch stands. -/
def execSwitchTimeout (stitch : BitVec 16) (s : State) : Host.Outcome State Fault Refusal :=
  live s fun s => match s.steward.stitch? stitch with
    | some k =>
      if !k.committed then s
      else match k.owner, s.steward.darning with
        | none, some d => (s.spareFailed d 0).darnGoOn
        | _, _ => (s.onSteward fun x => x.dropStitch stitch).stitchResult k 4 0x11
    | none => s

/-! ## The re-stream (R471, R478) -/

/-- DARN_RESTREAM (R471): the spare's shuttle asks for the resident rows. -/
def State.darnRestream (s : State) (site : Site) : State :=
  match s.steward.darning with
  | none => s
  | some d =>
    if d.step != .restream || d.asked || d.spare ≠ site then s
    else
      let qs := (reachPieces d.weights (512 * d.nrows)).map fun g =>
        { user := .darn, goff := g.1, addr := (d.weights + g.1) % 2 ^ 60, len := g.2, data := none, poison := [] : ReachReq }
      let s := s.onSteward fun x => { x with darning := some { d with asked := true, gets := qs.length } }
      s.onTile site fun t => t.askReach site qs

def execDarnRestream (site : Site) (s : State) : Host.Outcome State Fault Refusal :=
  live s fun s => s.darnRestream site

/-- READY (R471): the last GET of the re-stream has completed; GO and SEGGO go out, and the loom sends to the segment again. -/
def State.readyIn (s : State) (site : Site) : State :=
  match s.steward.darning with
  | none => s
  | some d =>
    if d.step != .restream || !d.asked || d.gets ≠ 0 || d.spare ≠ site then s
    else if d.bad ≠ 0 then s.darnFail d
    else
      let s := s.onSteward fun x =>
        let x := x.tell site .go
        let x := match d.stream with
          | some n => x.tellAll (.seggo n d.weave)
          | none => x
        let w := x.reg Reg.ST_DARN_STAT
        ({ x.setReg Reg.ST_DARN_STAT (setFld w 0 16 (min 0xFFFF (fld w 0 16 + 1))) with darning := none }).outcome d.logId 1
          (at32 site.val 0)
      let s := s.someTiles.foldl (fun s n =>
        if (s.loomSite n).noTokens && (s.loomSite n).stream = d.stream && (s.tile n).weave = d.weave then
          s.setLoomSite n { s.loomSite n with noTokens := false } else s) s
      (s.wakeAll .held).darnGoOn

def execReady (site : Site) (s : State) : Host.Outcome State Fault Refusal :=
  live s fun s => s.readyIn site

/-- GO (R471, R474, R478): the spare's ready handshake ends; it is frozen with its stream if that is halted. -/
def State.goIn (s : State) (site : Site) : State :=
  let halted := match (s.tile site).stream? with
    | some n => (s.ctx n).mode == .halted
    | none => false
  s.onTile site fun t =>
    ({ t with freeze := { t.freeze with handshake := false, awaitGo := false, halt := t.freeze.halt || halted } } : Tile).applyFreeze

def execGo (site : Site) (s : State) : Host.Outcome State Fault Refusal :=
  live s fun s => s.gotCtrl site .go fun s => s.goIn site

/-! ## Liveness (R459) -/

/-- PING_RECEIVE: an enabled or spare site answers, from its router if it sleeps, unless the router is hemmed. -/
def execPingReceive (site : Site) (poll : Word) (s : State) : Host.Outcome State Fault Refusal :=
  live s fun s => s.gotCtrl site (.ping poll) fun s =>
    if (s.steward.site site.val = 1 || s.steward.site site.val = 2) && !(s.tile site).siteHem then
      s.onTile site fun t => t.tell site (.pong poll)
    else s

def noAnswer : Nat → Nat := fun _ => 0

def execPong (site : Site) (poll : Word) (s : State) : Host.Outcome State Fault Refusal :=
  live s fun s => s.gotAtt site (.pong poll) fun s => s.onSteward fun x =>
    { x with answered := Map.set noAnswer x.answered site.val poll.toNat }

/-- SILENT_TIMEOUT: neither of the last two polls has been answered; logged with unit 0xD and a zero register (R457). -/
def execSilentTimeout (site : Site) (s : State) : Host.Outcome State Fault Refusal :=
  live s fun s =>
    let x := s.steward
    let since := (x.poll - BitVec.ofNat 32 (Map.get noAnswer x.answered site.val)).toNat
    if (x.site site.val = 1 || x.site site.val = 2) && !(s.tile site).hemmed && 2 ≤ since then s.faultIn site 0x0D 0xD 2 0 else s

/-! ## Deadlock (R318 to R322) -/

/-- BLOCKED (R318): a queue holds 16 tokens, or an enabled output port no credit. -/
def Tile.blocked (t : Tile) : Bool :=
  allSeqs.any fun u => ((List.range 8).any fun q => 16 ≤ (t.queue u q).depth) || (t.portsInUse u).any fun p => (t.portSt u p).credits = 0

/-- The tiles that report for a weave. -/
def State.weaveTiles (s : State) (w : BitVec 16) : List Site :=
  s.someTiles.filter fun n => s.steward.site n.val = 1 && !(s.tile n).asleep && (s.tile n).ltid ≠ 0xFFFF && (s.tile n).weave = w

/-- A deadlock fault of a weave (R322): to the steward and to the stream's error policy. -/
def State.deadlock (s : State) (site : Site) : State :=
  let t := s.tile site
  let dl := setFld (t.reg Reg.TC_DL_STAT) 0 1 (if t.spillOrder.isEmpty then 0 else 1)
  let s := match t.stream? with
    | some n => s.streamErr n 4
    | none => s
  s.faultIn site 0x0C 0xD 0 dl

/-- One weave at the end of a window; with MAXSPILL = 0 the first further window makes the fault (assumption 25). -/
def State.windowOf (s : State) (w : BitVec 16) : State :=
  let l := s.weaveTiles w
  let k := Map.get noCount s.steward.dlSpills w.toNat
  if l.any fun n => (s.tile n).prog then s.onSteward fun x => { x with dlSpills := Map.set noCount x.dlSpills w.toNat 0 }
  else if bitOf (s.steward.reg Reg.ST_DL_CFG) 31 && (l.any fun n => (s.tile n).blocked) &&
      !l.any fun n => (s.tile n).freezeOn || (s.tile n).stitch.mode != .idle then
    let s := s.onSteward fun x =>
      l.foldl (fun x n => x.tell n (.spill w)) { x with dlSpills := Map.set noCount x.dlSpills w.toNat (k + 1) }
    if k = max 1 (fld (s.steward.reg Reg.ST_DL_CFG) 16 4) then s.deadlock (l.headD 0) else s
  else s

/-- DEADLOCK_WINDOW_END (R318, R322). -/
def execDeadlockWindowEnd (s : State) : Host.Outcome State Fault Refusal :=
  live s fun s =>
    let ws := (s.someTiles.filter fun n => (s.tile n).ltid ≠ 0xFFFF).map fun n => (s.tile n).weave
    let s := ws.dedup.foldl (fun s w => s.windowOf w) s
    s.onTiles s.someTiles fun _ t => { t with prog := false }

/-- SPILLED (R319, R322): a tile that found no room makes a deadlock fault. -/
def execSpilled (site : Site) (s : State) : Host.Outcome State Fault Refusal :=
  live s fun s =>
    let full : Pkt → Bool := fun p => p.src = .tile site && p.body = .ctrl (.spilled true)
    if s.net.any full then s.gotAtt site (.spilled true) fun s => s.deadlock site else s.gotAtt site (.spilled false) id

end Sys2Proof.Machine
end

