-- ==== Sys2Proof/Machine/Sleep.lean ====
section
/-! DEFINITION. Sleep and wake of a tile (R477, R478, R499, R567). -/

namespace Sys2Proof.Machine

/-- Registers that a return from sleep puts back to their reset values (R108, R136, R165, R189, R225, R258, R295, R333, R571). -/
def wakeResets (off : Nat) : Bool :=
  (0x0800 ≤ off && off < 0x0900) || off == Reg.LA_ERR || off == Reg.LA_ECC_COUNT || off == Reg.LA_POISON_COUNT ||
    (0x0C00 ≤ off && off < 0x0D00) || (0x0E00 ≤ off && off < 0x0F00) || off == Reg.SH_ERR || (off < 0x40 && off != 0) ||
    off == Reg.TC_SCAN_ROWS || off == Reg.TC_SCAN_STAT || off == Reg.TC_CFG || off == Reg.SP_CFG

/-- A tile as its wake leaves it: the void pattern in groups 0 to 6, every unit as its chapter says; the router, the steward's and
the loom's registers stay (R366, R485, R508), and the slot round counts from cycle `now` (R232). It fires nothing until its ready
handshake ends (R478). -/
def Tile.wakeState (t : Tile) (forDarning : Bool) (now : Nat) : Tile :=
  { Tile.reset with
    regs := t.regs.filter fun e => !wakeResets e.1
    groups := t.groups.filter fun e => e.1 == 7
    ports := t.ports, core := { CoreSt.reset with imem := t.core.imem }, la := { LaSt.reset with draws := t.la.draws }
    sh := { ShSt.reset with nextTag := t.sh.nextTag, nextXfer := t.sh.nextXfer }
    freeze := { FreezeSt.reset with handshake := true, awaitGo := forDarning }
    router := t.router, buckets := t.buckets, outq := t.outq, wires := t.wires, nextFiring := t.nextFiring, stamp := t.stamp
    sfGen := t.sfGen + 1, cycles := t.cycles, origin := now, thermThr := t.thermThr, fresh := t.fresh }

/-- The repair map of a tile: its fuse repairs and the soft repairs that the steward holds (R499). -/
def Steward.repairsOf (x : Steward) (site : Site) : List (BitVec 64) := (x.fuses.repairs ++ x.repairs).filter fun e => fld e 0 12 == site.val

/-- The repair map written into a tile, with the number of soft repairs then in force (R499, R508). -/
def State.writeRepairs (s : State) (site : Site) : State :=
  let n := (s.steward.repairs.filter fun e => fld e 0 12 == site.val).length
  s.onTile site fun t =>
    { t.setReg Reg.BT_TSTAT (setFld (t.reg Reg.BT_TSTAT) 12 8 (min 255 n)) with repairMap := s.steward.repairsOf site }

/-- WAKE_DONE (R477): what waited for the wake goes on. -/
def State.wakeDone (s : State) (site : Site) : State :=
  let t := s.tile site
  if !(t.asleep && t.waking) then s
  else
    let forDarning := match s.steward.darning with
      | some d => d.spare == site
      | none => false
    let s := ((s.setTile site (t.wakeState forDarning (s.time site))).writeRepairs site).onSteward fun x => x.sleepActed site
    (s.wakeAll .wake).darnOpen

def execWakeDone (site : Site) (s : State) : Host.Outcome State Fault Refusal :=
  live s fun s => s.wakeDone site

/-- A site is in a slice, an open stitch or a darning (R493, R567). -/
def State.engaged (s : State) (n : Site) : Bool :=
  s.inSlice n || (s.tile n).stitch.mode != .idle || (s.steward.stitches.any fun k => k.sites.contains n) ||
    match s.steward.darning with
    | some d => d.failed == n || d.holder == n || d.spare == n
    | none => false

/-- A site that ST_SLEEP acts on (R567). -/
def State.sleepable (s : State) (n : Site) : Bool :=
  s.steward.site n.val == 1 && (s.loomSite n).stream.isNone && !(s.tile n).hemmed && !s.engaged n

/-- ST_SLEEP written with GO = 1 (R567): an action that is refused sets ERR, and GO of one in progress stays; one that has nothing to do is
done at once. -/
def State.sleepCmd (s : State) (site : BitVec 12) (op : Nat) : State :=
  let s := s.onSteward fun x =>
    let w := x.reg Reg.ST_SLEEP
    x.setReg Reg.ST_SLEEP (setFld (setFld (setFld w 31 1 1) 28 2 (if op = 1 || op = 2 then op else fld w 28 2)) 0 12
      (if site.toNat < 2400 then site.toNat else fld w 0 12))
  let refuse := s.onSteward fun x =>
    (x.setReg Reg.ST_SLEEP (setFld (x.reg Reg.ST_SLEEP) 31 1 (if x.sleepActs.isEmpty then 0 else 1))).flagBit Reg.ST_SLEEP 30
  match siteOf site.toNat with
  | none => refuse
  | some n =>
    if !s.sleepable n || op = 0 || op = 3 then refuse
    else
      let s := s.onSteward fun x => { x with sleepActs := if x.sleepActs.contains n then x.sleepActs else x.sleepActs ++ [n] }
      if op = 1 then
        if (s.tile n).asleep then s.onSteward fun x => x.sleepActed n
        else (if (s.tile n).scrubbing then s.resetClaimBuckets n else s.startScrub n).onTile n fun t => { t with sleeping := true }
      else if (s.tile n).asleep then s.onTile n Tile.startWake
      else s.onSteward fun x => x.sleepActed n

def execSleep (site : BitVec 12) (s : State) : Host.Outcome State Fault Refusal :=
  live s fun s => s.sleepCmd site 1

def execWake (site : BitVec 12) (s : State) : Host.Outcome State Fault Refusal :=
  live s fun s => s.sleepCmd site 2

end Sys2Proof.Machine
end

