-- ==== Sys2Proof/Machine/SelfTest.lean ====
section
/-! DEFINITION. Self-test: slices in service, the rotation, the shutdown test and its record (R490 to R508). -/

namespace Sys2Proof.Machine

/-! ## The rotation (R494, R507) -/

/-- Site and item of the current slice, or of the next, which is the next rotation's first where this one has none left (R507). -/
def State.slicePos (s : State) : Nat × Nat :=
  match s.steward.slice with
  | some x => (x.site.val, x.item)
  | none => match s.nextItem, s.deferredLeft with
    | some (n, i), _ => (n.val, i)
    | none, (n, i, _) :: _ => (n, i)
    | none, [] => match (s.onSteward Steward.endRotation).nextItem with
      | some (n, i) => (n.val, i)
      | none => (0, 0)

/-- The item whose turn it is, taken from the rotation. -/
def State.takeItem (s : State) : Option (Site × Nat × Nat) × State :=
  let main := fun s : State => match s.nextItem with
    | some (n, i) => (some (n, i, 0), s.onSteward fun x => { x with rotSite := n.val, rotItem := i + 1 })
    | none => (none, s)
  match main s with
  | (some e, s) => (some e, s)
  | (none, s) => match s.deferredLeft with
    | (n, i, k) :: rest => ((siteOf n).map fun n => (n, i, k), s.onSteward fun x => { x with deferred := rest })
    | [] => main (s.onSteward Steward.endRotation)

/-! ## A slice (R491, R493, R495, R496) -/

/-- Two numbers differ by at most `p` parts in 1,000 of the second. -/
def within (p a b : Nat) : Bool := 1000 * (a - b + (b - a)) ≤ p * b

/-- The set point in force of a site's field in tenths of a millivolt: the code that VACK has answered (R538). -/
def State.setPoint (s : State) (n : Site) : Nat := 6500 + 50 * fld (s.steward.reg (Reg.ST_VSET + 4 * fieldOf n.val)) 0 6

/-- The conditions of R493 as measured: VCORE within 3 % of the set point in force, VSRAM within 3 % of 0.75 V, the clock from 1.2 to
2.2 GHz. -/
def State.condOk (s : State) (n : Site) (c : SliceCond) : Bool :=
  within 30 c.vcore (s.setPoint n) && within 30 c.vsram 7500 && 1200 ≤ c.clock && c.clock ≤ 2200

/-! ## The analogue checks (R497) -/

/-- Twice the median of some readings; none has none. -/
def median2 (l : List Nat) : Option Nat :=
  let l := l.insertionSort (· ≤ ·)
  if l.isEmpty then none else some (l.getD ((l.length - 1) / 2) 0 + l.getD (l.length / 2) 0)

/-- What the sensors of a site's neighbours read; a fenced site reads nothing (R497, R558). -/
def State.nearTemps (s : State) (n : Site) : List Nat :=
  (([0, 1, 2, 3].filterMap (stepSide n)).filter fun m => s.steward.site m.val != 0).map fun m => fld ((s.tile m).reg Reg.TC_CLK) 20 8

/-- The ANA item of a site passes (R497): the oscillator agrees with mcycle within 0.5 % and runs at 1.2 to 2.2 GHz, the sensor is within
5 degrees of the median of its neighbours and its reference within 1, the voltage monitor within 1 %. -/
def State.anaOk (s : State) (n : Site) (a : AnaTest) : Bool :=
  within 5 a.cycles a.mcycle && 24000 ≤ a.cycles && a.cycles ≤ 44000 && a.refErr.natAbs ≤ 10 && a.voltErr.natAbs ≤ 100 &&
    match median2 (s.nearTemps n) with
    | some m => (2 * a.temp.toNat - m) + (m - 2 * a.temp.toNat) ≤ 10
    | none => true

/-- The analogue checks of a lane group pass (R497): no bit error, and its PLL locked within 100 ppm. -/
def laneCheckOk (c : LaneCheck) : Bool := c.errors.all (· == 0) && c.locked && c.ppm.natAbs ≤ 100

/-- A result that the test of an item can have: of the ANA item and of a lane group, what R497 measures. -/
def testFits (i : Nat) : SliceTest → Bool
  | .ana _ => i == 0x21
  | .lanes _ => 0x30 ≤ i && i < 0x38
  | _ => i != 0x21 && !(0x30 ≤ i && i < 0x38)

/-- A slice may start at a site (R493). -/
def State.sliceable (s : State) (n : Site) (i : Nat) : Bool :=
  let t := s.tile n
  s.itemApplies n i && !t.hemmed && !t.freezeOn && !t.freeze.frozen && !t.scrubbing && !t.waking && !s.engaged n &&
    !t.freeze.seghold && !t.freeze.handshake &&
    match allPorts.find? fun p => siteOfPort p = n with
    | some p => !(0x30 ≤ i && i < 0x38) || (s.port p).inService (i - 0x30)
    | none => true

/-- A spare wakes for its test, and is left to sleep again with the void pattern (R477, R491). -/
def State.wakeForTest (s : State) (n : Site) : State :=
  (s.onTile n fun t => { t.wakeState false (s.time n) with asleep := true, freeze := FreezeSt.reset }).writeRepairs n

/-- Step 1 of a slice, and the freeze of step 2 (R491). -/
def State.beginSlice (s : State) (n : Site) (i k : Nat) : State :=
  let p := (s.tile n).reachPort n
  let freezes := itemFreezes i && !(s.tile n).asleep
  let x : Slice := { site := n, item := i, defers := k, step := if freezes then .freezing else .testing, result := none
                     discard := false, port := p, bkt := (s.tile n).reg (Reg.WF_BKT + 12)
                     pbkt := (s.tile (siteOfPort p)).reg (Reg.WF_PBKT + 12) }
  let s := (s.settleBucket (.tile n) 3).settleBucket (.port p) 3
  let s := if itemFreezes i && (s.tile n).asleep then s.wakeForTest n else s
  let s := s.onTile n fun t => t.setReg (Reg.WF_BKT + 12) 0xFFFFFFFF
  let s := s.onTile (siteOfPort p) fun t => t.setReg (Reg.WF_PBKT + 12) 0xFFFFFFFF
  let s := s.onSteward fun y => { y with slice := some x }
  let s := s.laneTest n i false
  if freezes then s.onTile n fun t => ({ t with freeze := { t.freeze with slice := true } } : Tile).applyFreeze else s

/-- SLICE_START (R494). -/
def State.sliceStart (s : State) (c : SliceCond) : State :=
  let x := s.steward
  if !bitOf (x.reg Reg.BT_CFG) 31 || x.slice.isSome || x.sdRunning || fld (x.reg Reg.ST_BOOT) 0 2 ≠ 2 then s
  else match s.takeItem with
    | (none, s) => s
    | (some (n, i, k), s) =>
      if s.condOk n c && s.sliceable n i then s.beginSlice n i k else (s.onSteward fun x => x.defer n.val i k).turnRotation

def execSliceStart (c : SliceCond) (s : State) : Host.Outcome State Fault Refusal :=
  live s fun s => s.sliceStart c

/-- The tile of a slice thaws, as far as nothing else holds it frozen (R327, R491). -/
def Tile.endSlice (t : Tile) : Tile := ({ t with freeze := { t.freeze with slice := false } } : Tile).endFreeze

/-- A slice ends: buckets back, thaw, its item deferred if it is to run again; what waited for it goes on, a scan of software's too (R491,
R494, R496, R468). -/
def State.closeSlice (s : State) (x : Slice) (thaw again : Bool) : State :=
  let s := s.restoreBuckets x
  let s := if thaw then s.onTile x.site Tile.endSlice else s
  let s := (s.onSteward fun y =>
    let y := { y with slice := none }
    if again then y.defer x.site.val x.item x.defers else y).turnRotation.startPended x.site
  let s := match s.steward.darning with
    | some d => if d.spare = x.site && d.step != DarnStep.entry then s.onTile x.site Tile.startWake else s
    | none => s
  s.wakeAll .stitch

/-- SLICE_FREEZE_TIMEOUT (R491, R508): the tile thaws, and the slice is deferred and reported as discarded (assumption 38). -/
def execSliceFreezeTimeout (s : State) : Host.Outcome State Fault Refusal :=
  live s fun s => match s.steward.slice with
    | some x =>
      if x.step == .freezing && !(s.tile x.site).freeze.frozen then
        (s.sliceStops x 3).closeSlice x true true
      else s
    | none => s

/-- The unit code and error register of a TEST fault (R457, R495). -/
def itemUnit (i : Nat) : Nat × Nat :=
  if i = 0 then (0, Reg.MU_ERR) else if i = 1 then (1, Reg.LA_ERR) else if i = 2 || i = 3 then (2, Reg.VC_ERR)
  else if i = 4 then (0xC, Reg.TC_ERR) else if i = 5 then (4, Reg.SH_ERR) else if i = 6 then (0xD, Reg.TC_WV_ERR)
  else if i < 0x20 then (3, Reg.SP_ERR) else if i = 0x20 then (0xF, Reg.WF_ERR) else if i = 0x21 then (0xD, Reg.TC_ERR)
  else (0xF, Reg.GL_RCERR)

/-- The result code of a slice (R508). -/
def resultCode (x : Slice) : Nat :=
  if x.discard then 3 else match x.result with
    | some (.repaired _) => 1
    | some .fail => 2
    | _ => 0

/-- The place whose spares replace a repair entry's element, and how many it has (R498, R502): a scratchpad bank, a lane and buffer of the
long accumulator, an eighth of the reach cache, or the whole of the other memories and the array. No rule numbers the elements of an INDEX
beyond its kind (assumption 74). -/
def repairPlace (e : BitVec 64) : Option (Nat × Nat) :=
  let i := fld e 16 16
  match fld e 12 4 with
  | 0 => if i < 4096 then some (i / 256, 8) else none
  | 1 => if i < 4096 then some (i / 1024 * 32 + i % 32, 2) else none
  | 2 => if i < 512 then some (0, 4) else none
  | 3 => if i < 32 then some (0, 1) else none
  | 4 => if i < 32 then some (0, 1) else none
  | 5 => some (0, 4)
  | 6 => some (0, 4)
  | 7 => if i < 8192 ∧ isPortSite (fld e 0 12) then some (i % 512 / 64, 16) else none
  | _ => none

/-- Two entries name one spare element. -/
def sameSpare (a b : BitVec 64) : Bool :=
  fld a 0 16 == fld b 0 16 && repairPlace a == repairPlace b && fld a 32 4 == fld b 32 4

/-- A repair that a spare is left for: one of its place's that neither a fuse repair nor a soft repair uses (R498, R499). -/
def Steward.spareFree (x : Steward) (e : BitVec 64) : Bool :=
  fld e 0 12 < 2400 && !(x.fuses.repairs ++ x.repairs).any (sameSpare e) &&
    match repairPlace e with
    | some (_, n) => fld e 32 4 < n
    | none => false

/-- What a test has found: a failing element with no spare left makes its item fail, and so does an analogue check (R497, R499). -/
def State.settleTest (s : State) (site : Site) : SliceTest → SliceTest
  | .repaired e => if fld e 0 12 == site.val && s.steward.spareFree e then .repaired e else .fail
  | .ana a => if s.anaOk site a then .pass else .fail
  | .lanes c => if laneCheckOk c then .pass else .fail
  | r => r

/-- A failed test is reported: a lane group is removed, anything else raises TEST (R495). -/
def State.testFailed (s : State) (x : Slice) : State :=
  match allPorts.find? fun p => siteOfPort p = x.site with
  | some p =>
    if 0x30 ≤ x.item && x.item < 0x38 then s.removeGroups p [x.item - 0x30]
    else if 0x38 ≤ x.item then s.onTile x.site fun t => t.raise x.site 0x0E 0xF ((s.port p).reg Reg.GL_RCERR)
    else s.onTile x.site fun t => t.raise x.site 0x0E (itemUnit x.item).1 (t.reg (itemUnit x.item).2)
  | none => s.onTile x.site fun t => t.raise x.site 0x0E (itemUnit x.item).1 (t.reg (itemUnit x.item).2)

/-- SLICE_TEST_END (R491, R493, R495, R496). -/
def State.sliceTestEnd (s : State) (r : SliceTest) (c : SliceCond) : State :=
  match s.steward.slice with
  | none => s
  | some x =>
    let t := s.tile x.site
    if !testFits x.item r || x.step == .restoring || (x.step != .testing && !t.scrubbing) then s
    else
      let r := s.settleTest x.site r
      let x := { x with step := .restoring, result := some r, discard := !s.condOk x.site c }
      let s := match r with
        | .repaired e => (s.onSteward fun y => { y with repairs := y.repairs ++ [e] }).writeRepairs x.site
        | _ => s
      let failed := r == .fail && !x.discard
      let s := if failed then s.testFailed x else s
      let keeps := failed && fld (s.steward.reg (Reg.ST_FPOL + 56)) 8 2 != 0
      if t.scrubbing then
        let s := if resultCode x = 2 then s else s.laneTest x.site x.item true
        (s.sliceStops x (resultCode x)).closeSlice x true x.discard
      else if failed && itemFreezes x.item && keeps then (s.sliceStops x 2).closeSlice x t.asleep false
      else s.onSteward fun y => { y with slice := some x }

def execSliceTestEnd (r : SliceTest) (c : SliceCond) (s : State) : Host.Outcome State Fault Refusal :=
  live s fun s =>
    let t := s.sliceTestEnd r c
    if s.testing.isSome && t.testing.isNone then t.vidRelease else t

/-- SLICE_END (R491, R495): the saved parts are restored, the tile thaws unless one of them fails its checks (R326), and the result is
reported; a discarded slice is deferred. A group or an eighth that failed stays out of use. -/
def State.sliceEnd (s : State) (dur : BitVec 12) (recs : List (List Word)) : State :=
  match s.steward.slice with
  | none => s
  | some x =>
    if x.step != .restoring then s
    else
      let s := if resultCode x = 2 then s else s.laneTest x.site x.item true
      let (s, ok) := s.sliceRestore x recs
      (s.sliceReport x (resultCode x) dur.toNat).closeSlice x ok x.discard

def execSliceEnd (dur : SliceDone) (s : State) : Host.Outcome State Fault Refusal :=
  live s fun s => s.sliceEnd dur.dur dur.recs

/-! ## The result record (R502) -/

/-- A port as a shutdown test's findings leave it: failed wires take spares and failed clocks CLKS±, or groups are removed (R384,
R501). -/
def Port.tested (p : Port) (ix : PortIx) (l : List ShutResult) : Port :=
  ((l.flatMap (·.groups)).filter fun e => e.1 = ix).foldl (fun p e =>
    let (p, out, gone) := p.decide e.2.1.val e.2.2
    ((if out = 2 then [e.2.1.val] else []) ++ gone).foldl (fun p g => p.setStat (24 + g) true) p) p

/-- The ports that passed every step that tested them: their own memories and logic, their PLL, and a group left. -/
def State.goodPorts (s : State) (l : List ShutResult) : List PortIx :=
  allPorts.filter fun p =>
    !(l.any fun r => r.portBad.contains p || r.plls.any fun e => e.1 = p && !laneCheckOk e.2) &&
      !(List.range 8).all ((s.port p).tested p l).removed

/-- The sites that failed a step: by their memories, logic or routers, or by an analogue check (R497, R501). -/
def State.failedSites (s : State) (l : List ShutResult) : List Site :=
  l.flatMap fun r => r.failed ++ r.routers ++ (r.ana.filter fun e => !s.anaOk e.1 e.2).map (·.1)

/-- The state to apply to a failed site: port-only where its port and its router pass (R25, R502). -/
def State.failedState (s : State) (l : List ShutResult) (n : Site) : BitVec 2 :=
  if (s.goodPorts l).any (fun p => siteOfPort p = n) && !l.any fun r => r.routers.contains n then 3 else 0

/-- The byte of a site: the state to apply, HEMMED and FAILED. -/
def State.siteByte (s : State) (l : List ShutResult) (n : Site) : Nat :=
  let hem := (s.tile n).hemmed
  let fail := hem || (s.failedSites l).contains n
  let st := if fail then s.failedState l n else s.steward.site n.val
  st.toNat + (if hem then 4 else 0) + if fail then 8 else 0

/-- The byte of a lane group in one direction. -/
def Port.spareByte (p : Port) (g : Nat) (send : Bool) : Nat :=
  let b := fld (p.reg (spareReg send g)) (8 * (g % 4)) 8
  (if p.removed g then 128 else 0) + (if 128 ≤ b then 64 else 0) + b % 64

/-- The record's bytes before its signature, for a test of the given kind and results. -/
def State.recordBody (s : State) (kind : Nat) (l : List ShutResult) (ms : Nat) : List Byte :=
  let x := s.steward
  let sites := allSites.map fun n => s.siteByte l n
  let nfail := (sites.filter (8 ≤ ·)).length
  leBytes 4 (3 <<< 28 ||| kind <<< 24 ||| x.fuses.stepping.toNat <<< 8 ||| x.fuses.grade.toNat) ++
    leBytes 4 (7309 + 8 * x.repairs.length) ++ leBytes 8 x.fuses.dieid.toNat ++ leBytes 4 (Config.fuseCrc x.fuses.seedId).toNat ++
    leBytes 4 (nfail <<< 16 ||| x.repairs.length) ++ leBytes 4 ms ++ leBytes 4 x.rotations ++
    List.replicate 24 0 ++ leBytes 8 0 ++ sites.map (BitVec.ofNat 8) ++
    (allPorts.flatMap fun p => (List.range 8).flatMap fun g =>
      let q := (s.port p).tested p l
      [BitVec.ofNat 8 (q.spareByte g false), BitVec.ofNat 8 (q.spareByte g true)]) ++
    x.repairs.flatMap fun e => leBytes 8 e.toNat

/-- USED set in a record's body. -/
def setUsed (b : List Byte) : List Byte := b.take 56 ++ [1] ++ b.drop 57

/-- A signature of the die's identity key over bytes, with the n-th draw of the entropy source (R510, R519). -/
def Steward.sign (x : Steward) (xi b : List Byte) : List Byte := Config.mldsaSign xi (Config.shake256 b 64) (Config.entropy x.signs)

/-- BT_REC (R507). -/
def Steward.recAddr (x : Steward) : Nat := fld (x.reg Reg.BT_REC_HI) 0 28 * 2 ^ 32 + (x.reg Reg.BT_REC_LO).toNat

/-- The record built, signed and written, that of a shutdown test with its WRACK still to come; without an identity key there is none
(R501, R503, R517). -/
def State.writeRecord (s : State) (kind : Nat) : Option State :=
  let x := s.steward
  match x.xi with
  | none => none
  | some xi =>
    let body := s.recordBody kind x.sdFound ((s.periods - x.sdStart) / 100)
    let out := (if kind = 2 then setUsed body else body) ++ x.sign xi body
    let s := s.onSteward fun x => { x with signs := x.signs + 1 }
    some (if kind = 1 then s.stewardAsk fun p => stewardWrites p x.recAddr out else s.stewardSend fun p => stewardWrites p x.recAddr out)

/-! ## The shutdown test (R500, R501, R503) -/

def Steward.setSd (x : Steward) (v : Nat) : Steward := x.setReg Reg.BT_STAT (setFld (x.reg Reg.BT_STAT) 29 3 v)

/-- Every stream context is IDLE. -/
def State.allIdle (s : State) : Bool := s.loom.ctxs.all fun e => e.2.mode == .idle && e.2.park == .none

/-- SHUTDOWN_TEST (R500): the test starts, and a slice in progress ends with the rotation. -/
def State.shutdownTest (s : State) : State :=
  if s.steward.sdRunning then s
  else if !s.allIdle || s.steward.darning.isSome then s.onSteward fun x => x.flagBit Reg.BT_STAT 28
  else
    let s := match s.steward.slice with
      | some x => (((s.laneTest x.site x.item true).sliceStops x 3).closeSlice x true false).vidRelease
      | none => s
    s.onSteward fun x => { x.setSd 1 with sdStep := 1, sdStart := s.periods, sdFound := [] }

def execShutdownTest (s : State) : Host.Outcome State Fault Refusal := live s fun s => s.shutdownTest

/-- Every site that sleeps wakes (R501). -/
def State.wakeSites (s : State) : State :=
  let l := allSites.filter fun n => (s.tile n).asleep && s.steward.site n.val ≠ 0
  l.foldl State.writeRepairs (s.onTiles l fun n t => t.wakeState false (s.time n))

/-- The site states that a test's findings call for: a failed site is fenced, or port-only where its port passes (R29, R502). -/
def State.failedStates (s : State) (l : List ShutResult) : List (Site × BitVec 2) :=
  ((s.failedSites l).filter fun n => s.steward.site n.val ≠ 0).map fun n => (n, s.failedState l n)

/-- For each enabled site removed at start-up one spare is promoted, of the same field where there is one (R29); among several, the one of
the lowest site index (assumption 45). With no spare left the grade-shortfall event is raised. -/
def Steward.promote (x : Steward) (removed : List Site) : Steward :=
  removed.foldl (fun x n =>
    let spares := allSites.filter fun m => x.site m.val = 2
    match (spares.find? fun m => fieldOf m.val = fieldOf n.val).orElse fun _ => spares.head? with
    | some m => x.setSite m.val 1
    | none => { x with gradeShort := true }) x

/-- Site states set at start-up (R29): the sites named move to their states, and spares are promoted. -/
def Steward.startSites (x : Steward) (l : List (Site × BitVec 2)) : Steward :=
  let l := l.filter fun e => x.site e.1.val ≠ 0 && (e.2 = 0 || (e.2 = 3 && isPortSite e.1.val))
  let removed := (l.map (·.1)).filter fun n => x.site n.val = 1
  (l.foldl (fun x e => x.setSite e.1.val e.2) x).promote removed.dedup

/-- Sites promoted at start-up are awake, and every spare asleep (R25). -/
def State.settleSleep (s : State) : State :=
  s.onTiles (allSites.filter fun n => (s.tile n).asleep != (s.steward.site n.val == 2)) fun n t =>
    { t with asleep := s.steward.site n.val == 2 }

/-- Site states set at start-up: the router and the port of a site that is fenced go off, as at a commit (R25, R29). -/
def State.startSites (s : State) (l : List (Site × BitVec 2)) : State :=
  let was := s.steward
  let s := s.onSteward fun x => x.startSites l
  let gone := ((l.map (·.1)).filter fun n => was.site n.val ≠ 0 && s.steward.site n.val = 0).dedup
  (gone.foldl State.routerOff s).settleSleep

/-- A repair of a test's: made where a spare is left, or else the site fails (R499, R501). -/
def Steward.tryRepair (a : Steward × List Site) (e : BitVec 64) : Steward × List Site :=
  if a.1.spareFree e then ({ a.1 with repairs := a.1.repairs ++ [e] }, a.2)
  else (a.1, a.2 ++ (siteOf (fld e 0 12)).toList)

/-- The repairs of a step made, and what the step has found. -/
def State.takeRepairs (s : State) (r : ShutResult) : State × ShutResult :=
  let (x, lost) := r.repairs.foldl Steward.tryRepair (s.steward, [])
  ((r.repairs.filterMap fun e => siteOf (fld e 0 12)).foldl State.writeRepairs { s with steward := x },
    { r with failed := r.failed ++ lost })

/-- SHUTDOWN_STEP_END (R501, R503): steps 1 to 6 of the shutdown test, or 2 to 6 of a full test at start-up, which are numbered 12 to
16; steps 3 and 6 run at three set points (R544); after the last the record is written. -/
def State.shutdownStepEnd (s : State) (r : ShutResult) : State :=
  let k := s.steward.sdStep
  if !((1 ≤ k && k ≤ 6) || (12 ≤ k && k ≤ 16)) then s
  else
    let s := if k = 1 then s.wakeSites else s
    let (s, r) := s.takeRepairs r
    let s := s.onSteward fun x => { x with sdStep := k + 1, sdFound := x.sdFound ++ [r] }
    let s := if k = 2 || k = 5 || k = 12 || k = 15 then s.testCodes else s
    if k = 6 then match s.writeRecord 1 with
      | some s => s
      | none => s.onSteward fun x => { x.setSd 3 with sdStep := 0 }
    else if k = 16 then
      let s := (s.onSteward fun x => { x with sdStep := 0 }).startSites (s.failedStates s.steward.sdFound)
      (s.writeRecord 2).getD s
    else s

def execShutdownStepEnd (r : ShutResult) (s : State) : Host.Outcome State Fault Refusal :=
  live s fun s => s.shutdownStepEnd r

/-- SHUTDOWN_RECORD_ACK (R501). -/
def execShutdownRecordAck (ok : Bool) (s : State) : Host.Outcome State Fault Refusal :=
  live s fun s =>
    if s.steward.sdStep = 7 then
      (s.stewardDone s.steward.recAddr 600000).onSteward fun x => { x.setSd (if ok then 2 else 3) with sdStep := 0 }
    else s

end Sys2Proof.Machine
end

