-- ==== Sys2Proof/Machine/Boot.lean ====
section
/-! DEFINITION. Reset, boot, the protection lock, attestation and the firmware's update in service (R509 to R530, R539, R540). -/

namespace Sys2Proof.Machine

/-! ## Reset (R514, R517, R539, R540) -/

/-- The identity key pair's public part (R517). -/
def Steward.public (x : Steward) : Option (List Byte) := x.xi.map Config.mldsaPublic

/-- The 32 bytes that the identity key is made from (R517). -/
def Fuses.identity (f : Fuses) (fp : BitVec 256) : List Byte :=
  Config.shake256 (Config.idSeed f.seedId ++ leBytes 32 fp.toNat ++ leBytes 8 f.dieid.toNat) 32

/-- ST_ID and ST_DIEID as the fuses set them, and the fuse integrity flag (R531). -/
def Steward.fuseRegs (x : Steward) (bad : Bool) : Steward :=
  let f := x.fuses
  let x := x.setReg Reg.ST_ID (0x30000000 ||| at32 f.grade.toNat 24 ||| at32 f.stepping.toNat 16 ||| flag32 bad 0)
  (x.setReg Reg.ST_DIEID_LO (f.dieid.setWidth 32)).setReg Reg.ST_DIEID_HI (BitVec.ofNat 32 (f.dieid.toNat / 2 ^ 32))

/-- Steps 1, 2 and 4 of the boot sequence: the SRAM scrubbed, the fuses and the identity key (R26, R514, R517, R531, R532). -/
def Steward.identify (x : Steward) (fp : Option (BitVec 256)) : Steward :=
  let f := x.fuses
  let odd := f.site.any fun e => e.2 == 3 && !isPortSite e.1
  let x := { x.fuseRegs (!f.crcOk || odd) with data := [], sramBad := [], regions := [[], []] }
  match fp with
  | none => x
  | some v =>
    let xi := f.identity v
    let digest := Config.shake256 (Config.mldsaPublic xi) 64
    let x := (List.range 16).foldl (fun x n => x.setReg (Reg.ST_IDKEY + 4 * n) (wordAt digest (4 * n))) { x with xi := some xi }
    x.flagBit Reg.ST_ID 2

def Steward.setStage (x : Steward) (v : Nat) : Steward := x.setReg Reg.ST_BOOT (setFld (x.reg Reg.ST_BOOT) 0 2 v)

/-- RESET_RELEASE (R387, R499, R514, R539): the steward boots, the fuse repairs come into force, and the 96 ports start; a fuse check that
fails ends the boot there. `fp` is the fingerprint, if it can be reconstructed. -/
def State.release (s : State) (fp : Option (BitVec 256)) : State :=
  let s := { s with inReset := false }.onSteward fun x =>
    let x := x.identify fp
    if x.fuses.crcOk then x else x.setStage 3
  let s := ((s.steward.fuses.repairs.filterMap fun e => siteOf (fld e 0 12)).dedup).foldl State.writeRepairs s
  let s := s.onPorts (allPorts.filter s.portOn) fun _ p => { p with mode := .lock, aliveOut := true }
  s.settleSleep

def execResetRelease (fp : Option (BitVec 256)) (s : State) : Host.Outcome State Fault Refusal :=
  .next (if s.inReset then s.leaves (s.release fp) else s)

/-- RESET_ASSERT (R386, R531, R540): all state but the fuses is lost; what has been sent, the queue and the model's counter of free values
are not the chiplet's. -/
def execResetAssert (s : State) : Host.Outcome State Fault Refusal :=
  .next (if s.inReset then s else
    { State.reset with pending := s.pending, out := s.out, fresh := s.fresh
                       steward := ({ Steward.reset with fuses := s.steward.fuses, signs := s.steward.signs } : Steward).fuseRegs false })

/-! ## Manifests (R512, R513) -/

/-- A byte range of a manifest is zero. -/
def zeroAt (b : List Byte) (o n : Nat) : Bool := numAt b o n == 0

/-- The form of a manifest is as R512 states. -/
def manifestForm (m : List Byte) : Bool :=
  let w := wordAt m 0
  fld w 28 4 == 3 && fld w 24 4 == 1 && fld w 20 4 == 0 && fld w 1 15 == 0 && fld (wordAt m 96) 2 30 == 0 && zeroAt m 100 52 &&
    numAt m 16 4 % 8 == 0 && 8 ≤ numAt m 16 4 && numAt m 16 4 ≤ 786432 && numAt m 20 4 % 4 == 0 && numAt m 20 4 < numAt m 16 4

/-- The image a manifest names, of the bytes read from its address. -/
def imageBytes (m img : List Byte) : List Byte := sliceBytes img 0 (numAt m 16 4)

/-- The image's digest as the manifest states it. -/
def manifestDigest (m : List Byte) : List Byte := sliceBytes m 24 64

def onesOf (v : BitVec 64) : Nat := ((List.range 64).filter fun i => v.getLsbD i).length

/-- The first check of R513 that a manifest fails, numbered in its order. -/
def Fuses.check (f : Fuses) (m img : List Byte) : Option Nat :=
  let key := fld (wordAt m 0) 16 4
  let pub := sliceBytes m 152 1952
  if !manifestForm m then some 1
  else if 4 ≤ key || Config.shake256 pub 64 != Config.vendorDigest key then some 2
  else if f.revoke.getLsbD key then some 3
  else if !Config.mldsaVerify pub (Config.shake256 (sliceBytes m 0 2104) 64) (sliceBytes m 2104 3309) then some 4
  else if numAt m 4 4 < onesOf f.minsvn then some 5
  else if img.length < numAt m 16 4 || Config.shake256 (imageBytes m img) 64 != manifestDigest m then some 6
  else none

/-- DBGOK of an accepted manifest (R526). -/
def Fuses.grant (f : Fuses) (m : List Byte) : Nat :=
  if fld (wordAt m 0) 0 1 = 1 && numAt m 88 8 = f.dieid.toNat then numAt m 96 4 % 4 else 0

/-! ## The firmware loaded (R502, R503, R511, R514, R515, R518) -/

/-- The address of the boot directory (R511). -/
def Steward.dirAddr (x : Steward) : Nat := x.pkg * 2 ^ 48

/-- Blocks of memory that the steward reads, one after another: their addresses and lengths (R511, R514, R528). -/
def State.readBlocks (s : State) (l : List (Nat × Nat)) : State :=
  l.foldl (fun s e => s.stewardSend fun p => stewardReads p e.1 e.2) s

/-- MANA or MANB of a directory (R511). -/
def manAddr (dir : List Byte) (slot : Nat) : Nat := (if slot = 0 then numAt dir 8 8 else numAt dir 16 8) % 2 ^ 60

/-- The image that a manifest names: IMAGE and ISIZE (R512). -/
def imageAt (m : List Byte) : Nat × Nat := (numAt m 8 8 % 2 ^ 60, numAt m 16 4)

/-- The image is read once every check of the manifest itself has passed (R513). -/
def imageReads (check : Option Nat) (m : List Byte) : List (Nat × Nat) :=
  match check with
  | none => [imageAt m]
  | some k => if k = 6 then [imageAt m] else []

/-- The certificate that a directory names: CERT and CERTLEN (R511). -/
def certAt (dir : List Byte) : List (Nat × Nat) :=
  if 1 ≤ numAt dir 48 4 && numAt dir 48 4 ≤ 8192 then [(numAt dir 40 8 % 2 ^ 60, numAt dir 48 4)] else []

/-- A jump to the ENTRY of a manifest's image in a region (R514, R529). -/
def Steward.jump (x : Steward) (r : Nat) : Steward :=
  { x with core := { x.core with pc := Config.regionBase r + BitVec.ofNat 64 (numAt (x.fwManifest.getD r []) 20 4) } }

/-- BOOTSTAT (R515): stage, failed check, ROM version. -/
def bootStat (stage check : Nat) : List Byte := [BitVec.ofNat 8 stage, BitVec.ofNat 8 check, 0, 0] ++ leBytes 4 Config.romVersion

/-- Neither slot can be booted: the steward stays in ROM (R515). -/
def State.bootFailed (s : State) (stage check : Nat) : State :=
  (s.onSteward fun x => x.setStage 3).stewardSend fun p => stewardWrites p (s.steward.dirAddr + 56) (bootStat stage check)

/-- ST_ID.CERTOK from the directory and the certificate read (R518): one when the certificate's key is the die's own, zero in every
other case. -/
def Steward.certify (x : Steward) (dir cert : List Byte) : Steward :=
  let n := numAt dir 48 4
  let ok := n ≤ 8192 && n ≤ cert.length && x.public.isSome && Config.certKey (cert.take n) == x.public
  x.setReg Reg.ST_ID (setFld (x.reg Reg.ST_ID) 1 1 (if ok then 1 else 0))

/-- A result record that may be used (R503). -/
def Steward.recordUsable (x : Steward) (r : List Byte) : Bool :=
  let n := numAt r 4 4
  let body := (r.take 56) ++ List.replicate 8 0 ++ (r.take (n - 3309)).drop 64
  n == 7309 + 8 * fld (wordAt r 20) 0 16 && n ≤ r.length && fld (wordAt r 0) 28 4 == 3 && numAt r 8 8 == x.fuses.dieid.toNat &&
    wordAt r 16 == Config.fuseCrc x.fuses.seedId && fld (wordAt r 56) 0 1 == 0 &&
    match x.public with
    | some pub => Config.mldsaVerify pub (Config.shake256 body 64) (sliceBytes r (n - 3309) 3309)
    | none => false

/-- The spares of a record's port table, where training has assigned none (R503). -/
def Port.presetSpares (p : Port) (b : List Byte) : Port :=
  (List.range 8).foldl (fun p g => [false, true].foldl (fun p d =>
    let x := numAt b (2 * g + if d then 1 else 0) 1
    let r := spareReg d g
    if x / 64 % 2 = 1 && !bitOf (p.reg r) (8 * (g % 4) + 7) then p.setReg r (setFld (p.reg r) (8 * (g % 4)) 8 (128 + x % 64))
    else p) p) p

/-- The record applied: USED written, repairs, site table, spare wires (R29, R503). -/
def State.useRecord (s : State) (r : List Byte) : State :=
  let states := allSites.map fun n => (n, BitVec.ofNat 2 (numAt r (64 + n.val) 1))
  let s := s.stewardSend fun p => stewardWrites p (s.steward.recAddr + 56) (leBytes 8 1)
  let s := s.onSteward fun x =>
    { x with repairs := (List.range (fld (wordAt r 20) 0 16)).map fun i => BitVec.ofNat 64 (numAt r (4000 + 8 * i) 8) }
  let s := (s.onPorts allPorts fun p x => x.presetSpares (sliceBytes r (2464 + 16 * p.val) 16)).startSites states
  s.steward.repairs.foldl (fun s e => match siteOf (fld e 0 12) with
    | some n => if (s.tile n).asleep then s else s.writeRepairs n
    | none => s) s

/-- The ANA item of every site at a start-up with a usable record: a site that fails it is taken out of service as the full test's are
(R497, R503; assumption 45). -/
def State.startAna (s : State) (l : List (Site × AnaTest)) : State :=
  s.startSites (s.failedStates [{ failed := [], portBad := [], repairs := [], routers := [], groups := [], ana := l, plls := [] }])

/-- The firmware of a slot runs as boot code: the registers that the directory and the grant fill, and the result record, or the full
test where there is no usable one (R503, R514). -/
def State.bootImage (s : State) (b : BootInputs) (slot : Nat) (man img : List Byte) : State :=
  let locked := bitOf (s.steward.reg Reg.ST_LOCK) 0
  let s := s.onSteward fun x =>
    let x := { x with regions := [imageBytes man img, x.regions.getD 1 []], fwManifest := [man, x.fwManifest.getD 1 []]
                      fwFrom := [slot, x.fwFrom.getD 1 0], dir := sliceBytes b.dir 0 64 }
    let x := x.setReg Reg.ST_BOOT (at32 (x.fuses.grant man) 8 ||| at32 slot 2 ||| at32 (if locked then 2 else 1) 0)
    let x := (x.certify b.dir b.cert).jump 0
    if locked then x
    else
      let x := (x.setReg Reg.BT_REC_LO (BitVec.ofNat 32 (numAt b.dir 24 4 / 8 * 8))).setReg Reg.BT_REC_HI (BitVec.ofNat 32 (numAt b.dir 28 4 % 2 ^ 28))
      (x.setReg Reg.ST_MBOX_LO (BitVec.ofNat 32 (numAt b.dir 32 4 / 4096 * 4096))).setReg Reg.ST_MBOX_HI (BitVec.ofNat 32 (numAt b.dir 36 4 % 2 ^ 28))
  let s := (s.readBlocks (certAt b.dir)).stewardSend fun p => stewardWrites p (s.steward.dirAddr + 56) (leBytes 8 0)
  let s := s.readBlocks [(s.steward.recAddr, numAt b.record 4 4 % 2 ^ 20)]
  if s.steward.recordUsable b.record then (s.useRecord b.record).startAna b.ana
  else s.onSteward fun x => { x with sdStep := 12, sdStart := s.periods, sdFound := [] }

/-- FIRMWARE_LOAD (R511 to R515): after COMMIT the directory is read, and its preferred slot is tried, then the other. -/
def State.firmwareLoad (s : State) (b : BootInputs) : State :=
  let x := s.steward
  let active := numAt b.dir 0 1 % 2
  let man := fun k => if k = 0 then b.manA else b.manB
  let img := fun k => if k = 0 then b.imgA else b.imgB
  if !x.discovered then s
  else if !x.fuses.crcOk then s.bootFailed 1 0
  else if fld (x.reg Reg.ST_BOOT) 0 2 ≠ 0 then s
  else
    let s := s.readBlocks [(x.dirAddr, 64)]
    let check := fun k => x.fuses.check (man k) (img k)
    let tried := fun (s : State) k => s.readBlocks ((manAddr b.dir k, 5413) :: imageReads (check k) (man k))
    let other := 1 - active
    if fld (wordAt b.dir 0) 28 4 ≠ 3 then s.bootFailed 2 0
    else match check active, check other with
      | none, _ => (tried s active).bootImage b active (man active) (img active)
      | some _, none => (tried (tried s active) other).bootImage b other (man other) (img other)
      | some _, some k => (tried (tried s active) other).bootFailed (4 - active) k

def execFirmwareLoad (b : BootInputs) (s : State) : Host.Outcome State Fault Refusal := live s fun s => s.firmwareLoad b

/-! ## The lock (R516, R522) -/

def Steward.locked (x : Steward) : Bool := bitOf (x.reg Reg.ST_LOCK) 0

/-- The code and site of a source (R535). -/
def WriteSrc.code : WriteSrc → Nat × Nat
  | .boot => (0, 0)
  | .firmware => (0, 0)
  | .core n => (1, n.val)
  | .roleD => (2, 0)
  | .mailbox => (3, 0)

/-- A protection violation (R522, R535). -/
def Steward.violation (x : Steward) (src : WriteSrc) (addr : Nat) : Steward :=
  let w := setFld (setFld (setFld (x.reg Reg.ST_PROTERR) 26 3 (WriteSrc.code src).1) 14 12 (WriteSrc.code src).2) 0 12 (addr / 4)
  ((x.setReg Reg.ST_PROTERR w).flagBit Reg.ST_PROTERR 31).count Reg.ST_PROTVIOL_COUNT 1

/-- Boot code: the ROM and the firmware it verified, until the lock (R510). -/
def Steward.bootCode (x : Steward) (src : WriteSrc) : Bool := src == .boot && !x.locked

/-- The lock set; the firmware then runs locked. -/
def Steward.lock (x : Steward) : Steward :=
  let x := x.flagBit Reg.ST_LOCK 0
  if fld (x.reg Reg.ST_BOOT) 0 2 = 1 then x.setStage 2 else x

/-- LOCK_WRITE (R522). -/
def execLockWrite (src : WriteSrc) (s : State) : Host.Outcome State Fault Refusal :=
  live s fun s => s.onSteward fun x => if x.bootCode src then x.lock else x.violation src Reg.ST_LOCK

/-- AUTO_LOCK (R516). -/
def execAutoLock (s : State) : Host.Outcome State Fault Refusal :=
  live s fun s => s.onSteward fun x => if x.locked then x else x.lock.flagBit Reg.ST_PROTERR 30

/-! ## The mailbox's answers (R528) -/

/-- The address of a mailbox slot. -/
def Steward.slotAddr (x : Steward) (k : Fin 4) : Nat :=
  fld (x.reg Reg.ST_MBOX_HI) 0 28 * 2 ^ 32 + (x.reg Reg.ST_MBOX_LO).toNat + 8192 * k.val

def Steward.mslot (x : Steward) (k : Fin 4) : MboxSlot := x.mbox.getD k.val { ack := 0, req := none }

/-- The request in a slot, if it is of a command. -/
def Steward.request (x : Steward) (k : Fin 4) (cmd : Nat) : Option (List Byte) :=
  (x.mslot k).req.filter fun h => numAt h 4 1 = cmd

/-- A request answered: the data, then STATUS, ACKSEQ last. -/
def State.reply (s : State) (k : Fin 4) (data : List Byte) (status : Nat) : State :=
  let x := s.steward
  let a := x.slotAddr k
  match (x.mslot k).req with
  | none => s
  | some h =>
    let s := if data.isEmpty then s else s.stewardSend fun p => stewardWrites p (a + 64) data
    let s := s.stewardSend fun p => stewardWrites p (a + 5) [BitVec.ofNat 8 status] ++ stewardWrites p (a + 8) (sliceBytes h 0 4)
    s.onSteward fun x => { x with mbox := x.mbox.set k.val { ack := wordAt h 0, req := none } }

/-- A header that no command is named by, or whose COUNT is out of range, is answered BADCMD. -/
def badRequest (h : List Byte) : Bool :=
  let c := numAt h 4 1
  c = 0 || 5 < c || (c ≤ 2 && (numAt h 12 4 = 0 || 2032 < numAt h 12 4))

/-- One slot's header, as the poll reads it. -/
def State.pollSlot (s : State) (k : Fin 4) (h : List Byte) : State :=
  let s := s.readBlocks [(s.steward.slotAddr k, 64)]
  let m := s.steward.mslot k
  if m.req.isSome || wordAt h 0 = m.ack then s
  else
    let s := s.onSteward fun x => { x with mbox := x.mbox.set k.val { m with req := some (sliceBytes h 0 64) } }
    if badRequest h then s.reply k [] 1 else s

/-- MAILBOX_POLL (R515, R528): after the lock, the headers of the four slots in order. -/
def execMailboxPoll (hdrs : List (List Byte)) (s : State) : Host.Outcome State Fault Refusal :=
  live s fun s =>
    if s.steward.locked && fld (s.steward.reg Reg.ST_BOOT) 0 2 = 2 then
      (List.finRange 4).foldl (fun s k => s.pollSlot k (hdrs.getD k.val [])) s
    else s

/-! ## Attestation (R519 to R521) -/

/-- A slot in the order in which reports are signed: behind the one being signed, by slot number. -/
def queueAttest (l : List (Fin 4)) (k : Fin 4) : List (Fin 4) :=
  match l with
  | [] => [k]
  | h :: t => h :: (t.filter (· < k)) ++ k :: t.filter (k < ·)

/-- ATTEST (R518, R520): a request not yet waiting is queued; where the directory's CERT fields have been rewritten, the directory and
the certificate read again set CERTOK. -/
def execAttest (slot : AttestReq) (s : State) : Host.Outcome State Fault Refusal :=
  live s fun s =>
    let x := s.steward
    if (x.request slot.slot 3).isSome && !x.attests.contains slot.slot then
      let s := s.onSteward fun x => { x with attests := queueAttest x.attests slot.slot }
      match slot.again with
      | some (dir, cert) => (s.readBlocks ((x.dirAddr, 64) :: certAt dir)).onSteward fun x => x.certify dir cert
      | none => s
    else s

/-- The image region that the steward runs in (R533). -/
def Steward.region (x : Steward) : Nat := fld (x.reg Reg.ST_FW) 0 1

/-- IDIGEST of the image in a region, or zero. -/
def Steward.regionDigest (x : Steward) (r : Nat) : List Byte :=
  let m := x.fwManifest.getD r []
  if m.isEmpty then List.replicate 64 0 else manifestDigest m

/-- Bytes 0 to 383 of a report over a nonce (R520). -/
def State.reportBody (s : State) (nonce : List Byte) : List Byte :=
  let x := s.steward
  let prot := [x.reg Reg.ST_PROT] ++ (List.range 16).map (fun n => x.reg (Reg.ST_FOVR + 4 * n)) ++
    [(s.port 0).reg Reg.GL_ROLE, x.reg Reg.BT_REC_LO, x.reg Reg.BT_REC_HI]
  let w0 := at32 3 28 ||| at32 1 24 ||| at32 x.fuses.stepping.toNat 16 ||| at32 x.fuses.grade.toNat 12 |||
    flag32 (bitOf (x.reg Reg.ST_PROT) 3) 3 ||| flag32 x.locked 2 ||| flag32 (bitOf (x.reg Reg.ST_ID) 1) 1 |||
    flag32 (bitOf (x.reg Reg.ST_PROTERR) 30) 0
  leBytes 4 w0.toNat ++ leBytes 4 3693 ++ leBytes 8 x.fuses.dieid.toNat ++ leBytes 4 (Config.fuseCrc x.fuses.seedId).toNat ++
    leBytes 4 (numAt (x.fwManifest.getD x.region []) 4 4) ++ leBytes 4 (x.pkg * 2 ^ 16 + x.slot) ++
    leBytes 4 (x.reg Reg.ST_PROTVIOL_COUNT).toNat ++ leBytes 8 x.agreed.toNat ++ List.replicate 24 0 ++ sliceBytes nonce 0 32 ++
    sliceBytes Config.romDigest 0 64 ++ x.regionDigest x.region ++ x.regionDigest (1 - x.region) ++ bytesOfWords prot ++
    List.replicate 16 0

/-- ATTEST_DONE (R520, R521): the report whose turn it is is fixed, signed and written; without an identity key NOKEY. -/
def State.attestDone (s : State) (k : Fin 4) : State :=
  let x := s.steward
  if x.attests.head? ≠ some k then s
  else
    let s := s.onSteward fun x => { x with attests := x.attests.drop 1 }
    match x.xi, x.request k 3 with
    | some xi, some h =>
      let body := s.reportBody (sliceBytes h 24 32)
      (s.onSteward fun x => { x with signs := x.signs + 1 }).reply k (body ++ x.sign xi body) 0
    | _, _ => s.reply k [] 6

def execAttestDone (slot : Fin 4) (s : State) : Host.Outcome State Fault Refusal := live s fun s => s.attestDone slot

/-! ## Firmware update in service (R529, R530) -/

def Steward.setStby (x : Steward) (b : Bool) : Steward := x.setReg Reg.ST_FW (setFld (x.reg Reg.ST_FW) 1 1 (if b then 1 else 0))

/-- A region filled, or cleared. -/
def Steward.fillRegion (x : Steward) (r : Nat) (man img : List Byte) (slot : Nat) : Steward :=
  { x with regions := x.regions.set r img, fwManifest := x.fwManifest.set r man, fwFrom := x.fwFrom.set r slot }

/-- FWLOAD (R529): the manifest of the slot is read; until the load has ended the standby region holds no checked image. -/
def State.fwload (s : State) (k : Fin 4) : State :=
  let x := s.steward
  match x.request k 4 with
  | none => s
  | some h =>
    if x.loading.isSome || x.switching.isSome || x.confirmWait.isSome then s
    else
      (s.onSteward fun x => { (x.setStby false) with loading := some k }).stewardAsk fun p =>
        stewardReads p (manAddr x.dir (numAt h 16 1 % 2)) 5413

def execFwload (slot : Fin 4) (s : State) : Host.Outcome State Fault Refusal := live s fun s => s.fwload slot

/-- FWLOAD_DONE (R529): the manifest has come, and the image is read once the manifest has passed. -/
def State.fwloadDone (s : State) (k : Fin 4) (man img : List Byte) : State :=
  let x := s.steward
  if x.loading ≠ some k then s
  else
    let sb := 1 - x.region
    let check := x.fuses.check man img
    let newer := numAt (x.fwManifest.getD x.region []) 4 4 ≤ numAt man 4 4 && fld (wordAt man 0) 0 1 == 0
    let ok := check.isNone && newer
    let slot := numAt ((x.request k 4).getD []) 16 1 % 2
    let s := (s.stewardDone (manAddr x.dir slot) 5413).readBlocks (if newer then imageReads check man else [])
    let s := s.onSteward fun x =>
      let x := { x with loading := none }
      if ok then (x.fillRegion sb man (imageBytes man img) slot).setStby true else x.fillRegion sb [] [] slot
    s.reply k [] (if ok then 0 else 4)

def execFwloadDone (slot : Fin 4) (man : List Byte) (image : List Byte) (s : State) : Host.Outcome State Fault Refusal :=
  live s fun s => s.fwloadDone slot man image

/-- FWSWITCH (R529). -/
def State.fwswitch (s : State) (k : Fin 4) : State :=
  let x := s.steward
  if (x.request k 5).isNone || x.switching = some k || x.confirmWait = some k then s
  else if !bitOf (x.reg Reg.ST_FW) 1 || x.switching.isSome || x.confirmWait.isSome then s.reply k [] 5
  else s.onSteward fun x => { x with switching := some k }

def execFwswitch (slot : Fin 4) (s : State) : Host.Outcome State Fault Refusal := live s fun s => s.fwswitch slot

/-- The regions exchange roles; CONFIRM is cleared (R529, R533). -/
def Steward.swapRegions (x : Steward) : Steward :=
  x.setReg Reg.ST_FW (setFld (setFld (x.reg Reg.ST_FW) 0 1 (1 - x.region)) 2 1 0)

/-- The hand-over block written into the data SRAM of 512 KiB (R509, R529). -/
def Steward.writeHandOver (x : Steward) (draw : Nat) : Steward :=
  { x with data := Memory.writeBytes x.data (Config.handOverAt % 2 ^ 19) ((Config.handOver draw).take (2 ^ 19 - Config.handOverAt % 2 ^ 19)) }

/-- FW_SWITCH_EXECUTE (R484, R529): once no stitch and no darning is open, the hand-over block is written, and the new image runs. -/
def State.fwSwitchExecute (s : State) : State :=
  let x := s.steward
  match x.switching with
  | some k =>
    if x.stitches.isEmpty && x.darning.isNone then
      { s.onSteward fun x =>
          let x := (x.writeHandOver s.fresh).swapRegions
          { x.jump x.region with switching := none, confirmWait := some k } with fresh := s.fresh + 1 }
    else s
  | none => s

def execFwSwitchExecute (s : State) : Host.Outcome State Fault Refusal := live s fun s => s.fwSwitchExecute

/-- FW_CONFIRM (R529): ACTIVE is written into the directory, and FWSWITCH answered OK. -/
def State.fwConfirm (s : State) : State :=
  let s := s.onSteward fun x => x.flagBit Reg.ST_FW 2
  match s.steward.confirmWait with
  | none => s
  | some k =>
    let w := leBytes 4 (0x30000000 + s.steward.fwFrom.getD s.steward.region 0)
    let s := (s.onSteward fun x => { x with confirmWait := none, dir := w ++ x.dir.drop 4 }).stewardSend fun p => stewardWrites p s.steward.dirAddr w
    s.reply k [] 0

def execFwConfirm (s : State) : Host.Outcome State Fault Refusal := live s fun s => s.fwConfirm

/-- FW_CONFIRM_TIMEOUT (R529): the previous region runs again from its ENTRY, with the hand-over block. -/
def execFwConfirmTimeout (s : State) : Host.Outcome State Fault Refusal :=
  live s fun s => match s.steward.confirmWait with
    | none => s
    | some k =>
      (s.onSteward fun x =>
        let x := x.swapRegions.flagBit Reg.ST_FW 3
        { x.jump x.region with confirmWait := none }).reply k [] 4

end Sys2Proof.Machine
end

