-- ==== Sys2Proof/Machine/Power.lean ====
section
/-! DEFINITION. Budget periods, supplies, power and thermal limits (R356, R538, R544, R546, R547), and the test access port (R552
to R554). -/

namespace Sys2Proof.Machine

/-! ## Supplies (R538, R544) -/

/-- VACK (R538): the requested code comes into force, and the next one may be requested. -/
def State.vack (s : State) (f : FieldNo) : State :=
  match s.steward.vidReq.getD f.val none with
  | none => s
  | some c =>
    let s := s.onSteward fun x =>
      { x.setReg (Reg.ST_VSET + 4 * f.val) (setFld (x.vset f) 0 6 c.toNat) with vidReq := x.vidReq.set f.val none }
    s.vidSteer f

def execVack (f : FieldNo) (s : State) : Host.Outcome State Fault Refusal := live s fun s => s.vack f

/-- VID_TIMEOUT (R538): the request stands, and no other is made, until VACK answers it. -/
def execVidTimeout (f : FieldNo) (s : State) : Host.Outcome State Fault Refusal :=
  live s fun s => s.onSteward fun x => if x.vidBusy f then x.flagBit Reg.ST_PWR_ERR f.val else x

/-- A request of the loop; it waits while a slice in the field is in its test step (R544). -/
def State.avsRequest (s : State) (f : FieldNo) (code : Nat) : State :=
  match s.testing with
  | some n => if fieldOf n.val = f.val then s.onSteward fun x => { x with vidDefer := x.vidDefer.set f.val (some (BitVec.ofNat 6 code)) }
    else s.vidRequest f code
  | none => s.vidRequest f code

/-- AVS_LOOP (R544), with the lowest unthrottled clock of the field's awake tiles. -/
def State.avsLoop (s : State) (f : FieldNo) (mhz : Nat) : State :=
  let w := s.steward.vset f
  let now := fld w 0 6
  let target := fld w 16 12
  if !bitOf w 31 || s.steward.sdRunning || !(s.steward.vidPlan.getD f.val []).isEmpty || s.steward.vidBusy f ||
       (s.steward.vidDefer.getD f.val none).isSome then s
  else if mhz + 10 < target then
    if 40 ≤ now then s.onSteward fun x => x.flagBit Reg.ST_PWR_ERR (4 + f.val) else s.avsRequest f (now + 1)
  else if target + 30 < mhz && 0 < now then s.avsRequest f (now - 1)
  else s

def execAvsLoop (f : FieldNo) (mhz : BitVec 12) (s : State) : Host.Outcome State Fault Refusal :=
  live s fun s => s.avsLoop f mhz.toNat

/-! ## Clock targets (R546, R547, R555) -/

/-- What the thermal, or the sustained, limit has taken off FTGT of a field. -/
def Steward.lowered (x : Steward) (therm : Bool) (f : FieldNo) : Nat := (if therm then x.thermLow else x.sustLow).getD f.val 0

def Steward.setLowered (x : Steward) (therm : Bool) (f : FieldNo) (v : Nat) : Steward :=
  if therm then { x with thermLow := x.thermLow.set f.val v } else { x with sustLow := x.sustLow.set f.val v }

/-- FTGT lowered by a limit, never below 1,200 MHz. -/
def Steward.lowerTarget (x : Steward) (therm : Bool) (f : FieldNo) (d : Nat) : Steward :=
  let now := fld (x.vset f) 16 12
  let k := min d (now - 1200)
  (x.setReg (Reg.ST_VSET + 4 * f.val) (setFld (x.vset f) 16 12 (now - k))).setLowered therm f (x.lowered therm f + k)

/-- FTGT raised by a limit, by no more than that limit has taken off it, so that it never rises above the value that software wrote. -/
def Steward.raiseTarget (x : Steward) (therm : Bool) (f : FieldNo) (d : Nat) : Steward :=
  let k := min d (x.lowered therm f)
  (x.setReg (Reg.ST_VSET + 4 * f.val) (setFld (x.vset f) 16 12 (fld (x.vset f) 16 12 + k))).setLowered therm f (x.lowered therm f - k)

/-- SUSTAINED_LIMIT_TICK (R546), with the average power over 1 s. -/
def Steward.sustained (x : Steward) (avg : Nat) : Steward :=
  let x := x.setReg Reg.ST_PWR_EST (setFld (x.reg Reg.ST_PWR_EST) 16 11 avg)
  let sust := fld (x.reg Reg.ST_PWRLIM) 0 11
  if sust < avg then (List.finRange 4).foldl (fun x f => x.lowerTarget false f 25) x
  else if 100 * avg < 95 * sust then (List.finRange 4).foldl (fun x f => x.raiseTarget false f 25) x
  else x

def execSustainedLimitTick (avg : BitVec 11) (s : State) : Host.Outcome State Fault Refusal :=
  live s fun s => s.onSteward fun x => x.sustained avg.toNat

/-- The hottest sensor of a field as its tiles last read them; a fenced site has none. -/
def State.hottest (s : State) (f : Nat) : Nat :=
  ((s.someTiles.filter fun n => fieldOf n.val = f && s.steward.site n.val ≠ 0).map fun n => fld ((s.tile n).reg Reg.TC_CLK) 20 8).foldl max 0

/-- THERMAL_SAMPLE (R547, R557, R558): TC_CLK, the tile's thermal level, HOT, and the trip; a microsecond has passed, so that the tile may
report errors again (R447; assumption 84). -/
def State.thermal (s : State) (site : Site) (m : TileMeasure) : State :=
  let f := fieldOf site.val
  let temp := m.temp.toNat
  if s.steward.site site.val = 0 then s
  else
    let s := s.onTile site fun t =>
      { t.setReg Reg.TC_CLK (at32 temp 20 ||| at32 m.vmon.toNat 12 ||| at32 m.freq.toNat 0) with
        thermThr := if 103 ≤ temp then 4 else if temp ≤ 100 then 0 else t.thermThr
        reported := false }
    let s := s.onSteward fun x => x.setReg Reg.ST_THERM (setFld (x.reg Reg.ST_THERM) (8 * f) 8 (s.hottest f))
    let s := if 103 ≤ temp then s.onSteward fun x => x.flagBit Reg.ST_PWR_ERR (8 + f) else s
    if 115 ≤ temp && !s.steward.tripped then (s.onSteward fun x => { x with tripped := true }).send [.thermtrip] else s

def execThermalSample (site : Site) (m : TileMeasure) (s : State) : Host.Outcome State Fault Refusal :=
  live s fun s => s.thermal site m

/-- THERMAL_FTGT_TICK (R547). -/
def Steward.thermalTick (x : Steward) (f : FieldNo) : Steward :=
  let hot := fld (x.reg Reg.ST_THERM) (8 * f.val) 8
  if 95 ≤ hot then x.lowerTarget true f 50 else if hot < 92 then x.raiseTarget true f 25 else x

def execThermalFtgtTick (f : FieldNo) (s : State) : Host.Outcome State Fault Refusal :=
  live s fun s => s.onSteward fun x => x.thermalTick f

/-! ## Budget periods (R356, R459, R546) -/

/-- The die-wide throttle after a period of the given power (R546). -/
def Steward.peak (x : Steward) (power : Nat) : Steward :=
  let w := x.reg Reg.ST_PWR_EST
  let lim := fld (x.reg Reg.ST_PWRLIM) 16 11
  let thr := fld w 29 3
  let thr := if lim < power then min 7 (thr + 1) else if 100 * power < 95 * lim then thr - 1 else thr
  x.setReg Reg.ST_PWR_EST (setFld (setFld w 29 3 thr) 0 11 power)

/-- BUDGET_PERIOD_START (R356, R358, R459, R546), with the power of the period that has ended: the buckets refill, PING goes to every
site, and the loom's streams that wait for a bucket go on. -/
def State.periodStart (s : State) (power : Nat) : State :=
  let s := { s with periods := s.periods + 1 }
  let s := s.onSteward fun x => ({ x.peak power with poll := x.poll + 1 } : Steward).tellAll (.ping (x.poll + 1))
  s.wakeAll .bucket

def execBudgetPeriodStart (power : BitVec 11) (s : State) : Host.Outcome State Fault Refusal :=
  live s fun s => s.periodStart power.toNat

/-- The throttle level in force at a tile (R543). -/
def State.throttle (s : State) (n : Site) : Nat := max (fld (s.steward.reg Reg.ST_PWR_EST) 29 3) (s.tile n).thermThr

/-! ## The test access port (R551 to R554) -/

def State.onTap (s : State) (f : Tap → Tap) : State := { s with tap := f s.tap }

/-- The bits of a register, bit 0 first. -/
def bitsOf {n : Nat} (w : BitVec n) : List Bool := (List.range n).map fun i => w.getLsbD i

/-- The TAP acts as BYPASS: its 1-bit register captures 0, and bits shifted in come out one later (R552). -/
def State.tapBypass (s : State) (bits : List Bool) : State :=
  let s := if bits.isEmpty then s else s.send [.tdo ((false :: bits).take bits.length)]
  s.onTap fun t => { t with ir := 0xFF, bypass := bits.getLastD false }

/-- IDCODE (R552). -/
def execIdcode (s : State) : Host.Outcome State Fault Refusal :=
  .next ((s.onTap fun t => { t with ir := 0x01 }).send
    [.tdo (bitsOf (if s.steward.isB0 then 0x24B3356F#32 else 0x14B3356F#32))])

/-! ### The die wrapper register (R550, R553, R554) -/

/-- A wire of a port in one direction, in the order of R367. -/
inductive GlWire where
  | data (i : Nat) | sideband (i : Nat) | spare (g : Nat) | clkA (neg : Bool) | clkB (neg : Bool) | clkS (neg : Bool) | alive | trn
deriving DecidableEq, Repr

def glWire (w : Nat) : GlWire :=
  if w < 256 then .data w
  else if w < 272 then .sideband (w - 256)
  else if w < 280 then .spare (w - 272)
  else if w < 282 then .clkA (w == 281)
  else if w < 284 then .clkB (w == 283)
  else if w < 286 then .clkS (w == 285)
  else if w = 286 then .alive else .trn

/-- A control signal that has a cell (R550, R554). -/
inductive CtlPin where
  | rstn | pwrokC | pwrokS | refok | vid (f b : Nat) | vreq (f : Nat) | vack (f : Nat) | thermtrip
deriving DecidableEq, Repr

def ctlPin (k : Nat) : CtlPin :=
  if k = 0 then .rstn
  else if k = 1 then .pwrokC
  else if k = 2 then .pwrokS
  else if k = 3 then .refok
  else if k < 32 then if (k - 4) % 7 = 6 then .vreq ((k - 4) / 7) else .vid ((k - 4) / 7) (5 - (k - 4) % 7)
  else if k < 36 then .vack (k - 32) else .thermtrip

/-- What a cell belongs to: a wire of a port, sent or received, or a control signal. -/
inductive WrapCell where
  | wire (p : PortIx) (send : Bool) (w : GlWire) | pin (c : CtlPin)
deriving DecidableEq, Repr

/-- The cells in their order (R554): by port, the wires that it receives before those that it sends (assumption 61), then the control
pads. -/
def cellAt (n : Nat) : Option WrapCell :=
  if n < 55296 then some (.wire ⟨n / 576 % 96, Nat.mod_lt _ (by decide)⟩ (288 ≤ n % 576) (glWire (n % 288)))
  else if n < 55333 then some (.pin (ctlPin (n - 55296)))
  else none

/-- A cell whose signal the chiplet drives. -/
def WrapCell.drives : WrapCell → Bool
  | .wire _ send _ => send
  | .pin (.vid _ _) => true
  | .pin (.vreq _) => true
  | .pin .thermtrip => true
  | .pin _ => false

def cellDrives (n : Nat) : Bool := (cellAt n).any WrapCell.drives

def noCell : Nat → Bool := fun _ => false

/-- The die wrapper register after a shift: the cells shifted in, a cell not listed 0. -/
def Tap.setCells (t : Tap) (l : List (Nat × Bool)) : Tap :=
  { t with wrapper := Map.setAll noCell [] (l.filter fun e => e.1 < 55333) }

/-- The level of a pad. -/
def padAt (pads : List (Nat × Bool)) (n : Nat) : Bool := (pads.find? fun e => e.1 = n).any (·.2)

/-- SAMPLE/PRELOAD and EXTEST act: in reset, with PWROK_C and PWROK_S high (R553). -/
def State.wrapperActs (s : State) (pads : List (Nat × Bool)) : Bool := s.inReset && padAt pads 55297 && padAt pads 55298

/-- What the cells of driven signals capture of the chiplet in reset, as far as the spec gives it: ALIVE, TRN, VREQ and THERMTRIPn. The
other signals that it drives are open, and not listed. -/
def State.driven (s : State) : List (Nat × Bool) :=
  (allPorts.flatMap fun p => [(576 * p.val + 574, (s.port p).aliveOut), (576 * p.val + 575, false)]) ++
    ((List.finRange 4).map fun f => (55296 + 4 + 7 * f.val + 6, s.steward.vreq.getD f.val false)) ++ [(55332, !s.steward.tripped)]

/-- The cells of received signals, as the pads have them. -/
def received (pads : List (Nat × Bool)) : List (Nat × Bool) := pads.filter fun e => e.1 < 55333 && !cellDrives e.1

/-- The cells that drive their pads. -/
def Tap.drives (t : Tap) : Map Bool := t.wrapper.filter fun e => cellDrives e.1

/-- SAMPLE/PRELOAD (R553): the cells capture their signals, are shifted out, and take the cells shifted in. -/
def execSamplePreload (cells : Boundary) (s : State) : Host.Outcome State Fault Refusal :=
  .next (if s.wrapperActs cells.pads then
    (s.send [.cells (received cells.pads ++ s.driven)]).onTap fun t => { t.setCells cells.cells with ir := 0x02 }
  else s.tapBypass [])

/-- EXTEST (R553): the cells drive the pads, those of received signals capture theirs, and after the shift the new cells drive. -/
def execExtest (cells : Boundary) (s : State) : Host.Outcome State Fault Refusal :=
  .next (if s.wrapperActs cells.pads then
    let t := { s.tap.setCells cells.cells with ir := 0x03 }
    { s with tap := t }.send [.drive s.tap.drives, .cells (received cells.pads ++ s.tap.drives), .drive t.drives]
  else s.tapBypass [])

/-! ### The IEEE 1500 wrappers (R551, R553) -/

/-- SITESEL and WSP act (R553). -/
def State.wrapperOpen (s : State) : Bool := !s.steward.fuses.mfgtest || bitOf (s.steward.reg Reg.ST_PROT) 3

/-- SITESEL (R552): the site selected before is shifted out. -/
def execSitesel (site : WrapperSel) (s : State) : Host.Outcome State Fault Refusal :=
  let s := s.onTap fun t => { t with wsi := site.wsi }
  .next (if s.wrapperOpen then
    (s.send [.tdo (bitsOf s.tap.sitesel)]).onTap fun t => { t with ir := 0x10, sitesel := site.site }
  else s.tapBypass (bitsOf site.site))

def noWrapper : Nat → Option (List Bool) := fun _ => none

/-- The serial register of a wrapper. -/
def Tap.wrapperReg (t : Tap) (k : Nat) : List Bool := (Map.get noWrapper t.wrappers k).getD (Config.wrapperBits k)

/-- The wrappers on the serial path of a site: its tile's, then its port's (assumption 61). -/
def wrapperPath (n : Nat) : List Nat :=
  if n < 2400 then n :: ((allPorts.filter fun p => (siteOfPort p).val = n).map fun p => 2400 + p.val) else []

/-- Bits laid into registers of the lengths given. -/
def splitAs : List (List Bool) → List Bool → List (List Bool)
  | [], _ => []
  | r :: rs, l => l.take r.length :: splitAs rs (l.drop r.length)

/-- WSP (R552): the bits that wait are shifted through the serial port of the selected site's wrapper. -/
def execWsp (s : State) : Host.Outcome State Fault Refusal :=
  let bits := s.tap.wsi
  let s := s.onTap fun t => { t with wsi := [] }
  .next (if s.wrapperOpen then
    let path := wrapperPath s.tap.sitesel.toNat
    let regs := path.map s.tap.wrapperReg
    let all := regs.flatten ++ bits
    let new := splitAs regs (all.drop bits.length)
    (s.send [.tdo (all.take bits.length)]).onTap fun t =>
      { t with ir := 0x11, wrappers := Map.setAll noWrapper t.wrappers (path.zip (new.map some)) }
  else s.tapBypass bits)

/-- FUSERD (R553): every fuse but the identity seed and the helper data, on which the bits shifted out do not depend. -/
def execFuserd (s : State) : Host.Outcome State Fault Refusal :=
  .next ((s.onTap fun t => { t with ir := 0x20 }).send [.tdo (Config.fuseScan { s.steward.fuses with seedId := 0 })])

/-- The listed codes other than BYPASS (R552). -/
def tapListed (c : BitVec 8) : Bool := c == 0x01 || c == 0x02 || c == 0x03 || c == 0x10 || c == 0x11 || c == 0x20

def execBypass (code : BypassShift) (s : State) : Host.Outcome State Fault Refusal :=
  .next (if tapListed code.code then s else s.tapBypass code.bits)

end Sys2Proof.Machine
end

