-- ==== Sys2Proof/Machine/Setup.lean ====
section
/-! DEFINITION. The set-up register map (R559 to R578): reads and writes of every set-up address, by the steward's firmware, a tile
core, role D and the mailbox (R10, R14, R522, R527, R528). -/

namespace Sys2Proof.Machine

/-! ## Addresses (R559, R560) -/

/-- What a set-up address names. -/
inductive SetupAt where
  | steward (off : Nat)
  | siteTable (n : Site)
  | tile (n : Site) (off : Nat)
  | nowhere
deriving DecidableEq, Repr

/-- The set-up address space (R559). -/
def setupAt (a : Nat) : SetupAt :=
  if a < 0x1000 then .steward a
  else if 0x10000 ≤ a && a < 0x12580 then
    match siteOf ((a - 0x10000) / 4) with
    | some n => .siteTable n
    | none => .nowhere
  else if 0x1000000 ≤ a then
    match siteOf ((a - 0x1000000) / 0x10000) with
    | some n => .tile n (a % 0x10000)
    | none => .nowhere
  else .nowhere

/-- The set-up address of a word of a tile space (R559). -/
def tileAddr (n : Site) (off : Nat) : Nat := 0x1000000 + 0x10000 * n.val + off

/-- `a` is one of `n` words from `base` on. -/
def inWords (a base n : Nat) : Bool := base ≤ a && a < base + 4 * n

/-- The steward registers (R565, R566). -/
def stewardMapped (a : Nat) : Bool :=
  inWords a 0 11 || inWords a 0x40 16 || inWords a 0x80 16 || inWords a 0x100 5 || inWords a 0x200 3 || inWords a 0x210 2 ||
    inWords a 0x300 4 || inWords a 0x310 4 || inWords a 0x400 9 || inWords a 0x424 3 || inWords a 0x444 14 ||
    inWords a 0x500 8 || inWords a 0x600 9 || inWords a 0x800 64

/-- The words of a unit block (R570). -/
def unitMapped (u o : Nat) : Bool :=
  inWords o 0x100 5 || inWords o 0x120 24 ||
    match u with
    | 0 => inWords o 0 4
    | 1 => inWords o 0 7
    | 2 => inWords o 0 4 || inWords o 0x40 3
    | 3 => inWords o 0 10 || inWords o 0x80 32
    | _ => inWords o 0 3

/-- The words of a steering unit's block (R569). -/
def steerMapped (o : Nat) : Bool := inWords o 0 3 || inWords o 0x10 5 || inWords o 0x30 5 || inWords o 0x50 5

/-- The router block (R569); WF_PBKTn stand at port sites only. -/
def routerMapped (port : Bool) (o : Nat) : Bool :=
  inWords o 0x1400 7 || inWords o 0x1420 2 || inWords o 0x1440 16 || (port && inWords o 0x1480 16) || inWords o 0x1500 75 ||
    inWords o 0x1800 256

/-- The port block (R572). -/
def portMapped (o : Nat) : Bool :=
  inWords o 0x2000 11 || inWords o 0x2040 9 || (inWords o 0x2100 64 && o % 16 != 12)

/-- The words of a tile space (R568 to R573). -/
def tileMapped (n : Site) (o : Nat) : Bool :=
  if o < 0x100 then inWords o 0 26
  else if 0x400 ≤ o && o < 0x600 then steerMapped (o % 0x80)
  else if 0x800 ≤ o && o < 0x1200 then unitMapped ((o - 0x800) / 0x200) ((o - 0x800) % 0x200)
  else if 0x1400 ≤ o && o < 0x1C00 then routerMapped (isPortSite n.val) o
  else if 0x2000 ≤ o && o < 0x2200 then isPortSite n.val && portMapped o
  else (windowOf o).isSome

/-- Words that answer while the compute section of a site has no power (R561). -/
def alwaysOn (o : Nat) : Bool :=
  o == Reg.TC_HEM || o == Reg.TC_DARN || o == Reg.TC_CLK || o == Reg.BT_TSTAT || (0x1400 ≤ o && o < 0x2200)

/-! ## Reads of the steward's space -/

/-- ST_SITE_TABLE (R31). -/
def Steward.siteEntry (x : Steward) (n : Site) : Word :=
  at32 (fieldOf n.val) 12 ||| flag32 (isPortSite n.val) 8 ||| at32 (x.site n.val).toNat 4 |||
    flag32 (x.site n.val != x.fused n.val) 2 ||| at32 (Map.get fusedDefault x.fuses.site n.val).toNat 0

/-- Sites in a state. -/
def Steward.count' (x : Steward) (v : BitVec 2) : Nat := (allSites.filter fun n => x.site n.val = v).length

/-- ST_FLOG_E0 to ST_FLOG_E3 of the selected entry (R488). -/
def Steward.flogWord (x : Steward) (k : Nat) : Word :=
  match x.flog[fld (x.reg Reg.ST_FLOG_SEL) 0 8]? with
  | none => 0
  | some e => match k with
    | 0 => at32 e.code 24 ||| at32 e.unit 20 ||| at32 e.outcome 16 ||| at32 e.site.val 0
    | 1 => e.time
    | 2 => e.reg
    | _ => e.spare

/-- PARK as LM_CTX_STATE codes it (R454). -/
def Park.code : Park → Nat
  | .none => 0 | .fetch => 1 | .retry => 1 | .list => 1 | .writeback => 1 | .started _ => 1
  | .credits => 2 | .bucket => 2 | .held => 2
  | .stitch => 3 | .release => 3 | .wake => 3 | .event => 3

/-- PARK of a context: an END that waits for answers of the stitch, for tiles or for ports is parked too (R445, R454; assumption 84). -/
def Ctx.parkCode (c : Ctx) : Nat :=
  if c.mode == .ending && c.teardown != .none && c.teardown != .done then 3 else Park.code c.park

/-- The context that LM_CTX_SEL selects. -/
def State.selected (s : State) : StreamNo := ⟨fld (s.steward.reg Reg.LM_CTX_SEL) 0 14 % 16384, Nat.mod_lt _ (by decide)⟩

/-- The LM_CTX_ registers (R454). -/
def State.ctxWord (s : State) (a : Nat) : Word :=
  let n := s.selected
  let c := s.ctx n
  if a = Reg.LM_CTX_STATE then
    at32 (s.claimed n).length 20 ||| at32 c.rlog 12 ||| flag32 c.policy 8 ||| at32 c.parkCode 4 ||| at32 c.mode.code 0
  else if a = Reg.LM_CTX_CIDX then c.cidx
  else if a = Reg.LM_CTX_PIDX then c.pidx
  else if a = Reg.LM_CTX_EVT then c.evt
  else at32 c.errs 16 ||| at32 c.lastCls 12

/-- A bucket's status word (R362): LEVEL, and whether a packet of the class waits for it. -/
def State.bucketStat (s : State) (pt : InjPoint) (c : Nat) : Word :=
  let first := ((s.reports pt).line pt).find? fun p => p.cls.val = c
  let waits := match first with
    | some p => (s.charge pt c p.cost).isNone
    | none => false
  flag32 waits 31 ||| at32 (s.level pt c) 0

/-- A word of the steward's space as it reads. -/
def State.readSteward (s : State) (a : Nat) : Word :=
  let x := s.steward
  if a = Reg.GL_FEAT_OWN_LO then x.ownFeatures.setWidth 32
  else if a = Reg.ST_SITE_COUNT then at32 (x.count' 3) 24 ||| at32 (x.count' 2) 12 ||| at32 (x.count' 1) 0
  else if a = Reg.ST_SLEEP then
    x.reg a ||| flag32 (match x.slept with
      | some n => (s.tile n).asleep
      | none => false) 27
  else if a = Reg.ST_DARN_STAT then
    x.reg a ||| flag32 x.darning.isSome 31 ||| at32 x.darnMap.length 16
  else if a = Reg.ST_FLOG_COUNT then BitVec.ofNat 32 (min x.flogCount 0xFFFFFFFF)
  else if inWords a Reg.ST_FLOG_E 4 then x.flogWord ((a - Reg.ST_FLOG_E) / 4)
  else if a = Reg.BT_POS then at32 s.slicePos.1 8 ||| at32 s.slicePos.2 0
  else if a = Reg.LM_GEOM then 0x30E41402
  else if inWords a Reg.LM_CTX_STATE 5 then s.ctxWord a
  else if inWords a Reg.ST_ABKT 64 && 0x20 ≤ (a - Reg.ST_ABKT) % 0x40 then
    s.bucketStat (.attach ⟨(a - Reg.ST_ABKT) / 0x40 % 4, Nat.mod_lt _ (by decide)⟩) ((a - Reg.ST_ABKT) % 0x20 / 4)
  else x.reg a

/-! ## Reads of a tile space -/

/-- The state of the core (R224). -/
def CoreMode.code : CoreMode → Nat
  | .halted => 0 | .running => 1 | .stalled => 2 | .wfi => 3

/-- The state of a stitch (R328). -/
def StitchMode.code : StitchMode → Nat
  | .idle => 0 | .loading => 1 | .armed => 2 | .committed => 3

/-- TC_EP_STITCH (R328). -/
def StitchSt.word (x : StitchSt) : Word :=
  at32 x.num.toNat 16 ||| at32 (StitchMode.code x.mode) 14 ||| flag32 x.failed 13 ||| at32 x.new.toNat 8 ||| at32 x.pend.toNat 0

/-- Tile registers (R569). -/
def State.readTc (s : State) (n : Site) (o : Nat) : Word :=
  let t := s.tile n
  if o = Reg.TC_GEOM then 0x30004010
  else if o = Reg.TC_CTL then flag32 t.freeze.goPend 0
  else if o = Reg.TC_STATE then flag32 t.core.swpend 2 ||| at32 (CoreMode.code t.core.mode) 0
  else if o = Reg.TC_EP_ACT then (List.range 7).foldl (fun w g => w ||| at32 (t.group g).epoch.toNat (4 * g)) 0
  else if o = Reg.TC_EP_STITCH then t.stitch.word
  else if o = Reg.TC_PAT_STAT then (List.range 7).foldl (fun w g => w ||| flag32 (t.group g).patbad g) 0
  else if o = Reg.TC_DL_STAT then setFld (t.reg o) 0 1 (if t.spillOrder.isEmpty then 0 else 1)
  else if o = Reg.TC_SCAN_STAT then t.scanStat
  else if o = Reg.TC_CLK then if s.steward.site n.val = 0 then 0 else setFld (t.reg o) 29 3 (s.throttle n)
  else t.reg o

/-- B0_STATE and B1_STATE (R120, R121, R135): a holding command of the buffer has rows to pass, or one waits in the queue. -/
def Tile.bufState (t : Tile) (b : Bool) : Nat :=
  let on := fun c : Cmd => laHolds c && !laMalformed c && !c.badFence && laBuf c == b
  if (t.unit .la).running.any fun r => r.rowsDue != 0 && on r.cmd then 2
  else if (t.unit .la).queue.any on then 1
  else 0

/-- The registers of a unit block (R570). -/
def State.readUnit (s : State) (n : Site) (u o : Nat) : Word :=
  let t := s.tile n
  let b := unitBase u
  let k := o - b
  if k = Reg.SEQ_POS then (t.seq u).pos
  else if inWords k Reg.STALL_FIRE 4 || inWords k Reg.Q_STARVE 16 then Map.get trfZero t.snap o
  else if inWords k Reg.Q_STATE 8 then
    let q := (k - Reg.Q_STATE) / 4
    flag32 (t.unreleased u q) 5 ||| at32 (t.queue u q).depth 0
  else if o = Reg.MU_GEOM then 0x03200820
  else if o = Reg.LA_GEOM then 0x3A896400
  else if o = Reg.LA_STATE then at32 (t.unit .la).queue.length 4 ||| at32 (t.bufState true) 2 ||| at32 (t.bufState false) 0
  else if o = Reg.VC_GEOM then 0x3081200C
  else if o = Reg.VC_STATE then flag32 ((t.unit .vc).running.any fun r => !r.malformed) 3 ||| at32 (t.unit .vc).queue.length 0
  else if o = Reg.SF_GEOM then 0x30741010
  else if o = Reg.SP_ROWS then 0x00091000
  else if o = Reg.SP_GEOM then 0x30102010
  else if o = Reg.SP_SLOT then at32 ((s.time n - t.origin) % 16) 0
  else if inWords o Reg.SP_SPOOL_PTR 32 then
    let x := t.spool ((o - Reg.SP_SPOOL_PTR) / 4)
    flag32 x.full 31 ||| at32 x.tail 16 ||| at32 x.head 0
  else if o = Reg.SH_REACH then at32 t.sh.out.length 16 ||| at32 (t.reachPort n).val 0
  else t.reg o

/-- The router block (R569). -/
def State.readRouter (s : State) (n : Site) (o : Nat) : Word :=
  let t := s.tile n
  if o = Reg.WF_GEOM then if s.steward.isB0 then 0x3440400A else 0x3410400A
  else if o = Reg.WF_FMAP_GEN then s.steward.fmapGen
  else if inWords o Reg.WF_BKT_STAT 8 then s.bucketStat (.tile n) ((o - Reg.WF_BKT_STAT) / 4)
  else if inWords o Reg.WF_PBKT_STAT 8 then
    match allPorts.find? fun p => siteOfPort p = n with
    | some p => s.bucketStat (.port p) ((o - Reg.WF_PBKT_STAT) / 4)
    | none => 0
  else if inWords o Reg.WF_FMAP 75 then
    let k := (o - Reg.WF_FMAP) / 4
    (List.range 32).foldl (fun w b => w ||| flag32 (s.steward.off (32 * k + b)) b) 0
  else if inWords o Reg.WF_DARN 256 then
    let (f, m, v) := Map.get noDarn s.steward.darnMap ((o - Reg.WF_DARN) / 4)
    flag32 v 31 ||| at32 f 16 ||| at32 m 0
  else t.reg o

/-- The port block (R572). -/
def State.readPort (s : State) (p : PortIx) (o : Nat) : Word :=
  let x := s.port p
  if o = Reg.GL_GEOM then (if s.steward.isB0 then 0x33181000 else 0x33081000) + BitVec.ofNat 32 p.val
  else if o = Reg.GL_STAT then x.reg o ||| at32 (PortMode.code x.mode) 0
  else if o = Reg.GL_RCGEOM then 0x30101099
  else x.reg o

/-- The counters of a steering unit (R569). -/
def Tile.readSteer (t : Tile) (o : Nat) : Word :=
  let u := 8 + (o - 0x400) / 0x80
  let k := o % 0x80
  if inWords k 0x50 5 then
    let q := (k - 0x50) / 4
    flag32 (t.unreleased u q) 5 ||| at32 (t.queue u q).depth 0
  else Map.get trfZero t.snap o

/-- A window word (R573, R574): the active slot, for SF fields the copy in force (R181), and the RW and RO bits of the same word. -/
def Tile.readWindow (t : Tile) (g k : Nat) : Word :=
  let w := (if g = 2 && 56 ≤ k then t.sfWord k else t.act g k) &&& imageMask g k
  if g < 5 && k = 0 then w ||| flag32 (t.seq g).halted 1 ||| flag32 (t.seq g).run 0
  else if g = 3 && k = 56 then w ||| (t.reg Reg.SP_CFG &&& 2)
  else if g = 6 && k = 0 then w ||| (t.reg Reg.TC_CFG &&& 0xF)
  else w

/-- A word of a tile space as it reads (R561). -/
def State.readTile (s : State) (n : Site) (o : Nat) : Word :=
  if s.steward.site n.val = 0 then 0
  else if !s.powered n && !alwaysOn o then 0
  else if o < 0x100 then s.readTc n o
  else if o < 0x600 then (s.tile n).readSteer o
  else if o < 0x1200 then s.readUnit n ((o - 0x800) / 0x200) o
  else if o < 0x1C00 then s.readRouter n o
  else if o < 0x2200 then
    match allPorts.find? fun p => siteOfPort p = n with
    | some p => s.readPort p o
    | none => 0
  else match Machine.windowOf o with
    | some (g, k) => (s.tile n).readWindow g k
    | none => 0

/-- A set-up word as it reads; none where the address is unmapped (R560, R561). -/
def State.setupRead (s : State) (a : Nat) : Option Word :=
  match setupAt a with
  | .steward o => if stewardMapped o then some (s.readSteward o) else none
  | .siteTable n => some (s.steward.siteEntry n)
  | .tile n o => if s.steward.site n.val = 0 || tileMapped n o then some (s.readTile n o) else none
  | .nowhere => none

/-! ## Writes of the steward's space -/

/-- How a set-up write ends: performed, unmapped, or an RWL field that may not be written (R522, R528, R560). -/
inductive SetupStatus where
  | ok | unmapped | ignored
deriving DecidableEq, Repr

/-- RW bits of a steward register written; bits whose encoding is reserved keep their value and set ST_PROTERR.SETUP (R14, R578). -/
def Steward.writeRW (x : Steward) (a : Nat) (mask keep w : Word) : Steward :=
  let x := if keep = 0 then x else x.flagBit Reg.ST_PROTERR 29
  x.setReg a (mergeMask (mask &&& ~~~keep) (x.reg a) w)

/-- W1C bits cleared (R10). -/
def Steward.clear (x : Steward) (a : Nat) (mask w : Word) : Steward := x.setReg a (x.reg a &&& ~~~(w &&& mask))

/-- The RWL registers of the steward's space (R576). -/
def isRwl (a : Nat) : Bool :=
  a == Reg.ST_LOCK || a == Reg.ST_PROT || a == Reg.ST_MBOX_LO || a == Reg.ST_MBOX_HI || a == Reg.BT_REC_LO || a == Reg.BT_REC_HI ||
    inWords a Reg.ST_FOVR 16

/-- Windows that a new policy forbids are closed at the write (R248, R523). -/
def Tile.applyPolicy (t : Tile) (prot : Word) : Tile :=
  let x := t.group 3
  let (m, _) := fixWindows prot x.active
  if m = x.active then t
  else (t.setGroup 3 { x with active := m, kept := some (crc32cWords (slotImage 3 m)) }).flagBit Reg.SP_ERR 8

/-- ST_PROT written by boot code (R523, R526): DBGEN needs a grant. -/
def State.writeProt (s : State) (w : Word) : State :=
  let x := s.steward
  let bad := bitOf w 3 && !bitOf (x.reg Reg.ST_BOOT) 8
  let s := s.onSteward fun x => x.writeRW Reg.ST_PROT 0xF (if bad then 8 else 0) w
  s.onTiles s.someTiles fun _ t => t.applyPolicy (s.steward.reg Reg.ST_PROT)

/-- ST_FOVRn written by boot code (R29, R524): a valid override needs a grant, and fences its site. -/
def State.writeFovr (s : State) (a : Nat) (w : Word) : State :=
  let x := s.steward
  if bitOf w 31 && !bitOf (x.reg Reg.ST_BOOT) 9 then s.onSteward fun x => x.flagBit Reg.ST_PROTERR 29
  else
    let s := s.onSteward fun x => x.writeRW a 0x80000FFF (keepIf w 0 12 (2400 ≤ ·)) w
    let v := s.steward.reg a
    match siteOf (fld v 0 12) with
    | some n => if bitOf v 31 then s.startSites [(n, 0)] else s
    | none => s

/-- An RWL register of the steward's space written by boot code before the lock (R522). -/
def State.writeRwl (s : State) (a : Nat) (w : Word) : State :=
  if a = Reg.ST_LOCK then if bitOf w 0 then s.onSteward Steward.lock else s
  else if a = Reg.ST_PROT then s.writeProt w
  else if a = Reg.ST_MBOX_LO then s.onSteward fun x => x.writeRW a 0xFFFFF000 0 w
  else if a = Reg.BT_REC_LO then s.onSteward fun x => x.writeRW a 0xFFFFFFF8 0 w
  else if a = Reg.ST_MBOX_HI || a = Reg.BT_REC_HI then s.onSteward fun x => x.writeRW a 0x0FFFFFFF 0 w
  else s.writeFovr a w

/-- ST_SLEEP written (R567, R578). -/
def State.writeSleep (s : State) (w : Word) : State :=
  let s := s.onSteward fun x => x.clear Reg.ST_SLEEP 0x40000000 w
  if bitOf w 31 then s.sleepCmd (BitVec.ofNat 12 (fld w 0 12)) (fld w 28 2)
  else
    let keep := keepIf w 28 2 (fun v => v == 0 || v == 3) ||| keepIf w 0 12 (2400 ≤ ·)
    let s := s.onSteward fun x => x.setReg Reg.ST_SLEEP (mergeMask (0x30000FFF &&& ~~~keep) (x.reg Reg.ST_SLEEP) w)
    if keep = 0 then s else s.onSteward fun x => x.flagBit Reg.ST_SLEEP 30

/-- ST_VSETn written (R544, R546, R555): with AVSEN = 0 no code of the loop's waits any more, and a written FTGT is in force as it is. -/
def State.writeVset (s : State) (f : FieldNo) (w : Word) : State :=
  let keep := keepIf w 16 12 (fun v => v < 1200 || 2200 < v) ||| keepIf w 8 6 (40 < ·)
  let s := s.onSteward fun x =>
    let x := x.writeRW (Reg.ST_VSET + 4 * f.val) 0x8FFF3F00 keep w
    let x := if bitOf w 31 then x else { x with vidDefer := x.vidDefer.set f.val none }
    if 1200 ≤ fld w 16 12 && fld w 16 12 ≤ 2200 then
      { x with ftgtWritten := x.ftgtWritten.set f.val (fld w 16 12), sustLow := x.sustLow.set f.val 0, thermLow := x.thermLow.set f.val 0 }
    else x
  s.vidSteer f

/-- The bits of ST_PWRLIM that a value leaves as they are (R556): SUST is at most the PEAK in force after the write, and a PEAK below the
SUST that stays in force stays out too. -/
def pwrKeep (old w : Word) : Word :=
  let badP := fld w 16 11 < 200 || 1500 < fld w 16 11
  let peak := if badP then fld old 16 11 else fld w 16 11
  let badS := fld w 0 11 < 200 || 1500 < fld w 0 11 || peak < fld w 0 11
  (if badP || (badS && peak < fld old 0 11) then mask32 16 11 else 0) ||| if badS then mask32 0 11 else 0

/-- ST_FPOLn (R487). -/
def fpolKeep (w : Word) : Word :=
  if fld w 8 2 = 2 && fld w 0 8 = 0 then 0x3FF else keepIf w 8 2 (· == 3)

/-- A steward register that any of the steward's writers may write (R10, R565). -/
def State.writeOpen (s : State) (a : Nat) (w : Word) : State :=
  let rw := fun mask keep => s.onSteward fun x => x.writeRW a mask keep w
  let w1c := fun mask => s.onSteward fun x => x.clear a mask w
  if a = Reg.ST_FW then
    let s := w1c 8
    if bitOf w 2 then s.fwConfirm else s
  else if a = Reg.ST_PROTERR then w1c 0xA0000000
  else if a = Reg.ST_SLEEP then s.writeSleep w
  else if a = Reg.ST_DL_CFG then rw 0x800F03FF (keepIf w 0 10 (· == 0))
  else if a = Reg.ST_STITCH_CFG then rw 0xFFFFFFFF 0
  else if inWords a Reg.ST_VSET 4 then s.writeVset ⟨(a - Reg.ST_VSET) / 4 % 4, Nat.mod_lt _ (by decide)⟩ w
  else if a = Reg.ST_PWRLIM then rw 0x07FF07FF (pwrKeep (s.steward.reg a) w)
  else if a = Reg.ST_PWR_ERR then w1c 0xFFF
  else if a = Reg.ST_DARNTAB_LO then rw 0xFFFFFFC0 0
  else if a = Reg.ST_DARNTAB_HI then rw 0x8FFFFFFF 0
  else if a = Reg.ST_DARN_STAT then w1c 0x40000000
  else if a = Reg.ST_FLOG_SEL then rw 0xFF 0
  else if inWords a (Reg.ST_FPOL + 4) 14 then rw 0x3FF (fpolKeep w)
  else if a = Reg.BT_CFG then rw 0x8000FFFF (keepIf w 0 16 (· == 0))
  else if a = Reg.BT_CTL then if bitOf w 0 then s.shutdownTest else s
  else if a = Reg.BT_STAT then w1c 0x10000000
  else if a = Reg.BT_SAVE_LO then rw 0xFFFC0000 0
  else if a = Reg.BT_SAVE_HI then rw 0x0FFFFFFF 0
  else if a = Reg.LM_CTX_SEL then rw 0x3FFF 0
  else if a = Reg.LM_ERR then w1c 0xF
  else if inWords a Reg.ST_ABKT 64 && (a - Reg.ST_ABKT) % 0x40 < 0x20 then
    let c := (a - Reg.ST_ABKT) % 0x40 / 4
    (s.settleBucket (.attach ⟨(a - Reg.ST_ABKT) / 0x40 % 4, Nat.mod_lt _ (by decide)⟩) c).onSteward fun x =>
      x.writeRW a 0xFFFFFFFF (bucketKeep c (x.reg a) w) w
  else s

/-- A write of a steward register. -/
def State.writeSteward (s : State) (src : WriteSrc) (a : Nat) (w : Word) : State × SetupStatus :=
  if isRwl a then
    if s.steward.bootCode src then (s.writeRwl a w, .ok) else (s.onSteward fun x => x.violation src a, .ignored)
  else (s.writeOpen a w, .ok)

/-! ## Writes of a tile space -/

/-- RW bits of a tile register written (R14, R578). -/
def Tile.writeRW (t : Tile) (o : Nat) (w : Word) : Tile :=
  let keep := tileKeep o (t.reg o) w
  let t := if keep = 0 then t else t.flagBit (tileFlag o).1 (tileFlag o).2
  t.setReg o (mergeMask (tileRW o &&& ~~~keep) (t.reg o) w)

/-- TC_EVT written: W1C, but the steward's write of STEWARD sets it (R224). -/
def Tile.writeEvt (t : Tile) (core : Bool) (w : Word) : Tile :=
  if core then t.setReg Reg.TC_EVT (t.reg Reg.TC_EVT &&& ~~~(w &&& 7))
  else t.setReg Reg.TC_EVT ((t.reg Reg.TC_EVT &&& ~~~(w &&& 3)) ||| (w &&& 4))

/-- TC_CTL (R195): HALT wins over GO. -/
def State.writeCtl (s : State) (n : Site) (w : Word) : State :=
  if bitOf w 1 then s.onTile n Tile.haltCore
  else if bitOf w 0 then s.onTile n fun t => t.goCore (s.time n) else s

/-- TC_WV_CTL (R285): the copy is taken before the counters are cleared. -/
def Tile.writeWvCtl (t : Tile) (w : Word) : Tile :=
  let t := if bitOf w 0 then { t with snap := t.live } else t
  if bitOf w 1 then { t with live := [] } else t

/-- TC_SCAN_CTL (R325, R326, R331, R496): a scan starts or is refused, or waits for a slice. -/
def State.writeScan (s : State) (n : Site) (w : Word) : State :=
  if !bitOf w 30 then s.onTile n fun t => t.writeScanCtl w
  else if !bitOf w 29 then s.startScanOut n w
  else
    let s := s.onTile n fun t => t.writeScanCtl w
    if (s.tile n).freeze.slice then s.onTile n fun t => t.pendScan w else s.goScanIn n

/-- A bucket of the router's block (R361). -/
def State.writeBucket (s : State) (n : Site) (pt : InjPoint) (c o : Nat) (w : Word) : State :=
  (s.settleBucket pt c).onTile n fun t => t.writeRW o w

/-- A window word (R297, R573, R574, R578): the RW bits at once, the RWS bits into the standby slot. -/
def Tile.writeWindow (t : Tile) (n : Site) (g k : Nat) (w : Word) : Tile :=
  let w := seamWord n g w
  let keep := imageKeep g k w
  let t := if keep = 0 then t else t.flagBit (imageFlag g k).1 (imageFlag g k).2
  let t := if g = 3 && k = 56 then t.setReg Reg.SP_CFG (w &&& 2)
    else if g = 6 && k = 0 then t.setReg Reg.TC_CFG (w &&& 0xF) else t
  t.writeStandby g k (imageMask g k &&& ~~~keep) w

/-- A role map that R378 allows. -/
def roleMapOk (x : Steward) (w : Word) : Bool :=
  let n := fun r => ((List.range 8).filter fun g => fld w (2 * g) 2 = r).length
  n 0 != 0 && n 1 != 0 && n 2 != 0 && n 3 ≤ (if bitOf (x.reg Reg.ST_PROT) 3 then 1 else 0)

/-- GL_ROLE (R378, R522, R525): of a port past training, the new map waits for the backing's ROLES. -/
def State.writeRole (s : State) (src : WriteSrc) (n : Site) (p : PortIx) (w : Word) : State × SetupStatus :=
  if !s.steward.bootCode src then (s.onSteward fun x => x.violation src (tileAddr n Reg.GL_ROLE), .ignored)
  else if !roleMapOk s.steward w then (s.onPort p fun x => x.flagBit Reg.GL_ERR 10, .ok)
  else
    let s := s.onPort p fun x => x.setReg Reg.GL_ROLE (w &&& 0xFFFF)
    if (s.port p).mode == .up || (s.port p).mode == .discover then
      ((s.onPort p fun x => { x with rolesPending := true }).lctl p 6 (leBytes 2 (w.toNat % 65536)), .ok)
    else (s, .ok)

/-- The port block (R572). -/
def State.writePort (s : State) (src : WriteSrc) (n : Site) (p : PortIx) (o : Nat) (w : Word) : State × SetupStatus :=
  if o = Reg.GL_ROLE then s.writeRole src n p w
  else
    let f : Port → Port :=
      if o = Reg.GL_ERR then fun x => x.setReg o (x.reg o &&& ~~~(w &&& 0x7FF))
      else if o = Reg.GL_RCERR then fun x => x.setReg o (x.reg o &&& ~~~(w &&& 0x1F))
      else if o = Reg.GL_RCCFG then fun x => x.writeCacheCfg w
      else if o = Reg.GL_PFCFG then fun x => x.writePrefetchCfg w
      else if inWords o Reg.GL_RORNG 64 then fun x => x.writeRange ((o - Reg.GL_RORNG) / 16) (o % 16 / 4) w
      else id
    (s.onPort p f, .ok)

/-- The registers of a tile, of its units and of its router (R569, R570); a tile's own core does not write TC_SCAN_CTL (R323). -/
def State.writeTileReg (s : State) (src : WriteSrc) (n : Site) (o : Nat) (w : Word) : State :=
  let core := match src with
    | .core _ => true
    | _ => false
  if o = Reg.TC_CTL then s.writeCtl n w
  else if o = Reg.TC_EVT then s.onTile n fun t => t.writeEvt core w
  else if o = Reg.TC_WV_CTL then s.onTile n fun t => t.writeWvCtl w
  else if o = Reg.TC_SCAN_CTL then if core then s else s.writeScan n w
  else if o = Reg.SP_PWR then s.onTile n fun t => t.setGate (w.setWidth 16)
  else if inWords o Reg.WF_BKT 8 then s.writeBucket n (.tile n) ((o - Reg.WF_BKT) / 4) o w
  else if inWords o Reg.WF_PBKT 8 then
    match allPorts.find? fun p => siteOfPort p = n with
    | some p => s.writeBucket n (.port p) ((o - Reg.WF_PBKT) / 4) o w
    | none => s
  else if tileW1C o != 0 then s.onTile n fun t => t.setReg o (t.reg o &&& ~~~(w &&& tileW1C o))
  else if tileRW o != 0 then s.onTile n fun t => t.writeRW o w
  else s

/-- A write of a tile space (R561). -/
def State.writeTile (s : State) (src : WriteSrc) (n : Site) (o : Nat) (w : Word) : State × SetupStatus :=
  if s.steward.site n.val = 0 || (!s.powered n && !alwaysOn o) then (s, .ok)
  else match Machine.windowOf o with
    | some (g, k) => (s.onTile n fun t => t.writeWindow n g k w, .ok)
    | none =>
      if 0x2000 ≤ o then
        match allPorts.find? fun p => siteOfPort p = n with
        | some p => s.writePort src n p o w
        | none => (s, .unmapped)
      else (s.writeTileReg src n o w, .ok)

/-- A set-up write (R560, R561); a tile core reaches only its own tile's space. -/
def State.setupWrite (s : State) (src : WriteSrc) (a : Nat) (w : Word) : State × SetupStatus :=
  let own := fun n : Site => match src with
    | .core m => m == n
    | _ => true
  let core := match src with
    | .core _ => true
    | _ => false
  match setupAt a with
  | .steward o => if stewardMapped o && !core then s.writeSteward src o w else (s, .unmapped)
  | .siteTable _ => (s, if core then .unmapped else .ok)
  | .tile n o =>
    if own n && (s.steward.site n.val = 0 || tileMapped n o) then s.writeTile src n o w else (s, .unmapped)
  | .nowhere => (s, .unmapped)

/-! ## Several words (R527, R528, R560) -/

/-- Words read in increasing address order; those of unmapped addresses are open (assumption 14). -/
def State.readWords (s : State) (a n : Nat) : List Word × Bool :=
  let l := (List.range n).map fun i => s.setupRead (a + 4 * i)
  ((List.range n).map fun i => (l.getD i none).getD (Config.unmappedWord s.fresh i), l.all Option.isSome)

/-- Words written in increasing address order; whether any was unmapped, and whether any was ignored. -/
def State.writeWords (s : State) (src : WriteSrc) (a : Nat) (ws : List Word) : State × Bool × Bool :=
  (List.range ws.length).foldl (fun (r : State × Bool × Bool) i =>
    let (s, st) := r.1.setupWrite src (a + 4 * i) (ws.getD i 0)
    (s, r.2.1 || st == .unmapped, r.2.2 || st == .ignored)) (s, false, false)

/-- REGRD (R528). -/
def State.regrd (s : State) (k : Fin 4) : State :=
  match s.steward.request k 1 with
  | none => s
  | some h =>
    let a := numAt h 16 4
    if a % 4 ≠ 0 then s.reply k [] 2
    else
      let (ws, all) := s.readWords a (numAt h 12 4)
      ({ s with fresh := s.fresh + 1 } : State).reply k (bytesOfWords ws) (if all then 0 else 3)

def execRegrd (slot : Fin 4) (s : State) : Host.Outcome State Fault Refusal := live s fun s => s.regrd slot

/-- REGWR (R522, R528), with the words of the slot, which the steward reads; a word that R522 ignores makes the status REFUSED. -/
def State.regwr (s : State) (k : Fin 4) (data : List Word) : State :=
  match s.steward.request k 2 with
  | none => s
  | some h =>
    let a := numAt h 16 4
    if a % 4 ≠ 0 then s.reply k [] 2
    else
      let s := s.readBlocks [(s.steward.slotAddr k + 64, 4 * numAt h 12 4)]
      let (s, unmapped, ignored) := s.writeWords .mailbox a ((List.range (numAt h 12 4)).map fun i => data.getD i 0)
      s.reply k [] (if ignored then 2 else if unmapped then 3 else 0)

def execRegwr (slot : Fin 4) (data : List Word) (s : State) : Host.Outcome State Fault Refusal :=
  live s fun s => s.regwr slot data

/-- A role D request is well formed (R527): whole words, at most 256 bytes, within one block of 256 B. -/
def roleDOk (a : GAddr) (n : Nat) : Bool := a.toNat < 2 ^ 32 && a.toNat % 4 = 0 && n % 4 = 0 && 1 ≤ n && a.toNat % 256 + n ≤ 256

/-- A port admits headers of role D (R376, R526, R527). -/
def State.roleD (s : State) (p : PortIx) : Bool :=
  (s.port p).mode == .up && bitOf (s.steward.reg Reg.ST_PROT) 3 && fld (s.steward.reg Reg.ST_BOOT) 0 2 ≠ 3

/-- DRD (R527); a response that is not OK carries no data (R375). -/
def execDrd (port : PortIx) (tag : BitVec 12) (addr : GAddr) (len : BitVec 10) (s : State) : Host.Outcome State Fault Refusal :=
  live s fun s =>
    if !s.roleD port then s
    else if !roleDOk addr (len.toNat + 1) then s.portSend port (.drsp port tag 1 [])
    else
      let (ws, all) := s.readWords addr.toNat ((len.toNat + 1) / 4)
      ({ s with fresh := s.fresh + 1 } : State).portSend port (.drsp port tag (if all then 0 else 3) (if all then bytesOfWords ws else []))

/-- DWR (R527): an RWL field is ignored, and the other words are applied. -/
def execDwr (port : PortIx) (tag : BitVec 12) (addr : GAddr) (data : List Byte) (s : State) : Host.Outcome State Fault Refusal :=
  live s fun s =>
    if !s.roleD port then s
    else if !roleDOk addr data.length then s.portSend port (.drsp port tag 1 [])
    else
      let (s, unmapped, _) := s.writeWords .roleD addr.toNat (wordsOf data (data.length / 4))
      s.portSend port (.drsp port tag (if unmapped then 3 else 0) [])

end Sys2Proof.Machine
end

