-- ==== Sys2Proof/Machine/CoreRun.lean ====
section
/-! DEFINITION. The tile core (R190 to R212): RV32IMC and Zicsr instructions, traps, and the command extension. Each row of an
instruction runs the instruction at the core's pc; a row that names another instruction than stands there changes nothing. -/

namespace Sys2Proof.Machine

/-! ## Traps -/

/-- MEIP (R197). -/
def Tile.meip (t : Tile) : Bool := (List.range 3).any fun i => bitOf (t.reg Reg.TC_EVT) i && bitOf (t.reg Reg.TC_CFG) (1 + i)

/-- An exception or interrupt taken (R197): under HALTTRAP the core halts and reports; otherwise it jumps to mtvec. -/
def Tile.trap (t : Tile) (me : Site) (intr : Bool) (cause : Nat) (tval : Word) : Tile :=
  if bitOf (t.reg Reg.TC_CFG) 0 then
    let t := t.setReg Reg.TC_TRAP (flag32 intr 31 ||| at32 (cause % 16) 27 ||| at32 (fld t.core.pc 0 16) 0)
    let t := t.flagBit Reg.TC_ERR 3
    (t.haltCore).raise me 0x06 0xC (t.reg Reg.TC_ERR)
  else
    (t.onCore fun c =>
      { c with
        mepc := c.pc &&& 0xFFFFFFFE, mcause := flag32 intr 31 ||| BitVec.ofNat 32 cause, mtval := tval, mpie := c.mie
        mie := false, pc := c.mtvec, mode := .running, bk := .none }).spend 2

/-- mtval of an exception whose address or instruction is `w` (assumption 18). -/
def tvalOf (cause : Nat) (w : Word) : Word := if Config.mtvalWritten cause then w else 0

/-- A corrected error (R193). -/
def Tile.coreCe (t : Tile) : Tile := t.flagBit Reg.TC_ERR 1

/-- An uncorrectable error in the core's memories (R193). -/
def Tile.coreUe (t : Tile) (me : Site) : Tile :=
  let t := t.flagBit Reg.TC_ERR 2
  t.raise me 0x03 0xC (t.reg Reg.TC_ERR)

/-! ## Compressed instructions -/

/-- Bits of `h` from bit `hi` downwards, placed at the bits listed. -/
def scatter (h hi : Nat) (dst : List Nat) : Nat :=
  ((List.range dst.length).map fun k => (h >>> (hi - k)) % 2 * 2 ^ dst.getD k 0).sum

/-- A sign-extended immediate. -/
def immOf (v len : Nat) : Word := BitVec.ofInt 32 (sext v len)

def rvI (imm rs1 f3 rd op : Nat) : Word :=
  BitVec.ofNat 32 (imm % 4096 * 2 ^ 20 + rs1 * 2 ^ 15 + f3 * 2 ^ 12 + rd * 2 ^ 7 + op)

def rvR (f7 rs2 rs1 f3 rd : Nat) : Word :=
  BitVec.ofNat 32 (f7 * 2 ^ 25 + rs2 * 2 ^ 20 + rs1 * 2 ^ 15 + f3 * 2 ^ 12 + rd * 2 ^ 7 + 0x33)

def rvS (imm rs2 rs1 : Nat) : Word :=
  BitVec.ofNat 32 (imm / 32 % 128 * 2 ^ 25 + rs2 * 2 ^ 20 + rs1 * 2 ^ 15 + 2 * 2 ^ 12 + imm % 32 * 2 ^ 7 + 0x23)

def rvB (imm rs1 f3 : Nat) : Word :=
  BitVec.ofNat 32 (imm / 4096 % 2 * 2 ^ 31 + imm / 32 % 64 * 2 ^ 25 + rs1 * 2 ^ 15 + f3 * 2 ^ 12 + imm / 2 % 16 * 2 ^ 8 +
    imm / 2048 % 2 * 2 ^ 7 + 0x63)

def rvJ (imm rd : Nat) : Word :=
  BitVec.ofNat 32 (imm / 2 ^ 20 % 2 * 2 ^ 31 + imm / 2 % 1024 * 2 ^ 21 + imm / 2048 % 2 * 2 ^ 20 + imm / 4096 % 256 * 2 ^ 12 +
    rd * 2 ^ 7 + 0x6F)

/-- Quadrant 0 of the C extension. -/
def rvc0 (h : Nat) : Option Word :=
  let rs := 8 + h / 128 % 8
  let rd := 8 + h / 4 % 8
  let off := scatter h 12 [5, 4, 3] + scatter h 6 [2, 6]
  match h / 2 ^ 13 % 8 with
  | 0 =>
    let nz := scatter h 12 [5, 4, 9, 8, 7, 6, 2, 3]
    if nz = 0 then none else some (rvI nz 2 0 rd 0x13)
  | 2 => some (rvI off rs 2 rd 0x03)
  | 6 => some (rvS off rd rs)
  | _ => none

/-- The register arithmetic of quadrant 1. -/
def rvcAlu (h i6 : Nat) : Option Word :=
  let rd := 8 + h / 128 % 8
  let sh := h / 4 % 32
  let top := h / 2 ^ 12 % 2 = 1
  match h / 2 ^ 10 % 4 with
  | 0 => if top then none else some (rvI sh rd 5 rd 0x13)
  | 1 => if top then none else some (rvI (0x400 + sh) rd 5 rd 0x13)
  | 2 => some (rvI i6 rd 7 rd 0x13)
  | _ =>
    if top then none
    else
      let f := h / 32 % 4
      some (rvR (if f = 0 then 0x20 else 0) (8 + h / 4 % 8) rd ([0, 4, 6, 7].getD f 0) rd)

/-- Quadrant 1 of the C extension. -/
def rvc1 (h : Nat) : Option Word :=
  let rd := h / 128 % 32
  let i6 := (sext (scatter h 12 [5] + h / 4 % 32) 6 % 2 ^ 32).toNat
  let jump := (sext (scatter h 12 [11, 4, 9, 8, 10, 6, 7, 3, 2, 1, 5]) 12 % 2 ^ 32).toNat
  let br := (sext (scatter h 12 [8, 4, 3] + scatter h 6 [7, 6, 2, 1, 5]) 9 % 2 ^ 32).toNat
  match h / 2 ^ 13 % 8 with
  | 0 => some (rvI i6 rd 0 rd 0x13)
  | 1 => some (rvJ jump 1)
  | 2 => some (rvI i6 0 0 rd 0x13)
  | 3 =>
    if rd = 2 then
      let nz := (sext (scatter h 12 [9] + scatter h 6 [4, 6, 8, 7, 5]) 10 % 2 ^ 32).toNat
      if nz = 0 then none else some (rvI nz 2 0 2 0x13)
    else if i6 = 0 then none
    else some (BitVec.ofNat 32 (i6 % 2 ^ 20 * 2 ^ 12 + rd * 2 ^ 7 + 0x37))
  | 4 => rvcAlu h i6
  | 5 => some (rvJ jump 0)
  | 6 => some (rvB br (8 + h / 128 % 8) 0)
  | _ => some (rvB br (8 + h / 128 % 8) 1)

/-- Quadrant 2 of the C extension. -/
def rvc2 (h : Nat) : Option Word :=
  let rd := h / 128 % 32
  let rs := h / 4 % 32
  let top := h / 2 ^ 12 % 2
  match h / 2 ^ 13 % 8 with
  | 0 => if top = 1 then none else some (rvI rs rd 1 rd 0x13)
  | 2 => if rd = 0 then none else some (rvI (scatter h 12 [5] + scatter h 6 [4, 3, 2, 7, 6]) 2 2 rd 0x03)
  | 4 =>
    if rs = 0 then
      if rd = 0 then if top = 1 then some 0x00100073 else none
      else some (rvI 0 rd 0 top 0x67)
    else some (rvR 0 rs (if top = 1 then rd else 0) 0 rd)
  | 6 => some (rvS (scatter h 12 [5, 4, 3, 2, 7, 6]) rs 2)
  | _ => none

/-- The 32-bit form of a 16-bit instruction; none where the C extension leaves the encoding reserved (R190). -/
def rvcExpand (h : Nat) : Option Word :=
  match h % 4 with
  | 0 => rvc0 h
  | 1 => rvc1 h
  | _ => rvc2 h

/-! ## Fetch -/

/-- What a fetch gives: an instruction with its length and the bits it was fetched as, or an exception. -/
inductive Fetched where
  | ins (w : Word) (len : Nat) (raw : Word)
  | bad (raw : Word)
  | fault (addr : Word)
deriving DecidableEq, Repr

/-- The instruction at the core's pc (R192). -/
def Tile.fetchIns (t : Tile) : Fetched :=
  let pc := t.core.pc.toNat
  if 0x10000 ≤ pc then .fault t.core.pc
  else
    let h := leNat (Memory.readBytes t.core.imem pc 2)
    if h % 4 = 3 then
      if 0x10000 < pc + 4 then .fault (t.core.pc + 2)
      else
        let w := BitVec.ofNat 32 (leNat (Memory.readBytes t.core.imem pc 4))
        .ins w 4 w
    else match rvcExpand h with
      | some w => .ins w 2 (BitVec.ofNat 32 h)
      | none => .bad (BitVec.ofNat 32 h)

/-- A command-extension instruction that R198 encodes: funct3, unit, rd, rs1, rs2. -/
def bkDecode (w : Word) : Option Nat :=
  let f3 := fld w 12 3
  if fld w 0 7 ≠ 0x0B then none
  else if f3 < 2 then if fld w 25 7 < 5 then some f3 else none
  else if f3 ≤ 4 then if fld w 25 7 = 0 && fld w 20 5 = 0 then some f3 else none
  else if w = 0x0000500B then some 5 else none

/-- The WFI instruction. -/
def wfiWord : Word := 0x10500073

/-- The command-extension instruction, or WFI as 6, at the core's pc. -/
def Tile.special (t : Tile) : Option (Nat × Word) :=
  match t.fetchIns with
  | .ins w _ _ => if w = wfiWord then some (6, w) else (bkDecode w).map fun k => (k, w)
  | _ => none

/-! ## Arithmetic (R190) -/

/-- OP and OP-IMM. -/
def rvAlu (f3 : Nat) (alt : Bool) (a b : Word) : Word :=
  match f3 with
  | 0 => if alt then a - b else a + b
  | 1 => a <<< (b.toNat % 32)
  | 2 => if a.slt b then 1 else 0
  | 3 => if a.ult b then 1 else 0
  | 4 => a ^^^ b
  | 5 => if alt then a.sshiftRight (b.toNat % 32) else a >>> (b.toNat % 32)
  | 6 => a ||| b
  | _ => a &&& b

/-- The M extension: products, quotients toward zero, remainders with the dividend's sign. -/
def rvMulDiv (f3 : Nat) (a b : Word) : Word :=
  match f3 with
  | 0 => a * b
  | 1 => BitVec.ofInt 32 (a.toInt * b.toInt / 2 ^ 32)
  | 2 => BitVec.ofInt 32 (a.toInt * (b.toNat : Int) / 2 ^ 32)
  | 3 => BitVec.ofNat 32 (a.toNat * b.toNat / 2 ^ 32)
  | 4 => if b = 0 then 0xFFFFFFFF else BitVec.ofInt 32 (a.toInt.tdiv b.toInt)
  | 5 => if b = 0 then 0xFFFFFFFF else BitVec.ofNat 32 (a.toNat / b.toNat)
  | 6 => if b = 0 then a else BitVec.ofInt 32 (a.toInt.tmod b.toInt)
  | _ => if b = 0 then a else BitVec.ofNat 32 (a.toNat % b.toNat)

/-- Branch conditions. -/
def rvTaken (f3 : Nat) (a b : Word) : Bool :=
  match f3 with
  | 0 => a == b
  | 1 => a != b
  | 4 => a.slt b
  | 5 => !a.slt b
  | 6 => a.ult b
  | _ => !a.ult b

/-! ## CSRs (R191) -/

/-- A CSR as it reads; none where R191 gives none. -/
def State.csr (s : State) (n : Site) (a : Nat) : Option Word :=
  let t := s.tile n
  let c := t.core
  let cyc := BitVec.ofNat 64 (s.time n) + c.mcycle
  match a with
  | 0x300 => some (flag32 c.mpie 7 ||| flag32 c.mie 3)
  | 0x301 => some 0x40001104
  | 0x304 => some (flag32 c.meie 11)
  | 0x305 => some c.mtvec
  | 0x340 => some c.mscratch
  | 0x341 => some c.mepc
  | 0x342 => some c.mcause
  | 0x343 => some c.mtval
  | 0x344 => some (flag32 t.meip 11)
  | 0xB00 => some (cyc.setWidth 32)
  | 0xB80 => some ((cyc >>> 32).setWidth 32)
  | 0xB02 => some (c.minstret.setWidth 32)
  | 0xB82 => some ((c.minstret >>> 32).setWidth 32)
  | 0xF11 => some 0
  | 0xF12 => some 0
  | 0xF13 => some 0
  | 0xF14 => some (BitVec.ofNat 32 n.val)
  | _ => none

/-- A CSR written; misa and mip take no write. The counters take it after the writing instruction has retired. -/
def CoreSt.setCsr (c : CoreSt) (time a : Nat) (w : Word) : CoreSt :=
  let lo := fun x : BitVec 64 => mergeMask 0xFFFFFFFF#64 x (w.setWidth 64)
  let hi := fun x : BitVec 64 => mergeMask 0xFFFFFFFF00000000#64 x (w.setWidth 64 <<< 32)
  let now := BitVec.ofNat 64 time
  match a with
  | 0x300 => { c with mpie := bitOf w 7, mie := bitOf w 3 }
  | 0x304 => { c with meie := bitOf w 11 }
  | 0x305 => { c with mtvec := w &&& 0xFFFFFFFC }
  | 0x340 => { c with mscratch := w }
  | 0x341 => { c with mepc := w &&& 0xFFFFFFFE }
  | 0x342 => { c with mcause := w }
  | 0x343 => { c with mtval := w }
  | 0xB00 => { c with mcycle := lo (now + c.mcycle) - now }
  | 0xB80 => { c with mcycle := hi (now + c.mcycle) - now }
  | 0xB02 => { c with minstret := lo c.minstret }
  | 0xB82 => { c with minstret := hi c.minstret }
  | _ => c

/-! ## Loads and stores (R192, R193) -/

/-- How an instruction ends. -/
inductive CoreEnd where
  | retire (s : State) (next : Word) (cost : Nat)
  | trap (s : State) (cause : Nat) (tval : Word)
deriving DecidableEq, Repr

/-- Where a local address lies. -/
inductive CoreAt where
  | imem (off : Nat)
  | dmem (off : Nat)
  | setup (off : Nat)
  | nowhere
deriving DecidableEq, Repr

def coreAt (a : Word) : CoreAt :=
  let n := a.toNat
  if n < 0x10000 then .imem n else if n < 0x14000 then .dmem (n - 0x10000)
  else if 0x20000 ≤ n && n < 0x30000 then .setup (n - 0x20000) else .nowhere

/-- Bytes of an access, by funct3. -/
def accessBytes (f3 : Nat) : Nat := 2 ^ (f3 % 4)

/-- A loaded value, extended as funct3 says. -/
def extendLoad (f3 v : Nat) : Word := if f3 < 2 then immOf v (8 * accessBytes f3) else BitVec.ofNat 32 v

/-- A value loaded into rd. -/
def State.loadTo (s : State) (n : Site) (f3 rd : Nat) (v : Nat) : State :=
  s.onTile n fun t => t.setX rd (extendLoad f3 v)

/-- A load from the core's memories: a check-bit error that is not corrected raises an access fault (R193). -/
def State.loadMem (s : State) (n : Site) (ecc : CoreEcc) (f3 rd : Nat) (a next : Word) (m : Memory) (off : Nat) : CoreEnd :=
  match ecc with
  | .ueData _ => .trap (s.onTile n fun t => t.coreUe n) 5 (tvalOf 5 a)
  | _ =>
    let s := s.loadTo n f3 rd (leNat (Memory.readBytes m off (accessBytes f3)))
    .retire (s.onTile n fun t => t.onCore fun c => { c with loaded := (rd, s.time n + 1) }) next 1

/-- A load. -/
def State.coreLoad (s : State) (n : Site) (ecc : CoreEcc) (f3 rd : Nat) (a next : Word) : CoreEnd :=
  let t := s.tile n
  let odd := a.toNat % accessBytes f3 ≠ 0
  match coreAt a with
  | .setup o =>
    if f3 = 2 ∧ ¬odd then .retire (s.loadTo n f3 rd ((s.setupRead (tileAddr n o)).getD 0).toNat) next 8 else .trap s 5 (tvalOf 5 a)
  | .imem o => if odd then .trap s 4 (tvalOf 4 a) else s.loadMem n ecc f3 rd a next t.core.imem o
  | .dmem o => if odd then .trap s 4 (tvalOf 4 a) else s.loadMem n ecc f3 rd a next t.core.dmem o
  | .nowhere => if odd then .trap s 4 (tvalOf 4 a) else .trap s 5 (tvalOf 5 a)

/-- A store. -/
def State.coreStore (s : State) (n : Site) (f3 : Nat) (a v next : Word) : CoreEnd :=
  let odd := a.toNat % accessBytes f3 ≠ 0
  match coreAt a with
  | .setup o => if f3 = 2 ∧ ¬odd then .retire (s.setupWrite (.core n) (tileAddr n o) v).1 next 1 else .trap s 7 (tvalOf 7 a)
  | .dmem o =>
    if odd then .trap s 6 (tvalOf 6 a)
    else .retire (s.onTile n fun t => t.onCore fun c =>
      { c with dmem := Memory.writeBytes c.dmem o (leBytes (accessBytes f3) v.toNat) }) next 1
  | _ => if odd then .trap s 6 (tvalOf 6 a) else .trap s 7 (tvalOf 7 a)

/-! ## One standard instruction (R190) -/

/-- A CSR instruction (R191). -/
def State.coreCsr (s : State) (n : Site) (w raw next : Word) : CoreEnd :=
  let f3 := fld w 12 3
  let a := fld w 20 12
  let rs := fld w 15 5
  let v := if f3 < 4 then (s.tile n).xreg rs else BitVec.ofNat 32 rs
  let writes := f3 % 4 == 1 || rs != 0
  match s.csr n a with
  | none => .trap s 2 (tvalOf 2 raw)
  | some old =>
    if writes && a / 1024 = 3 then .trap s 2 (tvalOf 2 raw)
    else
      let new := match f3 % 4 with
        | 1 => v
        | 2 => old ||| v
        | _ => old &&& ~~~v
      let s := s.onTile n fun t => t.setX (fld w 7 5) old
      let counts := a = 0xB02 || a = 0xB82
      let inc : CoreSt → CoreSt := fun c => if counts && writes then { c with minstret := c.minstret + 1 } else c
      let dec : CoreSt → CoreSt := fun c => if counts && writes then { c with minstret := c.minstret - 1 } else c
      let s := if writes then s.onTile n fun t => t.onCore fun c => dec ((inc c).setCsr (s.time n) a new) else s
      .retire s next 1

/-- SYSTEM instructions without a CSR: ECALL, EBREAK, MRET. -/
def State.coreSystem (s : State) (n : Site) (w raw : Word) : CoreEnd :=
  let c := (s.tile n).core
  if w = 0x00000073 then .trap s 11 0
  else if w = 0x00100073 then .trap s 3 (tvalOf 3 c.pc)
  else if w = 0x30200073 then
    .retire (s.onTile n fun t => t.onCore fun c => { c with mie := c.mpie, mpie := true }) c.mepc 2
  else .trap s 2 (tvalOf 2 raw)

/-- Cycles of an M instruction (R194). -/
def mulCost (f3 : Nat) (a b : Word) : Nat :=
  if f3 < 4 || b = 0 || (f3 % 2 = 0 && a = 0x80000000 && b = 0xFFFFFFFF) then 2 else 34

/-- OP: the base and M instructions on two registers. -/
def State.coreOp (s : State) (n : Site) (w raw next : Word) (a b : Word) : CoreEnd :=
  let f3 := fld w 12 3
  let f7 := fld w 25 7
  let put := fun (v : Word) (cost : Nat) => CoreEnd.retire (s.onTile n fun t => t.setX (fld w 7 5) v) next cost
  if f7 = 1 then put (rvMulDiv f3 a b) (mulCost f3 a b)
  else if f7 = 0 || (f7 = 0x20 && (f3 = 0 || f3 = 5)) then put (rvAlu f3 (f7 = 0x20) a b) 1
  else .trap s 2 (tvalOf 2 raw)

/-- OP-IMM. -/
def State.coreOpImm (s : State) (n : Site) (w raw next a : Word) : CoreEnd :=
  let f3 := fld w 12 3
  let f7 := fld w 25 7
  if (f3 = 1 && f7 ≠ 0) || (f3 = 5 && f7 ≠ 0 && f7 ≠ 0x20) then .trap s 2 (tvalOf 2 raw)
  else
    .retire (s.onTile n fun t => t.setX (fld w 7 5) (rvAlu f3 (f3 = 5 && f7 = 0x20) a (immOf (fld w 20 12) 12))) next 1

/-- Immediates of stores, branches and jumps. -/
def immS (w : Word) : Word := immOf (fld w 25 7 * 32 + fld w 7 5) 12
def immB (w : Word) : Word := immOf (fld w 31 1 * 4096 + fld w 7 1 * 2048 + fld w 25 6 * 32 + fld w 8 4 * 2) 13
def immJ (w : Word) : Word := immOf (fld w 31 1 * 2 ^ 20 + fld w 12 8 * 4096 + fld w 20 1 * 2048 + fld w 21 10 * 2) 21

/-- A standard instruction; every other encoding is illegal (R190, R198). -/
def State.coreStd (s : State) (n : Site) (ecc : CoreEcc) (w : Word) (len : Nat) (raw : Word) : CoreEnd :=
  let t := s.tile n
  let pc := t.core.pc
  let next := pc + BitVec.ofNat 32 len
  let rd := fld w 7 5
  let f3 := fld w 12 3
  let a := t.xreg (fld w 15 5)
  let b := t.xreg (fld w 20 5)
  let put := fun (v dst : Word) (cost : Nat) => CoreEnd.retire (s.onTile n fun t => t.setX rd v) dst cost
  let illegal := CoreEnd.trap s 2 (tvalOf 2 raw)
  match fld w 0 7 with
  | 0x37 => put (w &&& 0xFFFFF000) next 1
  | 0x17 => put (pc + (w &&& 0xFFFFF000)) next 1
  | 0x6F => put next (pc + immJ w) 2
  | 0x67 => if f3 = 0 then put next ((a + immOf (fld w 20 12) 12) &&& 0xFFFFFFFE) 2 else illegal
  | 0x63 =>
    if f3 = 2 || f3 = 3 then illegal
    else if rvTaken f3 a b then .retire s (pc + immB w) 2 else .retire s next 1
  | 0x03 => if f3 < 3 || f3 = 4 || f3 = 5 then s.coreLoad n ecc f3 rd (a + immOf (fld w 20 12) 12) next else illegal
  | 0x23 => if f3 < 3 then s.coreStore n f3 (a + immS w) b next else illegal
  | 0x13 => s.coreOpImm n w raw next a
  | 0x33 => s.coreOp n w raw next a b
  | 0x0F => if f3 < 2 then .retire s next 1 else illegal
  | 0x73 => if f3 = 0 then s.coreSystem n w raw else if f3 = 4 then illegal else s.coreCsr n w raw next
  | _ => illegal

/-! ## Running the core -/

/-- The scalar registers that an instruction reads (R194). -/
def rvReads (w : Word) : List Nat :=
  let op := fld w 0 7
  if op = 0x37 || op = 0x17 || op = 0x6F || op = 0x0F || (op = 0x73 && 4 ≤ fld w 12 3) then []
  else if op = 0x13 || op = 0x03 || op = 0x67 || op = 0x73 then [fld w 15 5]
  else [fld w 15 5, fld w 20 5]

/-- The wait of an instruction that reads what the load just before it loads (R194). -/
def State.loadWait (s : State) (n : Site) (w : Word) : Nat :=
  let (r, at') := (s.tile n).core.loaded
  if r ≠ 0 && at' = s.time n && r ∈ rvReads w then 1 else 0

/-- The end of an instruction applied. -/
def CoreEnd.apply (r : CoreEnd) (n : Site) : State :=
  match r with
  | .retire s next cost => s.onTile n fun t => t.retire next cost
  | .trap s cause tval => s.onTile n fun t => t.trap n false cause tval

/-- The core may execute an instruction: it runs, and its tile has power (R195, R323). -/
def State.coreRuns (s : State) (n : Site) : Bool := s.powered n && (s.tile n).core.mode == .running

/-- The fetch of an instruction meets an error that is not corrected: TC_UE and an access fault at the word it stood in (R193). -/
def State.fetchUe (s : State) (n : Site) (second : Bool) : State :=
  let pc := (s.tile n).core.pc
  let a := if second && pc.toNat % 4 = 2 then pc + 2 else pc
  (CoreEnd.trap (s.onTile n fun t => t.coreUe n) 1 (tvalOf 1 a)).apply n

/-- A corrected error of an instruction (R193). -/
def State.noteCe (s : State) (n : Site) (ecc : CoreEcc) : State :=
  match ecc with
  | .ce => s.onTile n Tile.coreCe
  | _ => s

/-- What stands at the pc runs as a standard instruction, or takes the exception that it raises (R190, R192, R197); a corrected error of
what the fetch has read is recorded either way (R193). -/
def State.runStd (s : State) (n : Site) (ecc : CoreEcc) : State :=
  match (s.tile n).fetchIns with
  | .fault a =>
    let s := if (s.tile n).core.pc.toNat < 0x10000 then s.noteCe n ecc else s
    (CoreEnd.trap s 1 (tvalOf 1 a)).apply n
  | .bad raw => (CoreEnd.trap (s.noteCe n ecc) 2 (tvalOf 2 raw)).apply n
  | .ins w len raw =>
    let s := (s.noteCe n ecc).onTile n fun t => t.spend (s.loadWait n w)
    (s.coreStd n ecc w len raw).apply n

/-- RV_INSTRUCTION (R190). An instruction with a row of its own runs by that row; a corrected error of the fetch of one whose row
names none is recorded here (R193). -/
def execRvInstruction (site : Site) (ecc : CoreEcc) (s : State) : Host.Outcome State Fault Refusal :=
  live s fun s =>
    if !s.coreRuns site then s
    else match ecc with
      | .ueFetch second => if (s.tile site).core.pc.toNat < 0x10000 then s.fetchUe site second else s.runStd site ecc
      | _ =>
        match (s.tile site).special with
        | some (k, _) => if 2 ≤ k then s.noteCe site ecc else s
        | none => s.runStd site ecc

/-- REG_WRITE (R10, R560): a misaligned address is malformed and writes nothing; a tile core's, of its own set-up space, takes the access
fault of a store. -/
def execRegWrite (src : WriteSrc) (addr : Word) (val : Word) (s : State) : Host.Outcome State Fault Refusal :=
  live s fun s =>
    if addr.toNat % 4 = 0 then (s.setupWrite src addr.toNat val).1
    else match src with
      | .core n =>
        if s.coreRuns n then s.onTile n fun t => t.trap n false 7 (tvalOf 7 (0x20000 + BitVec.ofNat 32 (addr.toNat % 0x10000))) else s
      | _ => s

/-- INTERRUPT_TAKEN (R197): MEIP, with MIE and MEIE set. -/
def execInterruptTaken (site : Site) (s : State) : Host.Outcome State Fault Refusal :=
  live s fun s =>
    let t := s.tile site
    if s.coreRuns site && t.meip && t.core.mie && t.core.meie then s.onTile site fun t => t.trap site true 11 0 else s

/-! ## WFI and code switches (R190, R196) -/

/-- A point at which a pending code switch is taken: the core restarts at the new TC_ENTRY, or goes on. -/
def Tile.codePoint (t : Tile) (time : Nat) (len : Nat) : Tile :=
  let t := (t.onCore fun c => { c with mode := .running }).retire (t.core.pc + BitVec.ofNat 32 len) 1
  if t.core.swpend then t.startCore (time + 1) else t

/-- WFI leaves when MEIP is 1 or a code switch is pending. -/
def Tile.wfiEnds (t : Tile) : Bool := t.meip || t.core.swpend

/-- WFI (R190, R196). -/
def execWfi (site : Site) (s : State) : Host.Outcome State Fault Refusal :=
  live s fun s =>
    match s.coreRuns site, (s.tile site).special with
    | true, some (6, _) => s.onTile site fun t =>
        if t.wfiEnds then t.codePoint (s.time site) 4 else t.onCore fun c => { c with mode := .wfi }
    | _, _ => s

/-- WFI_WAKE (R190). -/
def execWfiWake (site : Site) (s : State) : Host.Outcome State Fault Refusal :=
  live s fun s =>
    let t := s.tile site
    if s.powered site && t.core.mode == .wfi && t.wfiEnds then s.onTile site fun t => t.codePoint (s.time site) 4 else s

/-- BK.YIELD (R196). -/
def execBkYield (site : Site) (s : State) : Host.Outcome State Fault Refusal :=
  live s fun s =>
    match s.coreRuns site, (s.tile site).special with
    | true, some (5, _) => s.onTile site fun t => t.codePoint (s.time site) 4
    | _, _ => s

/-! ## Issuing commands (R198 to R203, R210) -/

/-- SEQ of a unit's k-th command since its counter restarted (R204). -/
def seqOf (k : Nat) : Nat := (k - 1) % 65535 + 1

/-- A ticket (R204). -/
def ticket (u : UnitC) (k : Nat) : Word := at32 (unitCode u) 28 ||| at32 (seqOf k) 0

/-- What a fence mask waits for: the commands issued so far to each named unit that does not follow its sequencer (R210). -/
def Tile.fenceOf (t : Tile) (mask : Word) : List (Nat × Nat) :=
  allUnits.filterMap fun u =>
    if bitOf mask (unitCode u) && !t.cmdsrc (unitCode u) then some (unitCode u, (t.unit u).issued) else none

/-- Room in a unit's queue (R201). -/
def Tile.room (t : Tile) (u : UnitC) : Bool := (t.unit u).queue.length < queueEntries u

/-- A command of the core accepted, its ticket written and the instruction retired (R201, R204). -/
def Tile.issueNow (t : Tile) (u : UnitC) (words : List Word) (mask : Word) (rd : Nat) : Tile :=
  let t := t.accept u words (.core (t.fenceOf mask) (mask.toNat / 32 ≠ 0))
  let t := t.setX rd (ticket u (t.unit u).issued)
  (t.onCore fun c => { c with mode := .running, bk := .none }).retire (t.core.pc + 4) ((words.length + 7) / 8)

/-- The words of a command at an address, or the exception that reading them raises: cause and address (R201). -/
def Tile.commandWords (t : Tile) (u : UnitC) (a : Word) : Except (Nat × Word) (List Word) :=
  let word := fun k => BitVec.ofNat 32 (leNat (Memory.readBytes t.core.dmem (a.toNat - 0x10000 + 4 * k) 4))
  let inside := fun k => 0x10000 ≤ a.toNat && a.toNat + 4 * k < 0x14000
  if a.toNat % 4 ≠ 0 then .error (4, a)
  else if !inside 0 then .error (5, a)
  else
    let n := cmdLen (unitCode u) (word 0)
    match (List.range n).find? fun k => !inside k with
    | some k => .error (5, a + BitVec.ofNat 32 (4 * k))
    | none => .ok ((List.range n).map word)

/-- BK.ISSUE and BK.TRYISSUE once the words have been read (R200 to R202). -/
def Tile.offer (t : Tile) (u : UnitC) (words : List Word) (mask : Word) (rd : Nat) (trying : Bool) : Tile :=
  let cost := (words.length + 7) / 8
  if t.cmdsrc (unitCode u) then ((t.flagBit Reg.TC_ERR 0).setX rd 0).retire (t.core.pc + 4) cost
  else if t.room u then t.issueNow u words mask rd
  else if trying then (t.setX rd 0).retire (t.core.pc + 4) cost
  else t.onCore fun c => { c with mode := .stalled, bk := .issue u words mask rd }

/-- An issue instruction (R198, R201). -/
def State.issue (s : State) (n : Site) (ecc : CoreEcc) (w : Word) : State :=
  let t := s.tile n
  match unitOfCode (fld w 25 3) with
  | none => s
  | some u =>
    let s := (s.noteCe n ecc).onTile n fun t => t.spend (s.loadWait n w)
    let a := t.xreg (fld w 15 5)
    match t.commandWords u a with
    | .error (cause, addr) => (CoreEnd.trap s cause (tvalOf cause addr)).apply n
    | .ok words =>
      match ecc with
      | .ueData k =>
        (CoreEnd.trap (s.onTile n fun t => t.coreUe n) 5 (tvalOf 5 (a + BitVec.ofNat 32 (4 * (k % words.length))))).apply n
      | _ => s.onTile n fun t => t.offer u words (t.xreg (fld w 20 5)) (fld w 7 5) (fld w 12 3 == 1)

/-- An issue row: `k` is 0 for BK.ISSUE and 1 for BK.TRYISSUE. -/
def State.issueRow (s : State) (n : Site) (ecc : CoreEcc) (k : Nat) : State :=
  match s.coreRuns n, (s.tile n).special with
  | true, some (j, w) =>
    if j = k then
      match ecc with
      | .ueFetch second => s.fetchUe n second
      | _ => s.issue n ecc w
    else s
  | _, _ => s

/-- BK_ISSUE (R201). -/
def execBkIssue (site : Site) (ecc : CoreEcc) (s : State) : Host.Outcome State Fault Refusal :=
  live s fun s => s.issueRow site ecc 0

/-- BK_TRYISSUE (R202). -/
def execBkTryIssue (site : Site) (ecc : CoreEcc) (s : State) : Host.Outcome State Fault Refusal :=
  live s fun s => s.issueRow site ecc 1

/-- COMMAND_ACCEPT (R201): the queue of a held BK.ISSUE has room. -/
def execCommandAccept (site : Site) (s : State) : Host.Outcome State Fault Refusal :=
  live s fun s =>
    if s.powered site then
      s.onTile site fun t => match t.core.bk with
        | .issue u words mask rd => if t.room u then t.issueNow u words mask rd else t
        | _ => t
    else s

/-! ## Waiting for commands (R206 to R208) -/

/-- A row of a command-extension instruction that reads no memory. -/
def State.bkRow (s : State) (n : Site) (k : Nat) (f : Tile → Word → Tile) : State :=
  match s.coreRuns n, (s.tile n).special with
  | true, some (j, w) => if j = k then s.onTile n fun t => f (t.spend (s.loadWait n w)) w else s
  | _, _ => s

/-- BK_WAIT (R207). -/
def execBkWait (site : Site) (s : State) : Host.Outcome State Fault Refusal :=
  live s fun s => s.bkRow site 2 fun t w => t.waitTicket (t.xreg (fld w 15 5)) (fld w 7 5)

/-- WAIT_RETIRE (R207). -/
def execWaitRetire (site : Site) (s : State) : Host.Outcome State Fault Refusal :=
  live s fun s =>
    if s.powered site then
      s.onTile site fun t => match t.core.bk with
        | .wait tk rd => t.waitTicket tk rd
        | _ => t
    else s

/-- BK_POLL (R207). -/
def execBkPoll (site : Site) (s : State) : Host.Outcome State Fault Refusal :=
  live s fun s => s.bkRow site 3 fun t w => t.bkEnd (fld w 7 5) (t.ticketStatus (t.xreg (fld w 15 5)))

/-- BK_WAITU (R208). -/
def execBkWaitu (site : Site) (s : State) : Host.Outcome State Fault Refusal :=
  live s fun s => s.bkRow site 4 fun t w =>
    let mask := t.xreg (fld w 15 5)
    t.waitUnits ((unitsOf mask).map fun u => (unitCode u, (t.unit u).issued)) mask (fld w 7 5)

/-- WAITU_RETIRE (R208). -/
def execWaituRetire (site : Site) (s : State) : Host.Outcome State Fault Refusal :=
  live s fun s =>
    if s.powered site then
      s.onTile site fun t => match t.core.bk with
        | .waitu targets mask rd => t.waitUnits targets mask rd
        | _ => t
    else s

end Sys2Proof.Machine
end

