-- ==== Sys2Proof/Machine/Dispatch.lean ====
section
/-! DEFINITION. The meaning of each command of the table: one arm per constructor. -/

namespace Sys2Proof.Machine

def exec (i : Instr) (s : State) : Host.Outcome State Fault Refusal :=
  match i with
  | .resetRelease fp => Sys2Proof.Machine.execResetRelease fp s
  | .resetAssert => Sys2Proof.Machine.execResetAssert s
  | .firmwareLoad b => Sys2Proof.Machine.execFirmwareLoad b s
  | .autoLock => Sys2Proof.Machine.execAutoLock s
  | .lockWrite src => Sys2Proof.Machine.execLockWrite src s
  | .vack f => Sys2Proof.Machine.execVack f s
  | .vidTimeout f => Sys2Proof.Machine.execVidTimeout f s
  | .avsLoop f mhz => Sys2Proof.Machine.execAvsLoop f mhz s
  | .sustainedLimitTick avg => Sys2Proof.Machine.execSustainedLimitTick avg s
  | .thermalSample site m => Sys2Proof.Machine.execThermalSample site m s
  | .thermalFtgtTick f => Sys2Proof.Machine.execThermalFtgtTick f s
  | .regWrite src addr val => Sys2Proof.Machine.execRegWrite src addr val s
  | .coreGo site => Sys2Proof.Machine.execCoreGo site s
  | .coreHalt site => Sys2Proof.Machine.execCoreHalt site s
  | .stewardSignal site => Sys2Proof.Machine.execStewardSignal site s
  | .counterSnap site => Sys2Proof.Machine.execCounterSnap site s
  | .counterClear site => Sys2Proof.Machine.execCounterClear site s
  | .freeze site => Sys2Proof.Machine.execFreeze site s
  | .tileFrozen site => Sys2Proof.Machine.execTileFrozen site s
  | .thaw site => Sys2Proof.Machine.execThaw site s
  | .scanOut site ctl => Sys2Proof.Machine.execScanOut site ctl s
  | .scanIn site ctl recs => Sys2Proof.Machine.execScanIn site ctl recs s
  | .scanDone site => Sys2Proof.Machine.execScanDone site s
  | .bankGate site gate => Sys2Proof.Machine.execBankGate site gate s
  | .bankGated site bank => Sys2Proof.Machine.execBankGated site bank s
  | .bankWakeEnd site bank => Sys2Proof.Machine.execBankWakeEnd site bank s
  | .cacheConfigWrite port val => Sys2Proof.Machine.execCacheConfigWrite port val s
  | .rangeConfigWrite port n k val => Sys2Proof.Machine.execRangeConfigWrite port n k val s
  | .prefetchConfigWrite port val => Sys2Proof.Machine.execPrefetchConfigWrite port val s
  | .shutdownTest => Sys2Proof.Machine.execShutdownTest s
  | .shutdownStepEnd r => Sys2Proof.Machine.execShutdownStepEnd r s
  | .shutdownRecordAck ok => Sys2Proof.Machine.execShutdownRecordAck ok s
  | .sleep site => Sys2Proof.Machine.execSleep site s
  | .wake site => Sys2Proof.Machine.execWake site s
  | .wakeDone site => Sys2Proof.Machine.execWakeDone site s
  | .fwConfirm => Sys2Proof.Machine.execFwConfirm s
  | .rvInstruction site ecc => Sys2Proof.Machine.execRvInstruction site ecc s
  | .interruptTaken site => Sys2Proof.Machine.execInterruptTaken site s
  | .wfi site => Sys2Proof.Machine.execWfi site s
  | .wfiWake site => Sys2Proof.Machine.execWfiWake site s
  | .bkIssue site ecc => Sys2Proof.Machine.execBkIssue site ecc s
  | .bkTryIssue site ecc => Sys2Proof.Machine.execBkTryIssue site ecc s
  | .commandAccept site => Sys2Proof.Machine.execCommandAccept site s
  | .bkWait site => Sys2Proof.Machine.execBkWait site s
  | .waitRetire site => Sys2Proof.Machine.execWaitRetire site s
  | .bkPoll site => Sys2Proof.Machine.execBkPoll site s
  | .bkWaitu site => Sys2Proof.Machine.execBkWaitu site s
  | .waituRetire site => Sys2Proof.Machine.execWaituRetire site s
  | .bkYield site => Sys2Proof.Machine.execBkYield site s
  | .unitCommandComplete site unit => Sys2Proof.Machine.execUnitCommandComplete site unit s
  | .mm site ph => Sys2Proof.Machine.execMm site ph s
  | .mmw site ph => Sys2Proof.Machine.execMmw site ph s
  | .diag site ph => Sys2Proof.Machine.execDiag site ph s
  | .edgeWordAdd site ecc => Sys2Proof.Machine.execEdgeWordAdd site ecc s
  | .zero site => Sys2Proof.Machine.execZero site s
  | .preload site ph => Sys2Proof.Machine.execPreload site ph s
  | .drain site ph => Sys2Proof.Machine.execDrain site ph s
  | .exportRows site ph => Sys2Proof.Machine.execExportRows site ph s
  | .vcOperation site ph => Sys2Proof.Machine.execVcOperation site ph s
  | .trfYieldCycle site => Sys2Proof.Machine.execTrfYieldCycle site s
  | .sfFieldsApply site => Sys2Proof.Machine.execSfFieldsApply site s
  | .fill site ph => Sys2Proof.Machine.execFill site ph s
  | .poke site ph => Sys2Proof.Machine.execPoke site ph s
  | .scrub site ph => Sys2Proof.Machine.execScrub site ph s
  | .spadv site => Sys2Proof.Machine.execSpadv site s
  | .eccWriteback site => Sys2Proof.Machine.execEccWriteback site s
  | .patrolScrub site ph => Sys2Proof.Machine.execPatrolScrub site ph s
  | .put site ph => Sys2Proof.Machine.execPut site ph s
  | .get site ph => Sys2Proof.Machine.execGet site ph s
  | .skew site ph => Sys2Proof.Machine.execSkew site ph s
  | .gather site ph => Sys2Proof.Machine.execGather site ph s
  | .expfwd site ph => Sys2Proof.Machine.execExpfwd site ph s
  | .split site ph => Sys2Proof.Machine.execSplit site ph s
  | .expfwdRow site ph => Sys2Proof.Machine.execExpfwdRow site ph s
  | .incomingTransfer site x => Sys2Proof.Machine.execIncomingTransfer site x s
  | .dataRowWrite site d ph => Sys2Proof.Machine.execDataRowWrite site d ph s
  | .ack site src row status => Sys2Proof.Machine.execAck site src row status s
  | .warpAck site a => Sys2Proof.Machine.execWarpAck site a s
  | .warpWordHold site w => Sys2Proof.Machine.execWarpWordHold site w s
  | .tokenArrive site unit queue tok src => Sys2Proof.Machine.execTokenArrive site unit queue tok src s
  | .headTokenDrop site unit queue => Sys2Proof.Machine.execHeadTokenDrop site unit queue s
  | .seqFire site unit => Sys2Proof.Machine.execSeqFire site unit s
  | .droppedFiringEmit site unit => Sys2Proof.Machine.execDroppedFiringEmit site unit s
  | .creditArrive site unit port count gen => Sys2Proof.Machine.execCreditArrive site unit port count gen s
  | .steerPairFire site su => Sys2Proof.Machine.execSteerPairFire site su s
  | .steerMergeFire site su => Sys2Proof.Machine.execSteerMergeFire site su s
  | .patternRecord site rec => Sys2Proof.Machine.execPatternRecord site rec s
  | .patternEndRecord site rec => Sys2Proof.Machine.execPatternEndRecord site rec s
  | .activeImageCheck site flips => Sys2Proof.Machine.execActiveImageCheck site flips s
  | .stitchOpen site stitch epoch => Sys2Proof.Machine.execStitchOpen site stitch epoch s
  | .armed site stitch => Sys2Proof.Machine.execArmed site stitch s
  | .failed site stitch cause => Sys2Proof.Machine.execFailed site stitch cause s
  | .stitchCommit site stitch => Sys2Proof.Machine.execStitchCommit site stitch s
  | .stitchAbort site stitch => Sys2Proof.Machine.execStitchAbort site stitch s
  | .switched site stitch => Sys2Proof.Machine.execSwitched site stitch s
  | .armTimeout stitch => Sys2Proof.Machine.execArmTimeout stitch s
  | .switchTimeout stitch => Sys2Proof.Machine.execSwitchTimeout stitch s
  | .groupSwitch site g => Sys2Proof.Machine.execGroupSwitch site g s
  | .reEpoch site g => Sys2Proof.Machine.execReEpoch site g s
  | .deadlockWindowEnd => Sys2Proof.Machine.execDeadlockWindowEnd s
  | .spill site => Sys2Proof.Machine.execSpill site s
  | .spillTokenRead site unit queue ph => Sys2Proof.Machine.execSpillTokenRead site unit queue ph s
  | .budgetPeriodStart power => Sys2Proof.Machine.execBudgetPeriodStart power s
  | .packetInject pt cls => Sys2Proof.Machine.execPacketInject pt cls s
  | .flitReceive site side flit => Sys2Proof.Machine.execFlitReceive site side flit s
  | .fmapHoldRelease site => Sys2Proof.Machine.execFmapHoldRelease site s
  | .packetHeadTimeout site side vch => Sys2Proof.Machine.execPacketHeadTimeout site side vch s
  | .drop site src kind row => Sys2Proof.Machine.execDrop site src kind row s
  | .glFlitReceive port g flit => Sys2Proof.Machine.execGlFlitReceive port g flit s
  | .headerReceive port role hdr => Sys2Proof.Machine.execHeaderReceive port role hdr s
  | .retrain port g => Sys2Proof.Machine.execRetrain port g s
  | .retrainAck port g => Sys2Proof.Machine.execRetrainAck port g s
  | .groupTestEnd port g r => Sys2Proof.Machine.execGroupTestEnd port g r s
  | .result port g outcome => Sys2Proof.Machine.execResult port g outcome s
  | .restart port g => Sys2Proof.Machine.execRestart port g s
  | .stripe port role map => Sys2Proof.Machine.execStripe port role map s
  | .roles port map => Sys2Proof.Machine.execRoles port map s
  | .pllLockLoss port => Sys2Proof.Machine.execPllLockLoss port s
  | .aliveLoss port => Sys2Proof.Machine.execAliveLoss port s
  | .trnPulse port => Sys2Proof.Machine.execTrnPulse port s
  | .portRestart port => Sys2Proof.Machine.execPortRestart port s
  | .pllLock port => Sys2Proof.Machine.execPllLock port s
  | .portTrainEnd port offered tests => Sys2Proof.Machine.execPortTrainEnd port offered tests s
  | .announceResend => Sys2Proof.Machine.execAnnounceResend s
  | .assign port msgver slot pkg => Sys2Proof.Machine.execAssign port msgver slot pkg s
  | .discoveryCommit port msgver cap feat => Sys2Proof.Machine.execDiscoveryCommit port msgver cap feat s
  | .k2Flit port ftarg body => Sys2Proof.Machine.execK2Flit port ftarg body s
  | .k2Deliver port src arg body => Sys2Proof.Machine.execK2Deliver port src arg body s
  | .greq port src h ecc => Sys2Proof.Machine.execGreq port src h ecc s
  | .preq port src h data poison => Sys2Proof.Machine.execPreq port src h data poison s
  | .fillResponse port tag status data bad => Sys2Proof.Machine.execFillResponse port tag status data bad s
  | .wrack port tag status => Sys2Proof.Machine.execWrack port tag status s
  | .gdata site rtag status data poison => Sys2Proof.Machine.execGdata site rtag status data poison s
  | .pdone site rtag status => Sys2Proof.Machine.execPdone site rtag status s
  | .prefetchIssue port => Sys2Proof.Machine.execPrefetchIssue port s
  | .prefetcherTimeout port n => Sys2Proof.Machine.execPrefetcherTimeout port n s
  | .incomingRd port tag addr len orig => Sys2Proof.Machine.execIncomingRd port tag addr len orig s
  | .incomingWr port tag addr orig data bad => Sys2Proof.Machine.execIncomingWr port tag addr orig data bad s
  | .rrd site port h ph => Sys2Proof.Machine.execRrd site port h ph s
  | .rwr site port h data poison => Sys2Proof.Machine.execRwr site port h data poison s
  | .rrsp port rtag status data poison => Sys2Proof.Machine.execRrsp port rtag status data poison s
  | .inv port tag addr nsec => Sys2Proof.Machine.execInv port tag addr nsec s
  | .invack port tag => Sys2Proof.Machine.execInvack port tag s
  | .streamEndInvalidate port stream => Sys2Proof.Machine.execStreamEndInvalidate port stream s
  | .doorbell stream n => Sys2Proof.Machine.execDoorbell stream n s
  | .event stream inc => Sys2Proof.Machine.execEvent stream inc s
  | .start stream addr => Sys2Proof.Machine.execStart stream addr s
  | .contextRecord stream status data poison => Sys2Proof.Machine.execContextRecord stream status data poison s
  | .kill stream => Sys2Proof.Machine.execKill stream s
  | .killComplete stream => Sys2Proof.Machine.execKillComplete stream s
  | .resume stream => Sys2Proof.Machine.execResume stream s
  | .loomStep stream => Sys2Proof.Machine.execLoomStep stream s
  | .fetchResponse stream status data poison => Sys2Proof.Machine.execFetchResponse stream status data poison s
  | .fetchRetry stream => Sys2Proof.Machine.execFetchRetry stream s
  | .nop stream => Sys2Proof.Machine.execNop stream s
  | .claim stream => Sys2Proof.Machine.execClaim stream s
  | .release stream => Sys2Proof.Machine.execRelease stream s
  | .descStitch stream => Sys2Proof.Machine.execDescStitch stream s
  | .tokens stream => Sys2Proof.Machine.execTokens stream s
  | .slice stream => Sys2Proof.Machine.execSlice stream s
  | .wait stream => Sys2Proof.Machine.execWait stream s
  | .waitTimeout stream => Sys2Proof.Machine.execWaitTimeout stream s
  | .endStream stream => Sys2Proof.Machine.execEndStream stream s
  | .writebackAck stream status => Sys2Proof.Machine.execWritebackAck stream status s
  | .loomCredit site port count => Sys2Proof.Machine.execLoomCredit site port count s
  | .errorReport site => Sys2Proof.Machine.execErrorReport site s
  | .fault site f => Sys2Proof.Machine.execFault site f s
  | .watchdog site unit => Sys2Proof.Machine.execWatchdog site unit s
  | .faultCountReset => Sys2Proof.Machine.execFaultCountReset s
  | .pingReceive site poll => Sys2Proof.Machine.execPingReceive site poll s
  | .pong site poll => Sys2Proof.Machine.execPong site poll s
  | .silentTimeout site => Sys2Proof.Machine.execSilentTimeout site s
  | .hem site kind => Sys2Proof.Machine.execHem site kind s
  | .seghold site stream weave => Sys2Proof.Machine.execSeghold site stream weave s
  | .segheld site => Sys2Proof.Machine.execSegheld site s
  | .darnEntryRead status data poison => Sys2Proof.Machine.execDarnEntryRead status data poison s
  | .darnRestream site => Sys2Proof.Machine.execDarnRestream site s
  | .ready site => Sys2Proof.Machine.execReady site s
  | .go site => Sys2Proof.Machine.execGo site s
  | .seggo site stream weave => Sys2Proof.Machine.execSeggo site stream weave s
  | .sliceStart c => Sys2Proof.Machine.execSliceStart c s
  | .sliceFreezeTimeout => Sys2Proof.Machine.execSliceFreezeTimeout s
  | .sliceTestEnd r c => Sys2Proof.Machine.execSliceTestEnd r c s
  | .sliceEnd dur => Sys2Proof.Machine.execSliceEnd dur s
  | .idcode => Sys2Proof.Machine.execIdcode s
  | .samplePreload cells => Sys2Proof.Machine.execSamplePreload cells s
  | .extest cells => Sys2Proof.Machine.execExtest cells s
  | .sitesel site => Sys2Proof.Machine.execSitesel site s
  | .wsp => Sys2Proof.Machine.execWsp s
  | .fuserd => Sys2Proof.Machine.execFuserd s
  | .bypass code => Sys2Proof.Machine.execBypass code s
  | .mailboxPoll hdrs => Sys2Proof.Machine.execMailboxPoll hdrs s
  | .regrd slot => Sys2Proof.Machine.execRegrd slot s
  | .regwr slot data => Sys2Proof.Machine.execRegwr slot data s
  | .attest slot => Sys2Proof.Machine.execAttest slot s
  | .attestDone slot => Sys2Proof.Machine.execAttestDone slot s
  | .fwload slot => Sys2Proof.Machine.execFwload slot s
  | .fwloadDone slot man image => Sys2Proof.Machine.execFwloadDone slot man image s
  | .fwswitch slot => Sys2Proof.Machine.execFwswitch slot s
  | .fwSwitchExecute => Sys2Proof.Machine.execFwSwitchExecute s
  | .fwConfirmTimeout => Sys2Proof.Machine.execFwConfirmTimeout s
  | .drd port tag addr len => Sys2Proof.Machine.execDrd port tag addr len s
  | .dwr port tag addr data => Sys2Proof.Machine.execDwr port tag addr data s
  | .aliveSeen port => Sys2Proof.Machine.execAliveSeen port s
  | .listReadResponse stream status data poison => Sys2Proof.Machine.execListReadResponse stream status data poison s
  | .darnImageRead status data poison => Sys2Proof.Machine.execDarnImageRead status data poison s
  | .killScrubDone site => Sys2Proof.Machine.execKillScrubDone site s
  | .spilled site => Sys2Proof.Machine.execSpilled site s

end Sys2Proof.Machine
end

