-- ==== Sys2Proof/Machine/Tick.lean ====
section
/-! DEFINITION. One tile cycle with nothing commanded (assumption 6): counters of waiting sequencers, buffer rows that a running command
releases, refusals at the tile register ports, answers of ports that have gone DOWN, and flits on the weft's links. -/

namespace Sys2Proof.Machine

/-- One buffer row of the command that the long accumulator runs is passed, but none that waits for room in the export queue (R121, R131,
R135). -/
def Tile.passRow (t : Tile) : Tile :=
  t.onUnit .la fun x =>
    { x with running := x.running.map fun r => { r with rowsDue := max (r.rowsDue - 1) (min r.rowsDue t.la.late.length) } }

/-- Tile cycle `now` of a tile that is awake: the refusals at the register ports in it are counted (R139). -/
def Tile.cycle (t : Tile) (now : Nat) : Tile := { t.idleCycle with trfRefused := t.refusals now }.passRow

/-- One tile cycle with nothing commanded (assumption 6). -/
def tick (s : State) : State :=
  if s.inReset then s
  else ({ s with cycles := s.cycles + 1 }.onTiles (s.sitesWhere fun t => !t.asleep) fun n t => t.cycle (s.cycleOf n)).takeRefusals.weftCycle

end Sys2Proof.Machine
end

