-- ==== Sys2Proof/Safety.lean ====
section
/-! DEFINITION. What claims about the chiplet are said in: which part of the state a command may change, the shape of the state in
reset, and memories in canonical form. -/

namespace Sys2Proof.Machine

/-- A command's outcome is a next state. -/
def Completes (c : Instr) (s : State) (p : State → Prop) : Prop := ∃ t, exec c s = .next t ∧ p t

/-- Only the tile of site `n` differs. -/
def State.onlyTile (s t : State) (n : Site) : Prop := t = { s with tiles := t.tiles } ∧ ∀ m, m ≠ n → t.tile m = s.tile m

/-- Only port `n` differs. -/
def State.onlyPort (s t : State) (n : PortIx) : Prop := t = { s with ports := t.ports } ∧ ∀ m, m ≠ n → t.port m = s.port m

/-- Only port `n` differs, and what has been sent. -/
def State.onlyPortOut (s t : State) (n : PortIx) : Prop :=
  t = { s with ports := t.ports, out := t.out } ∧ ∀ m, m ≠ n → t.port m = s.port m

/-- Only the steward differs. -/
def State.onlySteward (s t : State) : Prop := t = { s with steward := t.steward }

/-- Only the steward differs, and what has been sent. -/
def State.onlyStewardOut (s t : State) : Prop := t = { s with steward := t.steward, out := t.out }

/-- A control message that has come to site `n`, as far as its packet is known (R344, R347; assumption 8). -/
def State.getsCtrl (s : State) (n : Site) (m : CtrlMsg) : Prop := s.mayGet (fun p => p.dst = .site n && p.body = .ctrl m) = true

/-- A control message of site `n` that has come to its attachment, as far as its packet is known (R344, R347; assumption 8). -/
def State.getsAtt (s : State) (n : Site) (m : CtrlMsg) : Prop :=
  s.mayGet (fun p => p.src = .tile n && (match p.dst with | .att _ => true | _ => false) && p.body = .ctrl m) = true

/-- A host's message of type `ty` to stream `n` that has come to the loom, as far as its packet is known (R344, R430; assumption 8). -/
def State.getsMsg (s : State) (ty : BitVec 8) (n : StreamNo) (args : Word → BitVec 64 → Bool) : Prop :=
  s.mayGet (fun p => (match p.dst with | .att _ => true | _ => false) &&
    (match p.body with | .ctrl (.streamMsg y m a0 a1) => y == ty && m == n && args a0 a1 | _ => false)) = true

/-- The command `c` stands at the head of the queue of unit `u`, is no other operation than `op`, is well formed by `bad`, and its
fence is met (R203, R210, R211). -/
def Tile.starts (t : Tile) (u : UnitC) (op : Nat) (bad : Cmd → Bool) (c : Cmd) : Prop :=
  (t.unit u).queue.head? = some c ∧ c.op = op ∧ c.badFence = false ∧ bad c = false ∧ t.fenceMet c = true

/-- The head of unit `u`'s queue in `a` has left it in `b` and joined the commands in progress, of which it is the newest. -/
def Tile.started (a b : Tile) (u : UnitC) (c : Cmd) : Prop :=
  (b.unit u).queue = (a.unit u).queue.drop 1 ∧
    ∃ r, (b.unit u).running.getLast? = some r ∧ r.cmd = c ∧ r.malformed = false ∧
      (b.unit u).running.length = (a.unit u).running.length + 1

/-- Element `k` of the buffers lies in a row that an LA command selects (R116, R119). -/
def laSelects (c : Cmd) (k : Nat) : Prop :=
  ∃ r, r < laNrow c ∧ bitOf (c.w 3) r = true ∧ laKey (laBuf c) (32 * (laRow0 c + r)) ≤ k ∧ k < laKey (laBuf c) (32 * (laRow0 c + r)) + 32

/-- Tile `b` is `a` after the LA command `c` has started: nothing of the MU, the core, the patterns or the elements that `c` does not
select has changed. -/
def Tile.laStarted (a b : Tile) (c : Cmd) : Prop :=
  a.started b .la c ∧ b.mu = a.mu ∧ b.core = a.core ∧ b.groups = a.groups ∧
    ∀ k, ¬laSelects c k → (b.laElem k).limbs = (a.laElem k).limbs

/-- Byte `i` of scratchpad row `r`. -/
def Tile.spByte (t : Tile) (r i : Nat) : Byte := Memory.read t.sp.mem (512 * r + i)

/-- Every active image of groups 0 to 6 has the check value that its tile keeps for it (R305). -/
def Tile.imagesPass (t : Tile) : Prop := ∀ g, g < 7 → crc32cWords (slotImage g (t.group g).active) = (t.group g).keptWord g

/-- The requests of a read by the steward of `n` bytes at `a` stand among what `t` has sent, by the port that carries the steward's in
`s` (R6; assumption 76). -/
def State.askedIn (s t : State) (a n : Nat) : Prop := ∀ o ∈ stewardReads (s.attUp 0) a n, o ∈ t.out

/-- So do those of a write. -/
def State.wroteIn (s t : State) (a : Nat) (data : List Byte) : Prop := ∀ o ∈ stewardWrites (s.attUp 0) a data, o ∈ t.out

/-- The steward's answer in the mailbox slot at `a` stands, in its order, among what `t` has sent beyond `s`: the data of the reply, then
STATUS, then ACKSEQ (R528). -/
def State.answeredIn (s t : State) (a : Nat) (data : List Byte) (status : Nat) (seq : List Byte) : Prop :=
  let p := s.attUp 0
  List.Sublist ((if data.isEmpty then [] else stewardWrites p (a + 64) data) ++ stewardWrites p (a + 5) [BitVec.ofNat 8 status] ++
    stewardWrites p (a + 8) seq) (t.out.drop s.out.length)

/-- Only the steward and the ports differ, and what has been sent: what a request or an answer of the steward changes. -/
def State.onlyStewardSent (s t : State) : Prop := t = { s with steward := t.steward, ports := t.ports, out := t.out }

/-- The bank of row `r` is in service: neither gated nor waking (R250, R251). -/
def Tile.inService (t : Tile) (r : Nat) : Bool := !t.gated (bankOf r) && !t.waking' (bankOf r)

/-- In reset nothing but the fuses with the registers that show them, the count of signatures, the TAP, the waiting commands and what has
been sent differs from the chiplet right after reset (R386, R531, R540). -/
def State.heldInReset (s : State) : Prop :=
  s.inReset = true →
    s = { State.reset with pending := s.pending, out := s.out, fresh := s.fresh, tap := s.tap
                           steward := ({ Steward.reset with fuses := s.steward.fuses, signs := s.steward.signs } : Steward).fuseRegs false }

/-- The memories of a tile are in canonical form. -/
def Tile.memoriesWf (t : Tile) : Bool := Memory.wf t.sp.mem && Memory.wf t.core.imem && Memory.wf t.core.dmem

/-- The tile after its core has retired an instruction that writes `v` to rd: the registers, the pc, the count of instructions and
the cycles, and nothing else (R190, R194). -/
def Tile.ran (t : Tile) (rd : Nat) (v next : Word) (cost : Nat) : Tile :=
  { t with core := { t.core with x := if rd = 0 then t.core.x else t.core.x.set rd v, pc := next, minstret := t.core.minstret + 1 }
           cycles := t.cycles + cost }

/-- Tile `b` is `a` after its core took an exception or interrupt (R197): the cause, the interrupted pc and the mode saved and the core
at mtvec; or, under HALTTRAP, the core halted and TRAP reported. Registers and memories stay. -/
def Tile.trapped (a b : Tile) (intr : Bool) (cause : Nat) : Prop :=
  b.core.x = a.core.x ∧ b.core.imem = a.core.imem ∧ b.core.dmem = a.core.dmem ∧ b.core.minstret = a.core.minstret ∧ b.sp = a.sp ∧
    (if bitOf (a.reg Reg.TC_CFG) 0 = true then
      b.core.mode = .halted ∧ bitOf (b.reg Reg.TC_ERR) 3 = true ∧
        b.reg Reg.TC_TRAP = (flag32 intr 31 ||| at32 cause 27 ||| at32 (fld a.core.pc 0 16) 0) ∧
        ∃ p ∈ b.outq, ∃ f : FaultMsg, p.body = .ctrl (.fault f) ∧ f.code = 0x06 ∧ f.unit = 0xC
    else b.core.mode = .running ∧ b.core.pc = a.core.mtvec ∧ b.core.mepc = (a.core.pc &&& 0xFFFFFFFE) ∧
      b.core.mcause = (flag32 intr 31 ||| BitVec.ofNat 32 cause) ∧ b.core.mpie = a.core.mie ∧ b.core.mie = false ∧
      b.core.mtvec = a.core.mtvec ∧ b.core.mscratch = a.core.mscratch ∧ b.core.meie = a.core.meie ∧ b.outq = a.outq ∧
      (∀ o, o ≠ Reg.TC_ERR → b.reg o = a.reg o))

/-- The core of site `n` may execute the standard instruction `w`, `len` bytes long, that stands at its pc as `raw`. -/
def State.coreAtIns (s : State) (n : Site) (w : Word) (len : Nat) (raw : Word) : Prop :=
  s.inReset = false ∧ s.coreRuns n = true ∧ (s.tile n).special = none ∧ (s.tile n).fetchIns = .ins w len raw

/-- The core of site `n` may execute the command-extension instruction `w` of kind `k` (WFI is 6). -/
def State.coreAtSpecial (s : State) (n : Site) (k : Nat) (w : Word) : Prop :=
  s.inReset = false ∧ s.coreRuns n = true ∧ (s.tile n).special = some (k, w)

/-- A step engine serves stream `n`, whose descriptor in progress or next one is `d`, a well-formed one of operation `op` (R440, R445). -/
def State.serves (s : State) (n : StreamNo) (d : Desc) (op : Nat) : Prop :=
  s.inReset = false ∧ s.served n = true ∧ (s.ctx n).current = some d ∧ d.op = op ∧ d.listErr = false ∧ s.descBad n d = false

/-- Descriptor `d` of stream `n` completes with a status and INFO: its status word is written into its slot of the ring, and awaits the
answer (R441). -/
def State.writesBack (s t : State) (n : StreamNo) (d : Desc) (status info : Nat) : Prop :=
  let c := s.ctx n
  let w := statusWord status c.errs info
  s.out ++ [.loomWr (s.loomPort n) n (c.ring + 64 * (d.index.toNat % 2 ^ c.rlog) + 56) (leBytes 8 w.toNat)] <+: t.out ∧
    (t.ctx n).desc = none ∧ (t.ctx n).completes = c.completes ++
      [{ index := d.index, word := w, notify := bitOf (wordAt d.bytes 0) 23, vec := BitVec.ofNat 8 (fld (wordAt d.bytes 0) 8 8)
         stale := false }]

/-- The STATE message of stream `n` (R431): its new state, the cause, the class of the error and the index of its descriptor. -/
def State.stateMsg (s : State) (n : StreamNo) (m : StreamMode) (cause cls : Nat) : Out :=
  .msg (s.loomPort n) 0x11 n (BitVec.ofNat 32 m.code) (BitVec.ofNat 64 (cause ||| cls <<< 8 ||| (s.ctx n).next.toNat <<< 32)) 0

end Sys2Proof.Machine
end

