-- ==== Sys2Proof/Certificates/Slice0/Obligations.lean ====
section
/-! DEFINITION. The statements about the chiplet that the provers prove. Every statement about an outcome says that the command answers a
next state (`Completes`) and what that state holds; what a statement names as the only difference is its frame. -/

open Sys2Proof Sys2Proof.Machine

/-! ## The queue, the steps, reset and boot -/

/-- A step runs the command at the front of the queue with the queue's rest. With an empty queue one tile cycle passes (the model's
choice, assumption 6): in reset nothing happens; out of reset the count of cycles rises by one, and while no answer of a port that has
gone DOWN waits for the loom, nothing but that count, tiles and the packets on the weft differs. -/
def Obligations.StepRunsFrontCommand : Prop :=
  (∀ (c : Instr) (s : State), step { s with pending := c :: s.pending } = exec c s) ∧
    ∀ s : State, s.pending = [] →
      ∃ t, step s = .next t ∧ (s.inReset = true → t = s) ∧
        (s.inReset = false → t.cycles = s.cycles + 1 ∧ t.pending = [] ∧
          (s.loom.refused = [] → t = { s with tiles := t.tiles, cycles := t.cycles, net := t.net }))

/-- Every command leaves a next state, in every state, and the waiting commands stay as they are; that it does so where the state rules
the event out is the model's choice (assumption 1). -/
def Obligations.EveryCommandLeavesTheQueue : Prop :=
  ∀ (c : Instr) (s : State), ∃ t, exec c s = .next t ∧ t.pending = s.pending

/-- An invariant of every step: in reset the chiplet holds its reset state, but for the fuses with the registers that show them and what
is not the chiplet's own: the waiting commands, what has been sent, the TAP, and the model's own counters of free values and signatures
(R386, R531, R540). That a command other than RESET_ASSERT, RESET_RELEASE and the TAP's changes nothing in reset is the model's choice
(assumption 1). -/
def Obligations.StepKeepsHeldInReset : Prop :=
  ∀ s t : State, s.heldInReset → step s = .next t → t.heldInReset

/-- No command changes a fuse: reset loses all other state, and the test port only reads them (R540, R552). -/
def Obligations.FusesOutlastEveryCommand : Prop :=
  ∀ (c : Instr) (s t : State), exec c s = .next t → t.steward.fuses = s.steward.fuses

/-- The state after reset meets the invariant, and holds the values the spec gives for reset: every port DOWN, every tile core halted,
every sequencer without a token, the role map 0x9000, TC_WDOG.LIMLOG 0x0F, ST_BOOT and ST_LOCK 0, every stream IDLE. -/
def Obligations.ResetStateHoldsTheSpecsValues : Prop :=
  State.reset.heldInReset ∧ State.reset.inReset = true ∧
    (∀ p : PortIx, (State.reset.port p).mode = .down ∧ (State.reset.port p).reg Reg.GL_ROLE = 0x9000) ∧
    (∀ n : Site, (State.reset.tile n).core.mode = .halted ∧ (State.reset.tile n).queues = [] ∧
      (State.reset.tile n).reg Reg.TC_WDOG = 0x0F ∧ (State.reset.tile n).reg Reg.TC_STREAM = 0) ∧
    (∀ n : StreamNo, (State.reset.ctx n).mode = .idle) ∧
    State.reset.steward.reg Reg.ST_BOOT = 0 ∧ State.reset.steward.reg Reg.ST_LOCK = 0

/-- Only RESET_ASSERT puts a running chiplet in reset (R540), and only RESET_RELEASE takes it out (R539). RESET_ASSERT of a running
chiplet: every port is DOWN, and all state but the fuses is lost. RESET_RELEASE (R387, R514, R539): the ports that are not fenced start
with PLL lock, and the steward's boot begins: ST_BOOT.STAGE reads ROM, or failed where FUSECRC does not hold, ST_DIEID the fused number,
and the fuses stay. -/
def Obligations.ResetIsEnteredAndLeft : Prop :=
  ((∀ (c : Instr) (s t : State), exec c s = .next t → s.inReset = false → t.inReset = true → c = .resetAssert) ∧
    ∀ (c : Instr) (s t : State), exec c s = .next t → s.inReset = true → t.inReset = false → ∃ fp, c = .resetRelease fp) ∧
  (∀ s : State, s.inReset = false →
    Completes .resetAssert s fun t => t.inReset = true ∧ t.heldInReset ∧ t.steward.fuses = s.steward.fuses ∧
      (∀ p : PortIx, (t.port p).mode = .down) ∧ (∀ n : Site, t.tile n = State.reset.tile n) ∧
      (∀ n : StreamNo, (t.ctx n).mode = .idle) ∧ t.tap = Tap.reset ∧ t.out = s.out) ∧
  (∀ (s : State) (fp : Option (BitVec 256)), s.inReset = true → s.heldInReset →
    Completes (.resetRelease fp) s fun t => t.inReset = false ∧ t.out = s.out ∧ t.steward.fuses = s.steward.fuses ∧
      (∀ p : PortIx, (t.port p).mode = if s.portOn p then .lock else .down) ∧
      fld (t.steward.reg Reg.ST_BOOT) 0 2 = (if s.steward.fuses.crcOk then 0 else 3) ∧
      t.steward.reg Reg.ST_DIEID_LO = s.steward.fuses.dieid.setWidth 32 ∧
      (t.steward.xi.isSome ↔ fp.isSome))

/-- FIRMWARE_LOAD (R511 to R515): the directory is read, and of one of version 3 the slot that ACTIVE names is booted if its manifest passes
the checks, else the other slot: its manifest and its image are read, the image stands in image region 0, and the steward runs it from ENTRY
as boot code and clears BOOTSTAT; with neither, the steward stays in ROM and writes BOOTSTAT with the stage and the check. The protection
lock (R516, R522, R535): boot code's write of LOCK sets it; any other source's, or one after the lock, changes no field but ST_PROTERR and
the count of violations; 30 s without a lock set it with AUTOLOCK. -/
def Obligations.BootLoadsFirmwareAndLocks : Prop :=
  (∀ (s : State) (b : BootInputs), s.inReset = false → s.steward.discovered = true → s.steward.fuses.crcOk = true →
    fld (s.steward.reg Reg.ST_BOOT) 0 2 = 0 → s.steward.locked = false → fld (wordAt b.dir 0) 28 4 = 3 →
    let a := numAt b.dir 0 1 % 2
    let man := fun k => if k = 0 then b.manA else b.manB
    let img := fun k => if k = 0 then b.imgA else b.imgB
    let verdict := fun k => s.steward.fuses.check (man k) (img k)
    let boots := fun (k : Nat) (t : State) =>
      t.steward.regions.head? = some (imageBytes (man k) (img k)) ∧ fld (t.steward.reg Reg.ST_BOOT) 0 2 = 1 ∧
        fld (t.steward.reg Reg.ST_BOOT) 2 1 = k ∧
        t.steward.core.pc = Config.regionBase 0 + BitVec.ofNat 64 (numAt (man k) 20 4) ∧
        s.askedIn t (numAt b.dir (8 + 8 * k) 8 % 2 ^ 60) 5413 ∧ s.askedIn t (numAt (man k) 8 8 % 2 ^ 60) (numAt (man k) 16 4) ∧
        s.wroteIn t (s.steward.dirAddr + 56) (leBytes 8 0)
    Completes (.firmwareLoad b) s fun t => s.askedIn t s.steward.dirAddr 64 ∧
      match verdict a, verdict (1 - a) with
      | none, _ => boots a t
      | some _, none => boots (1 - a) t
      | some _, some k => fld (t.steward.reg Reg.ST_BOOT) 0 2 = 3 ∧ t.steward.regions = s.steward.regions ∧
          t = { s with steward := t.steward, ports := t.ports, out := t.out } ∧
          s.wroteIn t (s.steward.dirAddr + 56) (bootStat (4 - a) k)) ∧
  ((∀ (s : State) (src : WriteSrc), s.inReset = false → s.steward.bootCode src = true →
    Completes (.lockWrite src) s fun t => t.steward.locked = true ∧ t = { s with steward := t.steward } ∧
      ∀ a, a ≠ Reg.ST_LOCK → a ≠ Reg.ST_BOOT → t.steward.reg a = s.steward.reg a) ∧
  (∀ (s : State) (src : WriteSrc), s.inReset = false → s.steward.bootCode src = false →
    Completes (.lockWrite src) s fun t => t.steward.locked = s.steward.locked ∧ t = { s with steward := t.steward } ∧
      bitOf (t.steward.reg Reg.ST_PROTERR) 31 = true ∧ fld (t.steward.reg Reg.ST_PROTERR) 0 12 = Reg.ST_LOCK / 4 ∧
      t.steward.reg Reg.ST_PROTVIOL_COUNT = satAdd (s.steward.reg Reg.ST_PROTVIOL_COUNT) 1 ∧
      ∀ a, a ≠ Reg.ST_PROTERR → a ≠ Reg.ST_PROTVIOL_COUNT → t.steward.reg a = s.steward.reg a) ∧
  (∀ s : State, s.inReset = false → s.steward.locked = false →
    Completes .autoLock s fun t => t.steward.locked = true ∧ t = { s with steward := t.steward } ∧
      bitOf (t.steward.reg Reg.ST_PROTERR) 30 = true ∧
      ∀ a, a ≠ Reg.ST_LOCK → a ≠ Reg.ST_BOOT → a ≠ Reg.ST_PROTERR → t.steward.reg a = s.steward.reg a))

/-! ## Supplies, power and temperature -/

/-- VACK brings the requested VID code into force; a request that times out sets the field's VIDTMO flag and drives nothing. Only the
steward differs, and what has been sent: while the shutdown test has a code in hand the next request toward it (R544), and else with AVSEN
set nothing. The adaptive loop of a field with AVSEN set, no request outstanding and no test running: one code more below FTGT - 10 MHz, or
the VMAX flag at code 40; one code less above FTGT + 30 MHz, but none below code 0; otherwise the code holds. -/
def Obligations.SupplyLoopsMoveTheSetPoints : Prop :=
  ((∀ (s : State) (f : FieldNo) (c : BitVec 6), s.inReset = false → s.steward.vidReq.getD f.val none = some c →
    Completes (.vack f) s fun t => t = { s with steward := t.steward, out := t.out } ∧
      fld (t.steward.vset f) 0 6 = c.toNat ∧
      (∀ a, a ≠ Reg.ST_VSET + 4 * f.val → t.steward.reg a = s.steward.reg a) ∧
      (bitOf (s.steward.vset f) 31 = true → s.steward.vidPlan.getD f.val [] = [] → t.out = s.out ∧ t.steward.vidBusy f = false) ∧
      (∀ g l, s.steward.vidPlan.getD f.val [] = g :: l → g ≠ c.toNat →
        ∃ b, t.out = s.out ++ [Out.vid f (BitVec.ofNat 6 (codeToward c.toNat g)) b])) ∧
  ∀ (s : State) (f : FieldNo), s.inReset = false → s.steward.vidBusy f = true →
    Completes (.vidTimeout f) s fun t => t = { s with steward := t.steward } ∧
      bitOf (t.steward.reg Reg.ST_PWR_ERR) f.val = true ∧
      ∀ a, a ≠ Reg.ST_PWR_ERR → t.steward.reg a = s.steward.reg a) ∧
  (∀ (s : State) (f : FieldNo) (mhz : BitVec 12), s.inReset = false → bitOf (s.steward.vset f) 31 = true →
    s.steward.sdRunning = false → s.steward.vidPlan.getD f.val [] = [] → s.steward.vidBusy f = false → s.steward.vidDefer.getD f.val none = none →
    s.testing = none →
    let now := fld (s.steward.vset f) 0 6
    let target := fld (s.steward.vset f) 16 12
    let asks := fun (k : Nat) (t : State) => (∃ l, t.out = s.out ++ [Out.vid f (BitVec.ofNat 6 k) l]) ∧ ∀ a, t.steward.reg a = s.steward.reg a
    Completes (.avsLoop f mhz) s fun t => t = { s with steward := t.steward, out := t.out } ∧
      (if mhz.toNat + 10 < target then
        if now < 40 then asks (now + 1) t
        else t.out = s.out ∧ bitOf (t.steward.reg Reg.ST_PWR_ERR) (4 + f.val) = true
      else if target + 30 < mhz.toNat ∧ 0 < now then asks (now - 1) t
      else t = s))

/-- The sustained limit and the thermal limit (R546, R547) lower FTGT of a field, never below 1,200 MHz, or raise it by what that same
limit has taken off it, and so never above the value that software wrote. A thermal sample of a site that is not
fenced: TC_CLK holds the measurements; from 103 °C on the tile's thermal level is 4 and its field's HOT flag is set, at 100 °C and below
the level is released; from 115 °C on THERMTRIPn is driven, once. No other tile, no port and no stream differs. The start of a budget
period (R356, R459, R546): the period's power is recorded, the die-wide throttle moves one step for the next, and PING goes to every site
of the four fields. No tile and no port differs. -/
def Obligations.LimitersAndSensorsActOnTheirLimits : Prop :=
  (let moves := fun (s t : State) (therm : Bool) (f : FieldNo) (down up : Nat) =>
    let old := fld (s.steward.vset f) 16 12
    let took := s.steward.lowered therm f
    let k := min down (old - 1200)
    let j := min up took
    fld (t.steward.vset f) 16 12 = old - k + j ∧ t.steward.lowered therm f = took + k - j
  (∀ (s : State) (avg : BitVec 11), s.inReset = false → s.steward.sustLow.length = 4 →
    (∀ f : FieldNo, fld (s.steward.vset f) 16 12 + s.steward.lowered false f < 4096) →
    let sust := fld (s.steward.reg Reg.ST_PWRLIM) 0 11
    Completes (.sustainedLimitTick avg) s fun t => t = { s with steward := t.steward } ∧
      fld (t.steward.reg Reg.ST_PWR_EST) 16 11 = avg.toNat ∧
      ∀ f : FieldNo, t.steward.lowered true f = s.steward.lowered true f ∧
        if sust < avg.toNat then moves s t false f 25 0
        else if 100 * avg.toNat < 95 * sust then moves s t false f 0 25
        else moves s t false f 0 0) ∧
  ∀ (s : State) (f : FieldNo), s.inReset = false → s.steward.thermLow.length = 4 →
    fld (s.steward.vset f) 16 12 + s.steward.lowered true f < 4096 →
    let hot := fld (s.steward.reg Reg.ST_THERM) (8 * f.val) 8
    Completes (.thermalFtgtTick f) s fun t => t = { s with steward := t.steward } ∧
      (if 95 ≤ hot then moves s t true f 50 0 else if hot < 92 then moves s t true f 0 25 else moves s t true f 0 0) ∧
      ∀ a, a ≠ Reg.ST_VSET + 4 * f.val → t.steward.reg a = s.steward.reg a) ∧
  (∀ (s : State) (n : Site) (m : TileMeasure), s.inReset = false → s.steward.site n.val ≠ 0 →
    Completes (.thermalSample n m) s fun t => t = { s with tiles := t.tiles, steward := t.steward, out := t.out } ∧
      (∀ k, k ≠ n → t.tile k = s.tile k) ∧
      fld ((t.tile n).reg Reg.TC_CLK) 20 8 = m.temp.toNat ∧ fld ((t.tile n).reg Reg.TC_CLK) 12 8 = m.vmon.toNat ∧
      fld ((t.tile n).reg Reg.TC_CLK) 0 12 = m.freq.toNat ∧
      (t.tile n).thermThr = (if 103 ≤ m.temp.toNat then 4 else if m.temp.toNat ≤ 100 then 0 else (s.tile n).thermThr) ∧
      (103 ≤ m.temp.toNat → bitOf (t.steward.reg Reg.ST_PWR_ERR) (8 + fieldOf n.val) = true) ∧
      t.out = s.out ++ (if 115 ≤ m.temp.toNat ∧ s.steward.tripped = false then [.thermtrip] else [])) ∧
  (∀ (s : State) (power : BitVec 11), s.inReset = false →
    Completes (.budgetPeriodStart power) s fun t => t = { s with periods := t.periods, steward := t.steward, loom := t.loom } ∧
      t.periods = s.periods + 1 ∧ t.steward.poll = s.steward.poll + 1 ∧
      fld (t.steward.reg Reg.ST_PWR_EST) 0 11 = power.toNat ∧
      (fld (t.steward.reg Reg.ST_PWR_EST) 29 3 =
        let thr := fld (s.steward.reg Reg.ST_PWR_EST) 29 3
        let peak := fld (s.steward.reg Reg.ST_PWRLIM) 16 11
        if peak < power.toNat then min 7 (thr + 1) else if 100 * power.toNat < 95 * peak then thr - 1 else thr) ∧
      ∀ a : FieldNo, ∃ p ∈ t.steward.outq, p.dst = .rects [fieldRect a] ∧ p.body = .ctrl (.ping (s.steward.poll + 1)))

/-! ## Set-up writes, core control, freezes, scans, banks -/

/-- A set-up write does what the access code of its address says, whoever writes: (1) at an unmapped or misaligned address nothing, but
that a running core's misaligned one takes the access fault of a store (R560); (2)
into a group window no active slot changes (RWS), nor any other tile; (3) an error flag of a powered tile is cleared by a written 1 and by
nothing else (W1C); (4) an RWL register of the steward written by other than boot code keeps its value, and the violation is counted; (5)
TC_WDOG takes a LIMLOG of 10 to 20, and keeps its value and raises TC_ERR.SETUP at a reserved one. -/
def Obligations.SetupWriteFollowsTheAccessCode : Prop :=
  (∀ (s : State) (src : WriteSrc) (addr val : Word), s.inReset = false →
    ((setupAt addr.toNat = .nowhere ∧ addr.toNat % 4 = 0) ∨ (addr.toNat % 4 ≠ 0 ∧ ∀ n, src = .core n → s.coreRuns n = false)) →
      Completes (.regWrite src addr val) s fun t => t = s) ∧
  (∀ (s : State) (n : Site) (addr val : Word), s.inReset = false → addr.toNat % 4 ≠ 0 → s.coreRuns n = true →
    Completes (.regWrite (.core n) addr val) s fun t => s.onlyTile t n ∧ (s.tile n).trapped (t.tile n) false 7) ∧
  (∀ (s : State) (src : WriteSrc) (n : Site) (g k : Nat) (addr val : Word), s.inReset = false → g < 8 → k < groupWords g →
    addr.toNat = tileAddr n (groupBase g + 4 * k) →
    Completes (.regWrite src addr val) s fun t => s.onlyTile t n ∧ ∀ j i, (t.tile n).act j i = (s.tile n).act j i) ∧
  (∀ (s : State) (src : WriteSrc) (n : Site) (o : Nat) (addr val : Word), s.inReset = false → s.powered n = true →
    (∀ m, src = .core m → m = n) →
    o ∈ [Reg.TC_ERR, Reg.TC_WV_ERR, Reg.TC_EP_ERR, Reg.MU_ERR, Reg.LA_ERR, Reg.VC_ERR, Reg.SF_ERR, Reg.SP_ERR, Reg.SH_ERR, Reg.WF_ERR] →
    addr.toNat = tileAddr n o →
    Completes (.regWrite src addr val) s fun t => s.onlyTile t n ∧
      (∀ i, bitOf ((t.tile n).reg o) i = (bitOf ((s.tile n).reg o) i && !(bitOf val i && bitOf (tileW1C o) i))) ∧
      t.tile n = { s.tile n with regs := (t.tile n).regs } ∧ ∀ a, a ≠ o → (t.tile n).reg a = (s.tile n).reg a) ∧
  (∀ (s : State) (src : WriteSrc) (addr val : Word), s.inReset = false → isRwl addr.toNat = true → addr.toNat % 4 = 0 → s.steward.bootCode src = false →
    (∀ m, src ≠ .core m) →
    Completes (.regWrite src addr val) s fun t => s.onlySteward t ∧ t.steward.reg addr.toNat = s.steward.reg addr.toNat ∧
      bitOf (t.steward.reg Reg.ST_PROTERR) 31 = true ∧ fld (t.steward.reg Reg.ST_PROTERR) 0 12 = addr.toNat / 4 ∧
      fld (t.steward.reg Reg.ST_PROTERR) 26 3 = (WriteSrc.code src).1 ∧
      t.steward.reg Reg.ST_PROTVIOL_COUNT = satAdd (s.steward.reg Reg.ST_PROTVIOL_COUNT) 1) ∧
  ∀ (s : State) (src : WriteSrc) (n : Site) (addr val : Word), s.inReset = false → s.powered n = true →
    (∀ m, src = .core m → m = n) → addr.toNat = tileAddr n Reg.TC_WDOG →
    Completes (.regWrite src addr val) s fun t => s.onlyTile t n ∧
      (if 10 ≤ fld val 0 5 ∧ fld val 0 5 ≤ 20 then
        fld ((t.tile n).reg Reg.TC_WDOG) 0 5 = fld val 0 5 ∧ (t.tile n).reg Reg.TC_ERR = (s.tile n).reg Reg.TC_ERR
      else fld ((t.tile n).reg Reg.TC_WDOG) 0 5 = fld ((s.tile n).reg Reg.TC_WDOG) 0 5 ∧ bitOf ((t.tile n).reg Reg.TC_ERR) 4 = true)

/-- GO starts a halted core of a powered tile, under no freeze, at TC_ENTRY with every register zero and its memories as they are; HALT
stops it and abandons the instruction that holds it; the steward's signal sets TC_EVT.STEWARD; SNAP copies the live counters, CLEAR zeroes
them. Nothing else differs. FREEZE sets the freeze, and with no stitch open stops the core, which remembers that it ran; FROZEN reads 1
once every command has completed and every token has left; the write of 0 ends the freeze and the core goes on as it was. -/
def Obligations.CoreControlsAndFreezes : Prop :=
  ((∀ (s : State) (n : Site), s.inReset = false → s.powered n = true → (s.tile n).core.mode = .halted →
    (s.tile n).freeze.coreWas = .halted → (s.tile n).freezeOn = false →
    Completes (.coreGo n) s fun t => s.onlyTile t n ∧ t.tile n = { s.tile n with core := (t.tile n).core } ∧
      (t.tile n).core.mode = .running ∧ (t.tile n).core.pc.toNat = fld ((s.tile n).act 6 1) 0 16 ∧
      (∀ w ∈ (t.tile n).core.x, w = 0) ∧ (t.tile n).core.imem = (s.tile n).core.imem ∧
      (t.tile n).core.dmem = (s.tile n).core.dmem) ∧
  (∀ (s : State) (n : Site), s.inReset = false → s.powered n = true →
    Completes (.coreHalt n) s fun t => s.onlyTile t n ∧
      t.tile n = { s.tile n with core := (t.tile n).core, freeze := (t.tile n).freeze } ∧
      (t.tile n).core = { (s.tile n).core with mode := .halted, bk := .none, swpend := false }) ∧
  (∀ (s : State) (n : Site), s.inReset = false → s.powered n = true →
    Completes (.stewardSignal n) s fun t => s.onlyTile t n ∧ t.tile n = { s.tile n with regs := (t.tile n).regs } ∧
      bitOf ((t.tile n).reg Reg.TC_EVT) 2 = true ∧ ∀ o, o ≠ Reg.TC_EVT → (t.tile n).reg o = (s.tile n).reg o) ∧
  (∀ (s : State) (n : Site), s.inReset = false → s.powered n = true →
    Completes (.counterSnap n) s fun t => s.onlyTile t n ∧ t.tile n = { s.tile n with snap := (s.tile n).live }) ∧
  ∀ (s : State) (n : Site), s.inReset = false → s.powered n = true →
    Completes (.counterClear n) s fun t => s.onlyTile t n ∧ t.tile n = { s.tile n with live := [] }) ∧
  ((∀ (s : State) (n : Site), s.inReset = false → s.powered n = true → (s.tile n).stitch.mode = .idle →
    (s.tile n).core.mode ≠ .halted →
    Completes (.freeze n) s fun t => s.onlyTile t n ∧ (t.tile n).freezeOn = true ∧ (t.tile n).core.mode = .halted ∧
      (t.tile n).freeze.coreWas = (if (s.tile n).core.mode = .wfi then .wfi else .running) ∧
      (t.tile n).core.pc = (s.tile n).core.pc ∧ (t.tile n).core.x = (s.tile n).core.x ∧
      t.tile n = { s.tile n with regs := (t.tile n).regs, freeze := (t.tile n).freeze, core := (t.tile n).core }) ∧
  (∀ (s : State) (n : Site), s.inReset = false → (s.tile n).freezeOn = true → (s.tile n).stitch.mode = .idle →
    (s.tile n).core.mode = .halted → (s.tile n).quiet = true → (s.tile n).tokenLeft = false →
    Completes (.tileFrozen n) s fun t => (∀ m, m ≠ n → t.tile m = s.tile m) ∧ (t.tile n).freeze.frozen = true ∧
      (t.tile n).core = (s.tile n).core ∧ (s.inSlice n = false → s.onlyTile t n ∧
        t.tile n = { s.tile n with freeze := { (s.tile n).freeze with frozen := true } })) ∧
  ∀ (s : State) (n : Site), s.inReset = false → s.powered n = true → (s.tile n).freeze.halt = false →
    (s.tile n).freeze.slice = false → (s.tile n).freeze.coreWas ≠ .halted →
    Completes (.thaw n) s fun t => s.onlyTile t n ∧ (t.tile n).freezeOn = false ∧ (t.tile n).freeze.frozen = false ∧
      (t.tile n).core = { (s.tile n).core with mode := (s.tile n).freeze.coreWas } ∧
      t.tile n = { s.tile n with regs := (t.tile n).regs, freeze := (t.tile n).freeze, core := (t.tile n).core })

/-- SCAN_OUT of the IMEM part of a frozen tile into its own scratchpad, in banks that are in service, writes a SCAN record's header at the
scan row and is BUSY; SCAN_IN of records that pass writes the part and nothing else but TC_SCAN_CTL, where every active image passes (R305),
and forbids KEEPW (R76); where the records do not pass it sets BADPART, raises the scan fault and writes nothing of the part; on a tile that
is not frozen it sets REFUSED; while a slice holds the tile either scan waits and GO reads 1 (R496); SCAN_DONE clears BUSY. -/
def Obligations.ScansAreCheckedAndReported : Prop :=
  (∀ (s : State) (n : Site) (ctl : Word), s.inReset = false → s.powered n = true → (s.tile n).scannable = true →
    (s.tile n).freeze.soft = bitOf ctl 31 → bitOf ctl 30 = true → bitOf ctl 29 = false → fld ctl 26 2 = 0 →
    fld ctl 0 9 = 64 → fld ((s.tile n).reg Reg.TC_SCAN_ADDR) 0 12 + 144 ≤ 4096 → (∀ r, (s.tile n).inService r = true) →
    (s.tile n).holdsEng 7 = false → (s.tile n).freeze.slice = false →
    Completes (.scanOut n ctl) s fun t => (t.tile n).freeze.scanBusy = true ∧ (∀ m, m ≠ n → t.tile m = s.tile m) ∧
      t = { s with tiles := t.tiles, fresh := t.fresh, scans := t.scans } ∧ (t.tile n).core = (s.tile n).core ∧
      (List.range 4).map (fun i => (t.tile n).spByte (fld ((s.tile n).reg Reg.TC_SCAN_ADDR) 0 12) i) =
        leBytes 4 (0x33000000 + 6 * 2 ^ 20 + 2044 * 2 ^ 8)) ∧
  (∀ (s : State) (n : Site) (ctl : Word) (ws : List Word), s.inReset = false → s.powered n = true →
    (s.tile n).scannable = true → (s.tile n).freeze.soft = bitOf ctl 31 → bitOf ctl 30 = true → bitOf ctl 29 = true →
    fld ctl 26 2 = 3 → fld ctl 0 9 = 64 → ws.length = 16384 → (s.tile n).freeze.slice = false → (s.tile n).imagesPass →
    Completes (.scanIn n ctl (partRecords 6 ws)) s fun t => s.onlyTile t n ∧
      (t.tile n).core = { (s.tile n).core with imem := Memory.writeBytes [] 0 (bytesOfWords ws) } ∧
      t.tile n = { (s.tile n).noKeep with regs := (t.tile n).regs, core := (t.tile n).core
                                          freeze := { (s.tile n).freeze with scanPend := none } } ∧
      ∀ o, o ≠ Reg.TC_SCAN_CTL → (t.tile n).reg o = (s.tile n).reg o) ∧
  (∀ (s : State) (n : Site) (ctl : Word), s.inReset = false → s.powered n = true → (s.tile n).scannable = true →
    (s.tile n).freeze.soft = bitOf ctl 31 → bitOf ctl 30 = true → bitOf ctl 29 = true → fld ctl 26 2 = 3 →
    fld ctl 0 9 = 64 → (s.tile n).freeze.slice = false → (s.tile n).imagesPass →
    Completes (.scanIn n ctl []) s fun t => s.onlyTile t n ∧ bitOf ((t.tile n).reg Reg.TC_SCAN_STAT) 6 = true ∧
      (t.tile n).core = (s.tile n).core ∧
      ∃ p ∈ (t.tile n).outq, ∃ f : FaultMsg, p.body = .ctrl (.fault f) ∧ f.code = 0x09) ∧
  (∀ (s : State) (n : Site) (ctl : Word) (recs : List (List Word)), s.inReset = false → s.powered n = true →
    (s.tile n).freeze.slice = true → (s.tile n).freeze.soft = bitOf ctl 31 → bitOf ctl 30 = true →
    let waits := fun t : State => s.onlyTile t n ∧ (t.tile n).freeze = { (s.tile n).freeze with scanPend := some ctl } ∧
      bitOf ((t.tile n).reg Reg.TC_SCAN_CTL) 30 = true ∧
      t.tile n = { s.tile n with regs := (t.tile n).regs, freeze := (t.tile n).freeze }
    (bitOf ctl 29 = true → Completes (.scanIn n ctl recs) s waits) ∧ (bitOf ctl 29 = false → Completes (.scanOut n ctl) s waits)) ∧
  (∀ (s : State) (n : Site) (ctl : Word) (recs : List (List Word)), s.inReset = false → s.powered n = true →
    (s.tile n).freeze.frozen = false → (s.tile n).freeze.soft = bitOf ctl 31 → bitOf ctl 30 = true → bitOf ctl 29 = true →
    (s.tile n).freeze.slice = false →
    Completes (.scanIn n ctl recs) s fun t => s.onlyTile t n ∧ bitOf ((t.tile n).reg Reg.TC_SCAN_STAT) 10 = true ∧
      t.tile n = { s.tile n with regs := (t.tile n).regs, freeze := { (s.tile n).freeze with scanPend := none } }) ∧
  ∀ (s : State) (n : Site), s.inReset = false → (s.tile n).freeze.scanBusy = true → (s.tile n).freeze.scanLeft = 0 →
    (s.tile n).freeze.scanAcks = [] → (s.tile n).sp.held = [] →
    Completes (.scanDone n) s fun t => (∀ m, m ≠ n → t.tile m = s.tile m) ∧ (s.inSlice n = false → s.onlyTile t n) ∧
      t.tile n = { s.tile n with freeze := { (s.tile n).freeze with scanBusy := false } }

/-- The check value of records (R302): CRC-32C over the bytes of the covered words in little-endian order, bit by bit from the least
significant, with the reflected polynomial 0x82F63B78, which is 0x1EDC6F41 with its bits in the other order, from 0xFFFFFFFF and with all
bits inverted at the end; the nine ASCII bytes "123456789" give 0xE3069283. So records that a scan out makes of a part's words pass the
check of a scan in, and give back the words. -/
def Obligations.ScanRecordsGiveBackTheirWords : Prop :=
  (let bit := fun (c : Word) (b : Bool) => if (c.getLsbD 0 != b) then (c >>> 1) ^^^ 0x82F63B78 else c >>> 1
   (∀ i, i < 32 → (0x82F63B78 : Word).getLsbD i = (0x1EDC6F41 : Word).getLsbD (31 - i)) ∧
   (∀ bs : List Byte, crc32c bs = ~~~((bs.flatMap fun b => (List.range 8).map b.getLsbD).foldl bit 0xFFFFFFFF)) ∧
   (∀ ws : List Word, crc32cWords ws = crc32c (ws.flatMap fun w : Word => [0, 1, 2, 3].map fun k : Nat => (w >>> (8 * k)).setWidth 8)) ∧
   crc32c [0x31, 0x32, 0x33, 0x34, 0x35, 0x36, 0x37, 0x38, 0x39] = 0xE3069283) ∧
  ∀ (p : Nat) (ws : List Word), p < 9 → ws.length ≤ 2 ^ 20 → scanWords p ws.length (partRecords p ws) = some ws

/-- A requested bank without an outstanding write is gated: its rows' state is discarded and every other bank's rows stay. The end of a
bank's wake leaves zero in each of its rows that no held write covers, and applies the held writes, each engine's in order: one stays held
only behind a write of its engine to another bank that is out of service. A write to SP_PWR.GATE records the
request, and a 0 for a gated bank starts its wake. Sleep and wake by ST_SLEEP (R477, R567): SLEEP of a tile that may sleep halts its core
and starts the scrub, whose end powers it down with its scratchpad zero but in gated banks; WAKE starts the wake, whose end leaves the
scratchpad zero, the void pattern in every group and the ready handshake pending; of a site that may not, the action is refused with ERR,
GO reads whether another action is in progress, and no tile differs. -/
def Obligations.BanksGateAndTilesSleep : Prop :=
  ((∀ (s : State) (n : Site) (g : BitVec 16), s.inReset = false → s.powered n = true →
    Completes (.bankGate n g) s fun t => s.onlyTile t n ∧ t.tile n = { s.tile n with regs := (t.tile n).regs } ∧
      ∀ b, b < 16 →
        ((s.tile n).gated b = true → bitOf g b = false → (t.tile n).gated b = false ∧ (t.tile n).waking' b = true) ∧
        ((s.tile n).gated b = true → bitOf g b = true → (t.tile n).gated b = true) ∧
        ((s.tile n).gated b = false → (t.tile n).gated b = false ∧ (t.tile n).waking' b = (s.tile n).waking' b ∧
          bitOf ((t.tile n).reg Reg.SP_PWR) b = bitOf g b)) ∧
  (∀ (s : State) (n : Site) (b : Fin 16), s.inReset = false → s.powered n = true → bitOf ((s.tile n).reg Reg.SP_PWR) b.val = true →
    (s.tile n).gated b.val = false → (s.tile n).waking' b.val = false → (s.tile n).bankBusy b.val = false →
    Completes (.bankGated n b) s fun t => s.onlyTile t n ∧ (t.tile n).gated b.val = true ∧
      (∀ r i, bankOf r ≠ b.val → i < 512 → (t.tile n).spByte r i = (s.tile n).spByte r i ∧ (t.tile n).rowPoison r = (s.tile n).rowPoison r) ∧
      t.tile n = { s.tile n with regs := (t.tile n).regs, sp := (t.tile n).sp }) ∧
  ∀ (s : State) (n : Site) (b : Fin 16), s.inReset = false → s.powered n = true → (s.tile n).waking' b.val = true →
    (s.tile n).gated b.val = false → (∀ h ∈ (s.tile n).sp.held, h.off + h.data.length ≤ 512) →
    Completes (.bankWakeEnd n b) s fun t => s.onlyTile t n ∧ (t.tile n).waking' b.val = false ∧
      (∀ h ∈ (t.tile n).sp.held, bankOf h.row = b.val → ∃ k ∈ (t.tile n).sp.held, k.eng = h.eng ∧ bankOf k.row ≠ b.val) ∧
      (∀ h, (s.tile n).sp.held = [h] → bankOf h.row = b.val → h.data ≠ [] → (t.tile n).sp.held = [] ∧
        ∀ i, i < h.data.length → (t.tile n).spByte h.row (h.off + i) = h.data.getD i 0) ∧
      (∀ r i, bankOf r = b.val → i < 512 → (∀ h ∈ (s.tile n).sp.held, h.row ≠ r) → (t.tile n).spByte r i = 0) ∧
      ∀ r i, bankOf r ≠ b.val → i < 512 → (∀ h ∈ (s.tile n).sp.held, h.row ≠ r) → (t.tile n).spByte r i = (s.tile n).spByte r i) ∧
  ((∀ (s : State) (n : Site), s.inReset = false → s.sleepable n = true → (s.tile n).asleep = false → (s.tile n).scrubbing = false →
    Completes (.sleep (BitVec.ofNat 12 n.val)) s fun t => (∀ m, m ≠ n → t.tile m = s.tile m) ∧
      (t.tile n).sleeping = true ∧ (t.tile n).scrubbing = true ∧ (t.tile n).core.mode = .halted ∧
      (∀ u, ((t.tile n).unit u).queue = [] ∧ ((t.tile n).unit u).running = []) ∧
      bitOf (t.steward.reg Reg.ST_SLEEP) 31 = true ∧ fld (t.steward.reg Reg.ST_SLEEP) 0 12 = n.val) ∧
  (∀ (s : State) (n : Site), s.inReset = false → s.sleepable n = false →
    Completes (.sleep (BitVec.ofNat 12 n.val)) s fun t => s.onlySteward t ∧
      bitOf (t.steward.reg Reg.ST_SLEEP) 31 = !s.steward.sleepActs.isEmpty ∧ bitOf (t.steward.reg Reg.ST_SLEEP) 30 = true) ∧
  (∀ (s : State) (n : Site), s.inReset = false → s.sleepable n = true → (s.tile n).asleep = true →
    Completes (.wake (BitVec.ofNat 12 n.val)) s fun t => (∀ m, m ≠ n → t.tile m = s.tile m) ∧
      t.tile n = { s.tile n with waking := true } ∧ fld (t.steward.reg Reg.ST_SLEEP) 28 2 = 2) ∧
  (∀ (s : State) (n : Site), s.inReset = false → (s.tile n).asleep = true → (s.tile n).waking = true → s.steward.darning = none →
    Completes (.wakeDone n) s fun t => (∀ m, m ≠ n → t.tile m = s.tile m) ∧ (t.tile n).asleep = false ∧
      (t.tile n).waking = false ∧ (∀ r i, (t.tile n).spByte r i = 0) ∧ (∀ g k, g < 7 → (t.tile n).act g k = voidWord g k) ∧
      (t.tile n).freeze.handshake = true ∧ (t.tile n).core.mode = .halted) ∧
  ∀ (s : State) (n : Site), s.inReset = false → (s.tile n).scrubbing = true → s.inSlice n = false → (s.tile n).hemmed = false →
    (∀ k, n ∉ s.claimed k) → s.steward.site n.val ≠ 0 →
    Completes (.killScrubDone n) s fun t => (t.tile n).scrubbing = false ∧
      (t.tile n).asleep = ((s.tile n).sleeping || (s.tile n).asleep) ∧
      (∀ r i, i < 512 → (t.tile n).gated (bankOf r) = false → (t.tile n).spByte r i = 0) ∧
      (∀ g k, g < 7 → (t.tile n).act g k = voidWord g k) ∧ (t.tile n).reg Reg.TC_STREAM = 0)

/-! ## The tile core and its command extension -/

/-- A standard instruction that computes, branches or jumps (RV32IM; R190, R194): rd takes the value, the pc goes to the next instruction or
the target, minstret counts it, and it takes the cycles of R194; nothing else differs but, after a corrected error, TC_ERR.CE. Loads,
stores, CSR instructions and MRET (R190 to R193): a load of the core's memories writes rd, extended; a store changes the bytes it stores to
and no other byte; a misaligned one takes cause 4 or 6, one outside the memories, or misaligned in the set-up space (R560), cause 5 or 7;
CSRRW of a CSR that holds what is written gives the old value and stores the new; MRET restores the pc and MIE. -/
def Obligations.CoreExecutesItsInstructions : Prop :=
  (∀ (s : State) (n : Site) (ecc : CoreEcc) (w raw : Word) (len : Nat), s.coreAtIns n w len raw → (∀ b, ecc ≠ .ueFetch b) →
    let t0 := if ecc = .ce then (s.tile n).flagBit Reg.TC_ERR 1 else s.tile n
    let a := (s.tile n).xreg (fld w 15 5)
    let b := (s.tile n).xreg (fld w 20 5)
    let i := immOf (fld w 20 12) 12
    let pc := (s.tile n).core.pc
    let next := pc + BitVec.ofNat 32 len
    let ends := fun (rd : Nat) (v dst : Word) (cost : Nat) =>
      Completes (.rvInstruction n ecc) s fun t => s.onlyTile t n ∧ t.tile n = t0.ran rd v dst (s.loadWait n w + cost)
    let rd := fld w 7 5
    let f3 := fld w 12 3
    let f7 := fld w 25 7
    (fld w 0 7 = 0x33 → f7 = 0 → ends rd (if f3 = 0 then a + b else if f3 = 1 then a <<< (b.toNat % 32)
        else if f3 = 2 then (if a.toInt < b.toInt then 1 else 0) else if f3 = 3 then (if a.toNat < b.toNat then 1 else 0)
        else if f3 = 4 then a ^^^ b else if f3 = 5 then a >>> (b.toNat % 32) else if f3 = 6 then a ||| b else a &&& b) next 1) ∧
    (fld w 0 7 = 0x33 → f7 = 0x20 → f3 = 0 → ends rd (a - b) next 1) ∧
    (fld w 0 7 = 0x33 → f7 = 0x20 → f3 = 5 → ends rd (a.sshiftRight (b.toNat % 32)) next 1) ∧
    (fld w 0 7 = 0x33 → f7 = 1 → f3 < 4 → ends rd (if f3 = 0 then a * b
        else if f3 = 1 then BitVec.ofInt 32 (a.toInt * b.toInt / 2 ^ 32)
        else if f3 = 2 then BitVec.ofInt 32 (a.toInt * (b.toNat : Int) / 2 ^ 32)
        else BitVec.ofNat 32 (a.toNat * b.toNat / 2 ^ 32)) next 2) ∧
    (fld w 0 7 = 0x33 → f7 = 1 → 4 ≤ f3 → ∃ cost, (cost = 2 ∨ cost = 34) ∧ (b = 0 → cost = 2) ∧
      ends rd (if b = 0 then (if f3 < 6 then 0xFFFFFFFF else a)
        else if f3 = 4 then BitVec.ofInt 32 (a.toInt.tdiv b.toInt) else if f3 = 5 then BitVec.ofNat 32 (a.toNat / b.toNat)
        else if f3 = 6 then BitVec.ofInt 32 (a.toInt.tmod b.toInt) else BitVec.ofNat 32 (a.toNat % b.toNat)) next cost) ∧
    (fld w 0 7 = 0x13 → f3 ≠ 1 → f3 ≠ 5 → ends rd (if f3 = 0 then a + i else if f3 = 2 then (if a.toInt < i.toInt then 1 else 0)
        else if f3 = 3 then (if a.toNat < i.toNat then 1 else 0) else if f3 = 4 then a ^^^ i else if f3 = 6 then a ||| i
        else a &&& i) next 1) ∧
    (fld w 0 7 = 0x13 → f3 = 1 → f7 = 0 → ends rd (a <<< fld w 20 5) next 1) ∧
    (fld w 0 7 = 0x13 → f3 = 5 → f7 = 0 → ends rd (a >>> fld w 20 5) next 1) ∧
    (fld w 0 7 = 0x13 → f3 = 5 → f7 = 0x20 → ends rd (a.sshiftRight (fld w 20 5)) next 1) ∧
    (fld w 0 7 = 0x37 → ends rd (w &&& 0xFFFFF000) next 1) ∧
    (fld w 0 7 = 0x17 → ends rd (pc + (w &&& 0xFFFFF000)) next 1) ∧
    (fld w 0 7 = 0x6F → ends rd next (pc + immJ w) 2) ∧
    (fld w 0 7 = 0x67 → f3 = 0 → ends rd next ((a + i) &&& 0xFFFFFFFE) 2) ∧
    (fld w 0 7 = 0x63 → f3 ≠ 2 → f3 ≠ 3 →
      let taken := (f3 = 0 ∧ a = b) ∨ (f3 = 1 ∧ a ≠ b) ∨ (f3 = 4 ∧ a.toInt < b.toInt) ∨ (f3 = 5 ∧ b.toInt ≤ a.toInt) ∨
        (f3 = 6 ∧ a.toNat < b.toNat) ∨ (f3 = 7 ∧ b.toNat ≤ a.toNat)
      (taken → ends 0 0 (pc + immB w) 2) ∧ (¬taken → ends 0 0 next 1)) ∧
    (fld w 0 7 = 0x0F → f3 < 2 → ends 0 0 next 1)) ∧
  (∀ (s : State) (n : Site) (w raw : Word) (len : Nat), s.coreAtIns n w len raw →
    let a := (s.tile n).xreg (fld w 15 5)
    let b := (s.tile n).xreg (fld w 20 5)
    let c := (s.tile n).core
    let next := c.pc + BitVec.ofNat 32 len
    let rd := fld w 7 5
    let f3 := fld w 12 3
    let k := 2 ^ (f3 % 4)
    let la := (a + immOf (fld w 20 12) 12).toNat
    let sa := (a + immS w).toNat
    let done := fun (p : Tile → Prop) => Completes (.rvInstruction n .none) s fun t => s.onlyTile t n ∧ p (t.tile n)
    (fld w 0 7 = 0x03 → f3 ∈ [0, 1, 2, 4, 5] → la % k = 0 → la < 0x14000 → done fun t =>
      let bytes := if la < 0x10000 then Memory.readBytes c.imem la k else Memory.readBytes c.dmem (la - 0x10000) k
      let v := leNat bytes
      t = { (s.tile n).ran rd (if f3 < 2 then immOf v (8 * k) else BitVec.ofNat 32 v) next (s.loadWait n w + 1) with
            core := { ((s.tile n).ran rd (if f3 < 2 then immOf v (8 * k) else BitVec.ofNat 32 v) next 0).core with
                      loaded := t.core.loaded } }) ∧
    (fld w 0 7 = 0x03 → f3 ∈ [0, 1, 2, 4, 5] → la % k ≠ 0 → done fun t =>
      (s.tile n).trapped t false (if 0x20000 ≤ la ∧ la < 0x30000 then 5 else 4)) ∧
    (fld w 0 7 = 0x03 → f3 ∈ [0, 1, 2, 4, 5] → la % k = 0 → 0x14000 ≤ la → (la < 0x20000 ∨ 0x30000 ≤ la ∨ f3 ≠ 2) →
      done fun t => (s.tile n).trapped t false 5) ∧
    (fld w 0 7 = 0x23 → f3 < 3 → sa % k = 0 → 0x10000 ≤ sa → sa < 0x14000 → done fun t =>
      t = { (s.tile n).ran 0 0 next (s.loadWait n w + 1) with core := { ((s.tile n).ran 0 0 next 0).core with dmem := t.core.dmem } } ∧
      (∀ i, i < k → Memory.read t.core.dmem (sa - 0x10000 + i) = BitVec.ofNat 8 (b.toNat / 2 ^ (8 * i))) ∧
      ∀ i, (i < sa - 0x10000 ∨ sa - 0x10000 + k ≤ i) → Memory.read t.core.dmem i = Memory.read c.dmem i) ∧
    (fld w 0 7 = 0x23 → f3 < 3 → sa % k ≠ 0 → done fun t =>
      (s.tile n).trapped t false (if 0x20000 ≤ sa ∧ sa < 0x30000 then 7 else 6)) ∧
    (fld w 0 7 = 0x23 → f3 < 3 → sa % k = 0 → (sa < 0x10000 ∨ 0x14000 ≤ sa) → (sa < 0x20000 ∨ 0x30000 ≤ sa ∨ f3 ≠ 2) →
      done fun t => (s.tile n).trapped t false 7) ∧
    (fld w 0 7 = 0x73 → f3 = 1 → fld w 20 12 ∈ [0x305, 0x340, 0x341, 0x342, 0x343] → done fun t =>
      ∃ old, s.csr n (fld w 20 12) = some old ∧ t.core.x = (if rd = 0 then c.x else c.x.set rd old) ∧ t.core.pc = next ∧
        t.core.minstret = c.minstret + 1 ∧
        t = { s.tile n with cycles := t.cycles, core := { c with
                x := t.core.x, pc := next, minstret := t.core.minstret,
                mtvec := if fld w 20 12 = 0x305 then a &&& 0xFFFFFFFC else c.mtvec,
                mscratch := if fld w 20 12 = 0x340 then a else c.mscratch,
                mepc := if fld w 20 12 = 0x341 then a &&& 0xFFFFFFFE else c.mepc,
                mcause := if fld w 20 12 = 0x342 then a else c.mcause,
                mtval := if fld w 20 12 = 0x343 then a else c.mtval } }) ∧
    (w = 0x30200073 → done fun t =>
      t = { s.tile n with cycles := t.cycles, core := { c with mie := c.mpie, mpie := true, pc := c.mepc, minstret := c.minstret + 1 } }) ∧
    (w = 0x00000073 → done fun t => (s.tile n).trapped t false 11) ∧
    (w = 0x00100073 → done fun t => (s.tile n).trapped t false 3))

/-- What the core does where no instruction runs: an encoding that RV32IMC leaves undefined takes cause 2, a fetch outside instruction
memory cause 1; an uncorrectable error of a fetch sets TC_ERR.UE, raises TC_UE and takes cause 1; MEIP with MIE and MEIE is taken before
the next instruction, as interrupt 11. WFI waits unless MEIP is 1 or a code switch is pending, and WFI_WAKE ends the wait; there, as at
BK.YIELD, a pending code switch is taken: the core restarts at TC_ENTRY with its registers zero; else it goes on with the next
instruction. A corrected error in the fetch of an undefined encoding, a waiting instruction, WFI or BK.YIELD sets TC_ERR.ECC_CE (R193). -/
def Obligations.CoreTrapsWaitsAndTakesCodeSwitches : Prop :=
  ((∀ (s : State) (n : Site) (ecc : CoreEcc) (raw : Word), s.inReset = false → s.coreRuns n = true → (s.tile n).fetchIns = .bad raw →
    (∀ b, ecc ≠ .ueFetch b) →
    Completes (.rvInstruction n ecc) s fun t => s.onlyTile t n ∧ (s.tile n).trapped (t.tile n) false 2 ∧
      (ecc = .ce → bitOf ((t.tile n).reg Reg.TC_ERR) 1 = true)) ∧
  (∀ (s : State) (n : Site) (w raw : Word) (len : Nat), s.coreAtIns n w len raw →
    fld w 0 7 ∉ [0x03, 0x0F, 0x13, 0x17, 0x23, 0x33, 0x37, 0x63, 0x67, 0x6F, 0x73] →
    Completes (.rvInstruction n .none) s fun t => s.onlyTile t n ∧ (s.tile n).trapped (t.tile n) false 2) ∧
  (∀ (s : State) (n : Site) (a : Word), s.inReset = false → s.coreRuns n = true → (s.tile n).fetchIns = .fault a →
    Completes (.rvInstruction n .none) s fun t => s.onlyTile t n ∧ (s.tile n).trapped (t.tile n) false 1) ∧
  (∀ (s : State) (n : Site) (second : Bool), s.inReset = false → s.coreRuns n = true → (s.tile n).core.pc.toNat < 0x10000 →
    Completes (.rvInstruction n (.ueFetch second)) s fun t => s.onlyTile t n ∧ bitOf ((t.tile n).reg Reg.TC_ERR) 2 = true ∧
      (t.tile n).core.x = (s.tile n).core.x ∧ (t.tile n).core.minstret = (s.tile n).core.minstret ∧
      (∃ p ∈ (t.tile n).outq, ∃ f : FaultMsg, p.body = .ctrl (.fault f) ∧ f.code = 0x03 ∧ f.unit = 0xC) ∧
      (bitOf ((s.tile n).reg Reg.TC_CFG) 0 = false → (t.tile n).core.mcause = 1 ∧ (t.tile n).core.pc = (s.tile n).core.mtvec)) ∧
  ∀ (s : State) (n : Site), s.inReset = false → s.coreRuns n = true → (s.tile n).meip = true → (s.tile n).core.mie = true →
    (s.tile n).core.meie = true →
    Completes (.interruptTaken n) s fun t => s.onlyTile t n ∧ (s.tile n).trapped (t.tile n) true 11) ∧
  (∀ (s : State) (n : Site) (k : Nat) (w : Word), s.coreAtSpecial n k w → 2 ≤ k →
    Completes (.rvInstruction n .ce) s fun t => s.onlyTile t n ∧ t.tile n = (s.tile n).flagBit Reg.TC_ERR 1) ∧
  (let goesOn := fun (a b : Tile) =>
    b.core.mode = .running ∧ b.core.imem = a.core.imem ∧ b.core.dmem = a.core.dmem ∧
      (if a.core.swpend = true then b.core.pc.toNat = fld (a.act 6 1) 0 16 ∧ (∀ i, b.xreg i = 0) ∧ b.core.swpend = false
       else b.core = { a.core with mode := .running, pc := a.core.pc + 4, minstret := a.core.minstret + 1 }) ∧
      b = { a with core := b.core, cycles := b.cycles }
  (∀ (s : State) (n : Site) (w : Word), s.coreAtSpecial n 6 w →
    Completes (.wfi n) s fun t => s.onlyTile t n ∧
      (if (s.tile n).meip = true ∨ (s.tile n).core.swpend = true then goesOn (s.tile n) (t.tile n)
       else t.tile n = { s.tile n with core := { (s.tile n).core with mode := .wfi } })) ∧
  (∀ (s : State) (n : Site), s.inReset = false → s.powered n = true → (s.tile n).core.mode = .wfi →
    (s.tile n).meip = true ∨ (s.tile n).core.swpend = true →
    Completes (.wfiWake n) s fun t => s.onlyTile t n ∧ goesOn (s.tile n) (t.tile n)) ∧
  ∀ (s : State) (n : Site) (w : Word), s.coreAtSpecial n 5 w →
    Completes (.bkYield n) s fun t => s.onlyTile t n ∧ goesOn (s.tile n) (t.tile n))

/-- Issuing a command (R200 to R203, R210): with room the command's words join the unit's queue, with the fence, and rd takes the ticket;
with no room BK.ISSUE holds the core and BK.TRYISSUE writes 0; a unit that follows its sequencer takes nothing, rd is 0 and TC_ERR.CMDSRC
is set. A held BK.ISSUE is accepted once the queue has room. Waiting for commands (R206 to R208): BK.POLL returns the ticket's status word
at once; BK.WAIT holds the core while it is PENDING and WAIT_RETIRE ends the wait once it is not; BK.WAITU holds it until every named unit
has completed what was issued, and then returns the error summary of the named units and clears it. -/
def Obligations.CommandsAreIssuedAndAwaited : Prop :=
  (let accepted := fun (a b : Tile) (u : UnitC) (words : List Word) (rd : Nat) =>
    let k := (a.unit u).issued + 1
    (b.unit u).issued = k ∧ (b.unit u).queue.length = (a.unit u).queue.length + 1 ∧
      (∃ c, (b.unit u).queue = (a.unit u).queue ++ [c] ∧ c.words = words) ∧ (b.unit u).running = (a.unit u).running ∧
      b.core.x = (if rd = 0 then a.core.x else a.core.x.set rd (at32 (unitCode u) 28 ||| at32 ((k - 1) % 65535 + 1) 0)) ∧
      b.core.pc = a.core.pc + 4 ∧ b.core.mode = .running ∧ b.core.bk = .none ∧ b.sp = a.sp ∧ b.core.dmem = a.core.dmem ∧
      ∀ v, v ≠ u → b.unit v = a.unit v
  (∀ (s : State) (n : Site) (w : Word) (u : UnitC) (words : List Word) (k : Nat), k < 2 → s.coreAtSpecial n k w →
    unitOfCode (fld w 25 3) = some u → (s.tile n).core.bk = .none → (s.tile n).commandWords u ((s.tile n).xreg (fld w 15 5)) = .ok words →
    Completes (if k = 0 then .bkIssue n .none else .bkTryIssue n .none) s fun t => s.onlyTile t n ∧
      (if (s.tile n).cmdsrc (unitCode u) = true then
        t.tile n = (((s.tile n).flagBit Reg.TC_ERR 0).ran (fld w 7 5) 0 ((s.tile n).core.pc + 4) (s.loadWait n w + (words.length + 7) / 8))
      else if (s.tile n).room u = true then accepted (s.tile n) (t.tile n) u words (fld w 7 5)
      else if k = 1 then t.tile n = (s.tile n).ran (fld w 7 5) 0 ((s.tile n).core.pc + 4) (s.loadWait n w + (words.length + 7) / 8)
      else (t.tile n).core.mode = .stalled ∧ (t.tile n).core.bk = .issue u words ((s.tile n).xreg (fld w 20 5)) (fld w 7 5) ∧
        (t.tile n).units = (s.tile n).units ∧ (t.tile n).core.pc = (s.tile n).core.pc ∧ (t.tile n).core.x = (s.tile n).core.x)) ∧
  ∀ (s : State) (n : Site) (u : UnitC) (words : List Word) (mask : Word) (rd : Nat), s.inReset = false → s.powered n = true →
    (s.tile n).core.bk = .issue u words mask rd → (s.tile n).room u = true →
    Completes (.commandAccept n) s fun t => s.onlyTile t n ∧ accepted (s.tile n) (t.tile n) u words rd) ∧
  (let ends := fun (a b : Tile) (rd : Nat) (v : Word) =>
    b.core = { a.core with x := if rd = 0 then a.core.x else a.core.x.set rd v, pc := a.core.pc + 4, mode := .running, bk := .none,
                           minstret := a.core.minstret + 1 }
  let waits := fun (a b : Tile) (tk : Word) (rd : Nat) =>
    if fld (a.ticketStatus tk) 28 4 = 0xE then b.core = { a.core with mode := .stalled, bk := .wait tk rd } else ends a b rd (a.ticketStatus tk)
  let summary := fun (a b : Tile) (mask : Word) (rd : Nat) =>
    ∃ v, ends a b rd v ∧ ∀ u, bitOf v (unitCode u) = (bitOf mask (unitCode u) && (a.unit u).errSum) ∧
      (b.unit u).errSum = ((a.unit u).errSum && !bitOf mask (unitCode u)) ∧ (b.unit u).done = (a.unit u).done
  (∀ (s : State) (n : Site) (w : Word), s.coreAtSpecial n 3 w → (s.tile n).core.bk = .none →
    Completes (.bkPoll n) s fun t => s.onlyTile t n ∧
      ends (s.tile n) (t.tile n) (fld w 7 5) ((s.tile n).ticketStatus ((s.tile n).xreg (fld w 15 5))) ∧
      t.tile n = { s.tile n with core := (t.tile n).core, cycles := (t.tile n).cycles }) ∧
  (∀ (s : State) (n : Site) (w : Word), s.coreAtSpecial n 2 w → (s.tile n).core.bk = .none →
    Completes (.bkWait n) s fun t => s.onlyTile t n ∧ waits (s.tile n) (t.tile n) ((s.tile n).xreg (fld w 15 5)) (fld w 7 5) ∧
      t.tile n = { s.tile n with core := (t.tile n).core, cycles := (t.tile n).cycles }) ∧
  (∀ (s : State) (n : Site) (tk : Word) (rd : Nat), s.inReset = false → s.powered n = true → (s.tile n).core.bk = .wait tk rd →
    fld ((s.tile n).ticketStatus tk) 28 4 ≠ 0xE →
    Completes (.waitRetire n) s fun t => s.onlyTile t n ∧ ends (s.tile n) (t.tile n) rd ((s.tile n).ticketStatus tk) ∧
      t.tile n = { s.tile n with core := (t.tile n).core, cycles := (t.tile n).cycles }) ∧
  (∀ (s : State) (n : Site) (w : Word), s.coreAtSpecial n 4 w → (s.tile n).core.bk = .none →
    Completes (.bkWaitu n) s fun t => s.onlyTile t n ∧
      let met := ∀ u, bitOf ((s.tile n).xreg (fld w 15 5)) (unitCode u) = true → ((s.tile n).unit u).issued ≤ ((s.tile n).unit u).done
      (met → summary (s.tile n) (t.tile n) ((s.tile n).xreg (fld w 15 5)) (fld w 7 5)) ∧
        (¬met → (t.tile n).core.mode = .stalled ∧ (t.tile n).units = (s.tile n).units ∧
          (t.tile n).core.pc = (s.tile n).core.pc)) ∧
  ∀ (s : State) (n : Site) (targets : List (Nat × Nat)) (mask : Word) (rd : Nat), s.inReset = false → s.powered n = true →
    (s.tile n).core.bk = .waitu targets mask rd → (∀ e ∈ targets, ∀ u, e.1 = unitCode u → e.2 ≤ ((s.tile n).unit u).done) →
    Completes (.waituRetire n) s fun t => s.onlyTile t n ∧ summary (s.tile n) (t.tile n) mask rd)

/-! ## The command units -/

/-- The oldest command in progress of a unit, once its work has ended, completes with the status of R206, in issue order: the unit's
count of completed commands, the kept status word and the error summary take it (R204, R205, R206, R208); one that a sequencer issued
ends its firing instead, and MALFORMED halts the sequencer (R272, R273); while its work has not ended nothing changes. A command with a
reserved OP completes MALFORMED. A command that is malformed, here by its VER or by a fence mask above bit 4, is rejected when it
reaches the head of its queue: its unit's MALFORMED flag is set, it waits to complete MALFORMED, and it has no other effect (R203,
R210). At a site whose compute section has no power none of these commands changes anything (R25). That a row changes nothing where the
state rules its event out is the model's choice (assumption 1). -/
def Obligations.UnitCommandsCompleteOrAreRejected : Prop :=
  (let code := fun (r : Run) =>
    if r.malformed then 1 else if r.aborted then 4 else if r.refused then 5 else if r.conflict then 3 else if r.dataerr then 2 else 0
  let finished := fun (a b : UnitSt) (st v : Nat) =>
    b.done = a.done + 1 ∧ b.kept.getLast? = some (a.done + 1, at32 st 28 ||| at32 v 0) ∧ b.issued = a.issued ∧
      b.errSum = (a.errSum || st != 0)
  (∀ (s : State) (n : Site) (u : UnitC) (r : Run) (rest : List Run) (f : List (Nat × Nat)) (x : Bool), s.inReset = false →
    s.powered n = true → ((s.tile n).unit u).running = r :: rest → r.cmd.src = .core f x → (s.tile n).runDone u r = true →
    Completes (.unitCommandComplete n u) s fun t => s.onlyTile t n ∧
      finished ((s.tile n).unit u) ((t.tile n).unit u) (code r) r.value.toNat ∧ ((t.tile n).unit u).running = rest ∧
      ((t.tile n).unit u).queue = ((s.tile n).unit u).queue ∧ (∀ v, v ≠ u → (t.tile n).unit v = (s.tile n).unit v) ∧
      t.tile n = { s.tile n with units := (t.tile n).units, errCounts := (t.tile n).errCounts, regs := (t.tile n).regs } ∧
      (r.refused = false → (t.tile n).regs = (s.tile n).regs)) ∧
  (∀ (s : State) (n : Site) (u : UnitC) (r : Run) (rest : List Run) (id : Nat), s.inReset = false → s.powered n = true →
    ((s.tile n).unit u).running = r :: rest → r.cmd.src = .seq id → (s.tile n).behind (unitCode u) id = false →
    (s.tile n).runDone u r = true →
    Completes (.unitCommandComplete n u) s fun t => s.onlyTile t n ∧
      (t.tile n).unit u = { (s.tile n).unit u with running := rest } ∧ (∀ v, v ≠ u → (t.tile n).unit v = (s.tile n).unit v) ∧
      (∀ f ∈ (t.tile n).firings, f.id ≠ id) ∧ (t.tile n).core = (s.tile n).core ∧ (t.tile n).sp.mem = (s.tile n).sp.mem ∧
      (t.tile n).trf = (s.tile n).trf ∧ (t.tile n).mu = (s.tile n).mu ∧ (t.tile n).la = (s.tile n).la ∧
      (r.malformed = true → (∃ f ∈ (s.tile n).firings, f.id = id) →
        ((t.tile n).seq (unitCode u)).halted = true ∧ ((t.tile n).seq (unitCode u)).run = false ∧
          bitOf ((t.tile n).reg Reg.TC_WV_ERR) 2 = true)) ∧
  (∀ (s : State) (n : Site) (u : UnitC) (r : Run) (rest : List Run), s.inReset = false → s.powered n = true →
    ((s.tile n).unit u).running = r :: rest → (s.tile n).runDone u r = false →
    Completes (.unitCommandComplete n u) s fun t => s.onlyTile t n ∧ t.tile n = s.tile n) ∧
  (∀ (s : State) (n : Site) (u : UnitC) (c : Cmd) (rest : List Cmd) (f : List (Nat × Nat)) (x : Bool), s.inReset = false →
    s.powered n = true → ((s.tile n).unit u).running = [] → ((s.tile n).unit u).queue = c :: rest → c.src = .core f x → u ≠ .vc →
    (c.op = 0 ∨ (if u = .mu then 3 else if u = .sh then 6 else 4) < c.op) →
    Completes (.unitCommandComplete n u) s fun t => s.onlyTile t n ∧
      finished ((s.tile n).unit u) ((t.tile n).unit u) 1 0 ∧ ((t.tile n).unit u).queue = rest ∧
      bitOf ((t.tile n).reg (errReg u)) 0 = true ∧ (t.tile n).sp = (s.tile n).sp ∧ (t.tile n).trf = (s.tile n).trf)) ∧
  (∀ (s : State) (n : Site) (ph : Phys) (c : Cmd) (e : Instr) (u : UnitC) (op : Nat), s.inReset = false → s.powered n = true →
    (e, u, op) ∈ [(Instr.mm n ph, UnitC.mu, 1), (.mmw n ph, .mu, 2), (.diag n ph, .mu, 3), (.zero n, .la, 1), (.preload n ph, .la, 2),
      (.drain n ph, .la, 3), (.exportRows n ph, .la, 4), (.fill n ph, .sp, 1), (.poke n ph, .sp, 2), (.scrub n ph, .sp, 3),
      (.spadv n, .sp, 4), (.put n ph, .sh, 1), (.get n ph, .sh, 2), (.skew n ph, .sh, 3), (.gather n ph, .sh, 4),
      (.expfwd n ph, .sh, 5), (.split n ph, .sh, 6)] →
    ((s.tile n).unit u).queue.head? = some c → c.op = op → c.verOk = false ∨ c.badFence = true →
    Completes e s fun t => s.onlyTile t n ∧ bitOf ((t.tile n).reg (errReg u)) 0 = true ∧
      ((t.tile n).unit u).queue = ((s.tile n).unit u).queue.drop 1 ∧
      (∃ r, ((t.tile n).unit u).running = ((s.tile n).unit u).running ++ [r] ∧ r.cmd = c ∧ r.malformed = true) ∧
      (t.tile n).sp = (s.tile n).sp ∧ (t.tile n).la = (s.tile n).la ∧ (t.tile n).trf = (s.tile n).trf ∧
      (t.tile n).mu.active = (s.tile n).mu.active ∧ (t.tile n).mu.edges = (s.tile n).mu.edges ∧ (t.tile n).sh = (s.tile n).sh ∧
      (t.tile n).outq = (s.tile n).outq ∧ bitOf ((t.tile n).reg Reg.TC_EVT) 0 = true ∧
      ∀ o, o ≠ errReg u → o ≠ Reg.TC_EVT → (t.tile n).reg o = (s.tile n).reg o) ∧
  (∀ (s : State) (n : Site) (ph : Phys) (u : UnitC) (ecc : Option EccKind) (e : Instr), s.inReset = false → s.powered n = false →
    e ∈ [.unitCommandComplete n u, Instr.mm n ph, .mmw n ph, .diag n ph, .edgeWordAdd n ecc, .zero n, .preload n ph, .drain n ph,
      .exportRows n ph, .vcOperation n ph, .trfYieldCycle n, .sfFieldsApply n, .fill n ph, .poke n ph, .scrub n ph, .spadv n,
      .eccWriteback n, .patrolScrub n ph, .put n ph, .get n ph, .skew n ph, .gather n ph, .expfwd n ph, .split n ph, .expfwdRow n ph] →
    Completes e s fun t => t = s)

/-- MM, MMW and DIAG at the head of the MU's queue, well formed, with the LA buffer in the fill state (R121) and a row of the register port
left for one that reads it (R139), start: their edge words, one for each fed
row and column (BF16: for each depth, too; in the modes of DIAG that sum, one for each row), join those presented; MM and MMW bring
FMT_W's weights unless KEEPW keeps them. Scratchpad bytes, tile registers, LA elements and the core stay (R74 to R102). DIAG of BF16
operands in tile registers, with DMODE 0 and no fault of the array: the word for row i and column j carries the exact product of the two
entries, in element 32 * (LROW + i) + j (R80, R100, R101). -/
def Obligations.MatrixCommandsPresentEdgeWords : Prop :=
  (∀ (s : State) (n : Site) (ph : Phys) (c : Cmd), s.inReset = false → s.powered n = true → (s.tile n).muReady (s.cycleOf n) c = true →
    let fed := ((List.range (muM c)).filter fun i => bitOf (c.w 4) i).length
    let starts := fun (op : Nat) => (s.tile n).starts .mu op (s.tile n).muMalformed c
    let presents := fun (b : Tile) (k : Nat) =>
      (s.tile n).started b .mu c ∧ (∃ es, b.mu.edges = (s.tile n).mu.edges ++ es ∧ es.length = k ∧
        ∀ e ∈ es, e.cmd = c.stamp ∧ e.buf = bitOf (c.w 3) 19) ∧
        b.sp.mem = (s.tile n).sp.mem ∧ b.la.elems = (s.tile n).la.elems ∧ b.la.weight = (s.tile n).la.weight ∧
        b.trf = (s.tile n).trf ∧ b.core = (s.tile n).core ∧ b.groups = (s.tile n).groups ∧
        ∀ v, v ≠ .mu → (b.unit v).queue = ((s.tile n).unit v).queue
    let perCol := if muFa c = 2 then muKlen c else if muKlen c = 0 then 0 else 1
    let weights := fun (b : Tile) =>
      if muKeepw c = true then b.mu.active = (s.tile n).mu.active
      else ∃ w, b.mu.active = some w ∧ w.fmt.toNat = muFw c
    (starts 1 → Completes (.mm n ph) s fun t => s.onlyTile t n ∧ presents (t.tile n) (fed * muNlen c * perCol) ∧
      weights (t.tile n) ∧ (t.tile n).mu.prev.isSome = true) ∧
    (starts 2 → Completes (.mmw n ph) s fun t => s.onlyTile t n ∧ presents (t.tile n) (fed * muNlen c * perCol) ∧
      weights (t.tile n) ∧ (t.tile n).mu.prev = none) ∧
    (starts 3 → Completes (.diag n ph) s fun t => s.onlyTile t n ∧
      presents (t.tile n) (fed * (if muFa c ≠ 2 ∧ 2 ≤ muDmode c then 1 else muNlen c)) ∧
      (t.tile n).mu.active = (s.tile n).mu.active ∧ (t.tile n).mu.prev = none)) ∧
  (∀ (s : State) (n : Site) (c : Cmd) (i j : Nat) (m x k y : Int), s.inReset = false → s.powered n = true →
    (s.tile n).muReady (s.cycleOf n) c = true → (s.tile n).starts .mu 3 (s.tile n).muMalformed c → muFa c = 2 → muFw c = 2 → muAsrc c = true → muWsrc c = true →
    muDmode c = 0 → muBrep c = false → i < muM c → j < muNlen c → bitOf (c.w 4) i = true →
    decodeElem 2 (((s.tile n).trfGet (muAaddr c) (muI0 c + i) j).toNat % 2 ^ 16) = .fin m x →
    decodeElem 2 (((s.tile n).trfGet (muWaddr c) i j).toNat % 2 ^ 16) = .fin k y →
    Completes (.diag n { : Phys }) s fun t =>
      ∃ e ∈ (t.tile n).mu.edges, e.cmd = c.stamp ∧ e.elem = 32 * (muLrow c + i) + j ∧ e.tag = 0 ∧ e.poison = false ∧
        e.sum = m * k ∧ e.lsb = x + y)

/-- An edge word is added exactly: the element's value grows by SUM * 2^LSBEXP in 640-bit two's complement, in units of 2^-300, pending
carries counted; TAG and POISON combine; the row's weight count grows; every other element stays (R109 to R114). -/
def Obligations.EdgeWordsAddExactly : Prop :=
  ∀ (s : State) (n : Site) (w : EdgeWord) (ws : List EdgeWord), s.inReset = false → s.powered n = true →
    (s.tile n).mu.edges = w :: ws → w.elem < 1024 → -300 ≤ w.lsb →
    (∀ e ∈ (s.tile n).la.bad, e.1 / 10 ≠ laKey w.buf w.elem) →
    Map.get noWeight (s.tile n).la.weight (laRowKey w.buf (w.elem / 32)) + 32 ≤ 2 ^ 52 →
    Completes (.edgeWordAdd n none) s fun t =>
      let old := (s.tile n).laElem (laKey w.buf w.elem)
      let new := (t.tile n).laElem (laKey w.buf w.elem)
      s.onlyTile t n ∧ (t.tile n).mu.edges = ws ∧
        new.value = sext ((old.value + w.sum * 2 ^ (w.lsb + 300).toNat) % 2 ^ 640).toNat 640 ∧
        new.tag = combineTag old.tag w.tag ∧ new.poison = (old.poison || w.poison) ∧
        Map.get noWeight (t.tile n).la.weight (laRowKey w.buf (w.elem / 32)) =
          Map.get noWeight (s.tile n).la.weight (laRowKey w.buf (w.elem / 32)) + (if w.wt then 32 else 1) ∧
        (∀ k, k ≠ laKey w.buf w.elem → (t.tile n).laElem k = (s.tile n).laElem k) ∧
        t.tile n = { s.tile n with mu := (t.tile n).mu, la := (t.tile n).la }

/-- ZERO, PRELOAD, DRAIN and EXPORT at the head of the LA's queue start where they are well formed, their fence is met, the previous
command has passed its last buffer row, one that holds its buffer has the edge words of earlier MU commands, and the register port has a
row left for one that uses it (R116, R118, R120, R139). ZERO clears the selected rows and no other element; PRELOAD and EXPORT leave
scratchpad bytes and tile registers; DRAIN writes only tile registers, or only the bytes of its plane, and of its scale plane in an MX
format, that belong to the selected rows; EXPORT adds a row behind those of the export queue, and those that wait for room in it, for each
selected row; with KEEP the elements of a drain or export stay (R117 to R131). A value goes through the accumulator
unchanged but for the rounding: PRELOAD SET of a register entry gives its element exactly that value; DRAIN with KEEP to a register gives
each selected entry the code of its element's value rounded to nearest even (R124, R126). -/
def Obligations.AccumulatorCommandsKeepExactValues : Prop :=
  (∀ (s : State) (n : Site) (c : Cmd), s.inReset = false → s.powered n = true → (s.tile n).laReady (s.cycleOf n) c = true →
    (s.tile n).starts .la 1 laMalformed c →
    Completes (.zero n) s fun t => s.onlyTile t n ∧ (s.tile n).laStarted (t.tile n) c ∧
      (∀ k, laSelects c k → (t.tile n).laElem k = LaElem.zero) ∧
      (∀ k, ¬laSelects c k → (t.tile n).laElem k = (s.tile n).laElem k) ∧
      (t.tile n).sp = (s.tile n).sp ∧ (t.tile n).trf = (s.tile n).trf) ∧
  (∀ (s : State) (n : Site) (ph : Phys) (c : Cmd), s.inReset = false → s.powered n = true → (s.tile n).laReady (s.cycleOf n) c = true →
    (s.tile n).starts .la 2 laMalformed c →
    Completes (.preload n ph) s fun t => s.onlyTile t n ∧ (s.tile n).laStarted (t.tile n) c ∧
      (t.tile n).sp.mem = (s.tile n).sp.mem ∧ (t.tile n).trf = (s.tile n).trf) ∧
  (∀ (s : State) (n : Site) (ph : Phys) (c : Cmd), s.inReset = false → s.powered n = true → (s.tile n).laReady (s.cycleOf n) c = true →
    (s.tile n).starts .la 3 laMalformed c →
    Completes (.drain n ph) s fun t => s.onlyTile t n ∧ (s.tile n).laStarted (t.tile n) c ∧
      (if laLoc c = true then (t.tile n).sp.mem = (s.tile n).sp.mem else (t.tile n).trf = (s.tile n).trf) ∧
      (laKeep c = true → ∀ k, ((t.tile n).laElem k).limbs = ((s.tile n).laElem k).limbs) ∧
      ∀ row i, i < 512 →
        (∀ k ∈ laRows c, 512 * row + i < 512 * laAddr c + blockBytes (laFmt c) * (laBoff c + k) ∨
          512 * laAddr c + blockBytes (laFmt c) * (laBoff c + k + 1) ≤ 512 * row + i) →
        (fmtMx (laFmt c) = true → ∀ k ∈ laRows c, 512 * row + i ≠ 512 * laScl c + laBoff c + k) →
        (t.tile n).spByte row i = (s.tile n).spByte row i) ∧
  (∀ (s : State) (n : Site) (ph : Phys) (c : Cmd), s.inReset = false → s.powered n = true → (s.tile n).laReady (s.cycleOf n) c = true →
    (s.tile n).starts .la 4 laMalformed c →
    Completes (.exportRows n ph) s fun t => s.onlyTile t n ∧ (s.tile n).laStarted (t.tile n) c ∧
      (t.tile n).sp.mem = (s.tile n).sp.mem ∧ (t.tile n).trf = (s.tile n).trf ∧
      (∃ rows, rows.length = (laRows c).length ∧
        (t.tile n).la.exports ++ (t.tile n).la.late = (s.tile n).la.exports ++ (s.tile n).la.late ++ rows) ∧
      (laKeep c = true → ∀ k, ((t.tile n).laElem k).limbs = ((s.tile n).laElem k).limbs)) ∧
  (∀ (s : State) (n : Site) (c : Cmd) (r col : Nat) (m e : Int), s.inReset = false → s.powered n = true →
    (s.tile n).laReady (s.cycleOf n) c = true → (s.tile n).starts .la 2 laMalformed c → laLoc c = true → laMode c = false → r < laNrow c →
    bitOf (c.w 3) r = true → col < 32 →
    (s.tile n).trfVal (laFmt c) (laAddr c) (laRegRow c (laRow0 c + r)) col = .fin m e → -300 ≤ e →
    Completes (.preload n { : Phys }) s fun t => s.onlyTile t n ∧
      let x := (t.tile n).laElem (laKey (laBuf c) (32 * (laRow0 c + r) + col))
      x.tag = 0 ∧ x.poison = false ∧ x.value = sext (m * 2 ^ (e + 300).toNat % 2 ^ 640).toNat 640) ∧
  ∀ (s : State) (n : Site) (c : Cmd) (r col : Nat), s.inReset = false → s.powered n = true → (s.tile n).laReady (s.cycleOf n) c = true →
    (s.tile n).starts .la 3 laMalformed c → laLoc c = true → laKeep c = true → laFop c = 0 → laRnd c = 0 → r < laNrow c →
    bitOf (c.w 3) r = true → col < 32 → (s.tile n).la.bad = [] →
    Completes (.drain n { : Phys }) s fun t => s.onlyTile t n ∧
      let x := (s.tile n).laElem (laKey (laBuf c) (32 * (laRow0 c + r) + col))
      (t.tile n).trfGet (laAddr c) (laRegRow c (laRow0 c + r)) col =
        BitVec.ofNat 32 (encodeElem (laFmt c) none (if x.poison then .nan else x.val)).code

/-- A well-formed vector operation at the head of the VC's queue, its fence met and none of the rows that it reads still to be written by an
earlier operation (R159), starts; it changes scratchpad bytes only in the rows of its output, tile registers only in the register rows of
its output, and no element, queue or configuration (R141 to R162). A yield cycle of the register ports, due once the MU or the LA has been
refused at them for 16 cycles, starts those counts again; where the VC uses a port in it, the VC's uses of the ports from it on come one
tile cycle later; it changes nothing else (R139). The held SF fields take effect once no operation uses the old ones (R181). -/
def Obligations.VectorOperationsStartAndWriteTheirOutput : Prop :=
  (∀ (s : State) (n : Site) (ph : Phys) (c : Cmd), s.inReset = false → s.powered n = true →
    ((s.tile n).unit .vc).queue.head? = some c →
    c.badFence = false → (s.tile n).vcMalformed c = false → (s.tile n).fenceMet c = true → (s.tile n).vcReady c = true →
    Completes (.vcOperation n ph) s fun t => s.onlyTile t n ∧ (s.tile n).started (t.tile n) .vc c ∧
      (t.tile n).mu = (s.tile n).mu ∧ (t.tile n).la.elems = (s.tile n).la.elems ∧ (t.tile n).core = (s.tile n).core ∧
      (t.tile n).groups = (s.tile n).groups ∧ (t.tile n).sh = (s.tile n).sh ∧
      (∀ v, v ≠ .vc → ((t.tile n).unit v).queue = ((s.tile n).unit v).queue) ∧
      if (vcOut c).loc = 1 then (t.tile n).sp.mem = (s.tile n).sp.mem ∧
        ∀ k r col, r < 32 → col < 32 → 4096 + 32 * k + r ∉ vcWrites c → (t.tile n).trfGet k r col = (s.tile n).trfGet k r col
      else (t.tile n).trf = (s.tile n).trf ∧
        ∀ row i, row ∉ vcWrites c → i < 512 → (t.tile n).spByte row i = (s.tile n).spByte row i) ∧
  (∀ (s : State) (n : Site), s.inReset = false → s.powered n = true →
    (s.tile n).trfRefused.1 = 16 ∨ (s.tile n).trfRefused.2 = 16 →
    let now := s.cycleOf n
    let later := fun u : Nat × Nat × Nat => if (s.tile n).vcRows now = (0, 0) ∨ u.1 < now then u else (u.1 + 1, u.2)
    Completes (.trfYieldCycle n) s fun t => s.onlyTile t n ∧
      t.tile n = { (s.tile n).onUnit .vc fun x => { x with running := x.running.map fun r => { r with trf := r.trf.map later } } with
                   trfRefused := (0, 0) }) ∧
  ∀ (s : State) (n : Site), s.inReset = false → s.powered n = true → (s.tile n).sfHeld.isSome = true → (s.tile n).sfOldRunning = false →
    Completes (.sfFieldsApply n) s fun t => s.onlyTile t n ∧ (t.tile n).sfHeld = none ∧
      (t.tile n).sfGen = (s.tile n).sfGen + 1 ∧ (∀ o, o ≠ Reg.SF_UPSTAT → (t.tile n).reg o = (s.tile n).reg o) ∧
      t.tile n = { s.tile n with sfHeld := none, sfGen := (t.tile n).sfGen, regs := (t.tile n).regs }

/-- FILL, SCRUB and POKE write the bytes they name and no others, row by row at once, from the first row on whose bank is gated or
waking by held writes; a whole row written is no longer poisoned (R214, R227, R239, R251). SPADV moves the head of a spool over rows
that it holds, or its tail over rows that it has room for, or is refused with SP_ERR.SPOOL; the write-back of a corrected word clears
its error and no byte; the patrol checks a row and goes on to the next (R238, R240, R243). -/
def Obligations.ScratchpadCommandsWriteTheirRows : Prop :=
  (let fills := fun (a b : Tile) (c : Cmd) (v : Word) =>
    a.started b .sp c ∧ b.trf = a.trf ∧ b.la.elems = a.la.elems ∧ b.core = a.core ∧
      ∀ row i, i < 512 →
        let named := spRow c ≤ row ∧ row ≤ spRow c + spArg c
        let served := a.holdsEng 4 = false ∧ ∀ q, spRow c ≤ q → q ≤ row → a.inService q = true
        (named → served → b.spByte row i = BitVec.ofNat 8 (v.toNat / 2 ^ (8 * (i % 4))) ∧ b.rowPoison row = false) ∧
        (named → ¬served → b.spByte row i = a.spByte row i ∧
          ∃ h ∈ b.sp.held, h.eng = 4 ∧ h.row = row ∧ h.off = 0 ∧ h.data.length = 512) ∧
        (¬named → b.spByte row i = a.spByte row i ∧ b.rowPoison row = a.rowPoison row)
  (∀ (s : State) (n : Site) (ph : Phys) (c : Cmd), s.inReset = false → s.powered n = true → (s.tile n).starts .sp 1 spMalformed c →
    Completes (.fill n ph) s fun t => s.onlyTile t n ∧ fills (s.tile n) (t.tile n) c (c.w 1)) ∧
  (∀ (s : State) (n : Site) (ph : Phys) (c : Cmd), s.inReset = false → s.powered n = true → (s.tile n).starts .sp 3 spMalformed c →
    Completes (.scrub n ph) s fun t => s.onlyTile t n ∧ fills (s.tile n) (t.tile n) c 0) ∧
  ∀ (s : State) (n : Site) (ph : Phys) (c : Cmd), s.inReset = false → s.powered n = true → (s.tile n).starts .sp 2 spMalformed c →
    Completes (.poke n ph) s fun t => s.onlyTile t n ∧ (s.tile n).started (t.tile n) .sp c ∧
      (t.tile n).trf = (s.tile n).trf ∧ (t.tile n).la.elems = (s.tile n).la.elems ∧ (t.tile n).core = (s.tile n).core ∧
      ∀ row i, i < 512 →
        let named := row = spRow c ∧ 4 * spArg c ≤ i ∧ i < 4 * spArg c + 4
        (t.tile n).spByte row i =
          (if named ∧ (s.tile n).inService row = true ∧ (s.tile n).holdsEng 4 = false then
            BitVec.ofNat 8 ((c.w 1).toNat / 2 ^ (8 * (i % 4)))
           else (s.tile n).spByte row i)) ∧
  ((∀ (s : State) (n : Site) (c : Cmd), s.inReset = false → s.powered n = true → (s.tile n).starts .sp 4 spMalformed c →
    let k := fld (c.w 1) 27 5
    let cfg := (s.tile n).act 3 (57 + k)
    let size := fld cfg 16 13
    let x := (s.tile n).spool k
    let held := if x.full then size else (x.tail + size - x.head) % size
    let ok := bitOf cfg 31 = true ∧ (if bitOf (c.w 1) 26 = true then spArg c + held + x.rsv ≤ size else spArg c ≤ held)
    Completes (.spadv n) s fun t => s.onlyTile t n ∧ (s.tile n).started (t.tile n) .sp c ∧
      (t.tile n).sp.mem = (s.tile n).sp.mem ∧ (∀ j, j ≠ k → (t.tile n).spool j = (s.tile n).spool j) ∧
      (ok → (t.tile n).regs = (s.tile n).regs ∧
        (if bitOf (c.w 1) 26 = true then ((t.tile n).spool k).tail = (x.tail + spArg c) % size ∧ ((t.tile n).spool k).head = x.head
         else ((t.tile n).spool k).head = (x.head + spArg c) % size ∧ ((t.tile n).spool k).tail = x.tail)) ∧
      (¬ok → (t.tile n).spool k = x ∧ bitOf ((t.tile n).reg Reg.SP_ERR) 4 = true ∧
        ∃ r, ((t.tile n).unit .sp).running.getLast? = some r ∧ r.refused = true)) ∧
  (∀ (s : State) (n : Site) (w : Nat) (ws : List Nat), s.inReset = false → s.powered n = true → (s.tile n).sp.writeback = w :: ws →
    Completes (.eccWriteback n) s fun t => s.onlyTile t n ∧ (t.tile n).sp.writeback = ws ∧ (t.tile n).sp.mem = (s.tile n).sp.mem ∧
      Map.get noBad (t.tile n).sp.bad w ≠ some .ce ∧
      (∀ v, v ≠ w → Map.get noBad (t.tile n).sp.bad v = Map.get noBad (s.tile n).sp.bad v) ∧
      t.tile n = { s.tile n with sp := (t.tile n).sp }) ∧
  ∀ (s : State) (n : Site) (ph : Phys), s.inReset = false → s.powered n = true → bitOf ((s.tile n).reg Reg.SP_CFG) 1 = true →
    (s.tile n).gated (bankOf (s.tile n).sp.patrol.toNat) = false →
    Completes (.patrolScrub n ph) s fun t => s.onlyTile t n ∧ (t.tile n).sp.patrol = (s.tile n).sp.patrol + 1 ∧
      (t.tile n).sp.mem = (s.tile n).sp.mem ∧ (t.tile n).trf = (s.tile n).trf ∧ (t.tile n).core = (s.tile n).core ∧
      (ph = { : Phys } → (s.tile n).sp.bad = [] → (s.tile n).waking' (bankOf (s.tile n).sp.patrol.toNat) = false →
        t.tile n = { s.tile n with sp := { (s.tile n).sp with patrol := (s.tile n).sp.patrol + 1 } }))

/-- Commands that write scratchpad rows keep every tile's memories in canonical form, which the reset state's are in: addresses strictly
rising, and no entry that reads as an unlisted byte does (the model's own form, assumption 4). -/
def Obligations.RowWritesKeepMemoriesCanonical : Prop :=
  let keeps := fun c : Instr => ∀ s t : State, exec c s = .next t → (∀ m, (s.tile m).memoriesWf = true) →
    ∀ m, (t.tile m).memoriesWf = true
  (∀ m, (State.reset.tile m).memoriesWf = true) ∧
    ∀ (n : Site) (ph : Phys) (b : Fin 16) (d : DataRow) (p : PortIx) (h : ReachHdr) (data : List Byte) (poison : Bool),
      keeps (.fill n ph) ∧ keeps (.poke n ph) ∧ keeps (.scrub n ph) ∧ keeps (.dataRowWrite n d ph) ∧ keeps (.bankWakeEnd n b) ∧
        keeps (.rwr n p h data poison) ∧ keeps (.rrd n p h ph)

/-! ## The shuttle -/

/-- A well-formed shuttle command that may start does start (R215 to R221): it reads its rows, and writes no scratchpad byte outside the
local rows that it names, and none at all where its destination is not local; GET asks for its bytes piece by piece and EXPFWD waits for
rows of the export queue. Accumulator elements, tile registers, weights and the core stay. A local PUT of FP32 elements to FP32, all banks
in service and no stored errors: every byte of the destination is the byte that stood at its source when the command started, and every
other byte stays (R216, R217, R221). EXPFWD takes the oldest row of the export queue: the row leaves the queue, and one that waits for
room comes in (R131), the oldest EXPFWD counts it, and with its last row it is no longer waiting for rows (R219). -/
def Obligations.ShuttleCommandsMoveTheirRows : Prop :=
  (∀ (s : State) (n : Site) (ph : Phys) (c : Cmd), s.inReset = false → s.powered n = true → (s.tile n).shReady c = true →
    let starts := fun (op : Nat) => (s.tile n).starts .sh op shMalformed c
    let moves := fun (t : State) => s.onlyTile t n ∧ (s.tile n).started (t.tile n) .sh c ∧
      (t.tile n).la.elems = (s.tile n).la.elems ∧ (t.tile n).mu = (s.tile n).mu ∧ (t.tile n).trf = (s.tile n).trf ∧
      (t.tile n).core = (s.tile n).core ∧ (t.tile n).groups = (s.tile n).groups ∧
      (∀ v, v ≠ .sh → ((t.tile n).unit v).queue = ((s.tile n).unit v).queue) ∧
      ∀ row i, i < 512 → (∀ w ∈ shWrites c, ¬(w.1 ≤ row ∧ row < w.2)) → (t.tile n).spByte row i = (s.tile n).spByte row i
    (starts 1 → Completes (.put n ph) s moves) ∧
    (starts 2 → Completes (.get n ph) s fun t => moves t ∧ (t.tile n).sp.mem = (s.tile n).sp.mem ∧
      (t.tile n).sh.gets.length = (s.tile n).sh.gets.length + 1 ∧
      ∃ g ∈ (t.tile n).sh.gets, g.cmd = c ∧ g.parts = [] ∧ g.left = (shGaddr c % 512 +
        (if shSame c then sameBytes c else elemsBytes (shSfmt c) (shCount c)) + 511) / 512) ∧
    (starts 3 → Completes (.skew n ph) s moves) ∧
    (starts 4 → Completes (.gather n ph) s moves) ∧
    (starts 5 → Completes (.expfwd n ph) s fun t => moves t ∧ (t.tile n).sp.mem = (s.tile n).sp.mem ∧
      (t.tile n).sh.exps.length = (s.tile n).sh.exps.length + 1 ∧
      ∃ r, ((t.tile n).unit .sh).running.getLast? = some r ∧ r.left = shCount c / 32) ∧
    (starts 6 → Completes (.split n ph) s moves)) ∧
  (∀ (s : State) (n : Site) (c : Cmd), s.inReset = false → s.powered n = true → (s.tile n).starts .sh 1 shMalformed c →
    (s.tile n).shReady c = true → shSfmt c = 1 → shDfmt c = 1 → shKind c = 0 → (∀ r, (s.tile n).inService r = true) →
    (s.tile n).sp.held = [] → (s.tile n).sp.bad = [] →
    Completes (.put n { : Phys }) s fun t => s.onlyTile t n ∧
      (∀ i, i < 4 * shCount c → (t.tile n).spByte (shRrow c + i / 512) (i % 512) =
        (s.tile n).spByte (shLrow c + i / 512) (i % 512)) ∧
      ∀ row i, i < 512 → (512 * row + i < 512 * shRrow c ∨ 512 * shRrow c + 4 * shCount c ≤ 512 * row + i) →
        (t.tile n).spByte row i = (s.tile n).spByte row i) ∧
  (∀ (s : State) (n : Site) (ph : Phys) (r : ExpRow) (rs : List ExpRow) (x : ExpSt) (xs : List ExpSt), s.inReset = false →
    s.powered n = true →
    (s.tile n).la.exports = r :: rs → (s.tile n).sh.exps = x :: xs →
    Completes (.expfwdRow n ph) s fun t => s.onlyTile t n ∧
      (t.tile n).la.exports ++ (t.tile n).la.late = rs ++ (s.tile n).la.late ∧
      (t.tile n).la.elems = (s.tile n).la.elems ∧ (t.tile n).mu = (s.tile n).mu ∧ (t.tile n).trf = (s.tile n).trf ∧
      (if x.k + 1 = shCount x.cmd / 32 then (t.tile n).sh.exps = xs
       else ∃ y, (t.tile n).sh.exps = y :: xs ∧ y.k = x.k + 1 ∧ y.cmd = x.cmd) ∧
      ((t.tile n).unit .sh).running.length = ((s.tile n).unit .sh).running.length ∧
      ((t.tile n).unit .sh).queue = ((s.tile n).unit .sh).queue)

/-- The first row of a transfer that no row has named before (R220, R244): refused at a tile that takes no transfers; accepted outside
flow-controlled spools; in one, accepted with its rows reserved exactly where it names the row after the reserved ones and there is room
for all of them, else refused with SP_ERR.SPOOL. A row of an accepted transfer to absolute rows that the weft has brought is written where
it names, in a bank in service, and answered OK; one that finds its bank gated or waking, or its engine held, waits and has no answer yet
(R237, R251); of a refused transfer it is not written and answered REFUSED; a row that came over a warp link is answered over its wires; a
skipped row of a GATHER has no answer (R218, R221, R275, R337). -/
def Obligations.TransfersArriveAtTheirRows : Prop :=
  (∀ (s : State) (n : Site) (y : Transfer), s.inReset = false → (s.tile n).knows y.src y.tag = false →
    let a := s.tile n
    let x := s.named n y
    let noted := fun (b : Tile) (ok : Bool) => b.sp = { a.sp with
      inX := a.sp.inX ++ [{ src := x.src, tag := x.tag, ok := ok, row := x.row.toNat, left := x.n.toNat }] }
    Completes (.incomingTransfer n y) s fun t => s.onlyTile t n ∧
      (if a.takesRows (s.steward.site n.val) = false then noted (t.tile n) false ∧ (t.tile n).regs = a.regs
      else match a.flowSpool x.row.toNat with
        | none => noted (t.tile n) true ∧ (t.tile n).regs = a.regs
        | some k =>
          let size := fld (a.act 3 (57 + k)) 16 13
          let fits := x.row.toNat = fld (a.act 3 (57 + k)) 0 12 + ((a.spool k).tail + (a.spool k).rsv) % size ∧
            x.n.toNat + a.spoolCount k + (a.spool k).rsv ≤ size
          (fits → ((t.tile n).spool k).rsv = (a.spool k).rsv + x.n.toNat ∧
            ((t.tile n).spool k).xfers.length = (a.spool k).xfers.length + 1 ∧ (∀ j, j ≠ k → (t.tile n).spool j = a.spool j) ∧
            (t.tile n).regs = a.regs ∧ (t.tile n).sp.inX = a.sp.inX) ∧
          (¬fits → noted (t.tile n) false ∧ bitOf ((t.tile n).reg Reg.SP_ERR) 4 = true)) ∧
      t.tile n = { a with sp := (t.tile n).sp, regs := (t.tile n).regs }) ∧
  (∀ (s : State) (n : Site) (d : DataRow) (ph : Phys) (e : InRows), s.inReset = false → (s.tile n).spoolOf d = none →
    (s.tile n).sp.inX.find? (fun e => decide (e.src = d.src) && decide (e.tag = d.tag)) = some e →
    d.off.toNat + d.data.length ≤ 512 → s.bankTested n d.row.toNat = false →
    s.mayGet (fun p => !(d ∈ (s.tile n).sp.arrived) && p.dst = .site n && p.body = .data d) = true →
    let taken := e.ok = true ∧ (s.tile n).takesAdmitted (s.steward.site n.val) = true
    let st : BitVec 2 := if taken then 0 else 1
    let waits := taken ∧ d.skip = false ∧ d.data ≠ [] ∧ ¬((s.tile n).inService d.row.toNat = true ∧ (s.tile n).holdsEng 3 = false)
    Completes (.dataRowWrite n d ph) s fun t => t = { s with tiles := t.tiles, net := t.net } ∧ (∀ m, m ≠ n → t.tile m = s.tile m) ∧
      (∀ row i, i < 512 →
        (t.tile n).spByte row i =
          (if taken ∧ d.skip = false ∧ row = d.row.toNat ∧ d.off.toNat ≤ i ∧ i < d.off.toNat + d.data.length ∧ (s.tile n).inService row = true ∧
              (s.tile n).holdsEng 3 = false
           then d.data.getD (i - d.off.toNat) 0 else (s.tile n).spByte row i)) ∧
      (waits → ∃ h ∈ (t.tile n).sp.held, h.row = d.row.toNat ∧ h.data = d.data ∧ h.came = some (d, decide (d ∈ (s.tile n).sp.arrived))) ∧
      (if d.skip = true ∨ waits then (t.tile n).wires = (s.tile n).wires ∧ (t.tile n).outq = (s.tile n).outq
       else if d ∈ (s.tile n).sp.arrived then (d.src, WarpAck.row n d.row st) ∈ (t.tile n).wires
       else ∃ p ∈ (t.tile n).outq, p.dst = .site d.src ∧ p.cls = 0 ∧ p.body = .ack d.row st) ∧
      (t.tile n).la.elems = (s.tile n).la.elems ∧ (t.tile n).trf = (s.tile n).trf ∧ (t.tile n).core = (s.tile n).core)

/-- An acknowledgement, over the weft or the wires of a warp link, counts its row toward the oldest command that waits for it, as accepted
or refused (R205, R275, R337). A warp word goes to the tile whose register latches it, or on from the fifth pass register, behind those
that wait there (R277, R278), but a token waits while a slice tests the tile's sequencers (R496); a returned credit of a warp link refills
its port. That a word with registers still to pass is not held, and nothing changes, is the model's choice (assumption 1). -/
def Obligations.AcknowledgementsAndWarpWordsArrive : Prop :=
  let counted := fun (a b : Tile) (src : Site) (row : Nat) (ok : Bool) =>
    ∀ (r : Run) (rest : List Run), (a.unit .sh).running = r :: rest → (src.val, row) ∈ r.acks →
      (b.unit .sh).running = { r with left := r.left - 1, acks := r.acks.erase (src.val, row), refused := r.refused || !ok } :: rest ∧
        (b.unit .sh).queue = (a.unit .sh).queue ∧ b.sp = a.sp ∧ b.la = a.la ∧ b.outq = a.outq
  (∀ (s : State) (n src : Site) (row : BitVec 12) (st : BitVec 2), s.inReset = false → st.toNat < 2 →
    s.mayGet (fun p => p.dst = .site n && p.src = .tile src && p.body = .ack row st) = true →
    Completes (.ack n src row st) s fun t => t = { s with tiles := t.tiles, net := t.net } ∧ (∀ m, m ≠ n → t.tile m = s.tile m) ∧
      counted (s.tile n) (t.tile n) src row.toNat (st == 0)) ∧
  (∀ (s : State) (n src : Site) (row : BitVec 12) (st : BitVec 2), s.inReset = false → st.toNat < 2 →
    Completes (.warpAck n (.row src row st)) s fun t => t = { s with tiles := t.tiles } ∧
      (∀ m, m ≠ n → m ≠ src → t.tile m = s.tile m) ∧ counted (s.tile n) (t.tile n) src row.toNat (st == 0)) ∧
  (∀ (s : State) (n src : Site) (u : BitVec 4) (p : BitVec 2) (gen : Nat), s.inReset = false → n ≠ src →
    gen = ((s.tile n).portSt u.toNat p.toNat).gen →
    Completes (.warpAck n (.credit src u p gen)) s fun t => t = { s with tiles := t.tiles } ∧
      (∀ m, m ≠ n → m ≠ src → t.tile m = s.tile m) ∧
      ((t.tile n).portSt u.toNat p.toNat).credits =
        min (((s.tile n).portSt u.toNat p.toNat).credits + 1) ((s.tile n).portCredits u.toNat p.toNat)) ∧
  ∀ (s : State) (n m : Site) (w : WarpWord) (left : Nat), s.inReset = false → s.wordFrom w 5 n = some (m, left) →
    s.steward.site n.val ≠ 0 → n ≠ m →
    Completes (.warpWordHold n w) s fun t => t = { s with tiles := t.tiles } ∧ (∀ k, k ≠ n → k ≠ m → t.tile k = s.tile k) ∧
      (if bitOf ((s.tile n).passBits n.val) (passBit w.side.toNat) = false then
        match w.body with
        | .data d => t.tile m = (s.tile m).warpSent m w ∧
            t.tile n = { s.tile n with sp := { (s.tile n).sp with arrived := (s.tile n).sp.arrived ++ [d] } }
        | .token u q tok src =>
            if s.seqTested n = true then t = s
            else t.tile m = (s.tile m).warpSent m w ∧ t.tile n = (s.tile n).tokenArrive n u.toNat q.toNat tok src
      else if left = 0 then t.tile m = (s.tile m).warpSent m w ∧ t.tile n = { s.tile n with warpq := (s.tile n).warpq ++ [w] }
      else t = s)

/-! ## The weave: tokens, sequencers, steering -/

/-- A token that the weft or the loom has brought to an existing queue of a unit that takes tokens is queued behind the others while
fewer than 16 wait; else it is dropped: OVERRUN or BADTOK is flagged, the drop counted, and no queue changes. A hemmed tile only counts
it (R262, R462). A returned credit is added, up to CREDITS, at the port's present destination, and discarded where it belongs to an
earlier one (R265); a head token that R312 drops leaves its queue, is flagged and counted. -/
def Obligations.TokensAndCreditsMoveThroughQueues : Prop :=
  (∀ (s : State) (n : Site) (u : BitVec 4) (q : BitVec 3) (tok : BitVec 64) (src : TokSrc), s.inReset = false →
    s.powered n = true → s.seqTested n = false → s.mayGet (fun p => p.dst = .site n && p.body = .token u q tok src) = true →
    let a := s.tile n
    let dropped := fun (b : Tile) => b.queues = a.queues ∧ b.reg Reg.TC_WVDROP_COUNT = satAdd (a.reg Reg.TC_WVDROP_COUNT) 1 ∧
      ∀ o, o ≠ Reg.TC_WV_ERR → o ≠ Reg.TC_WVDROP_COUNT → b.reg o = a.reg o
    let good := queueOk u.toNat q.toNat = true ∧ 1 ≤ fld tok 56 4 ∧ fld tok 56 4 ≤ 3 ∧ a.takesTokens u.toNat = true ∧
      (a.group (groupOfUnit u.toNat)).patbad = false
    Completes (.tokenArrive n u q tok src) s fun t => t = { s with tiles := t.tiles, net := t.net } ∧
      (∀ m, m ≠ n → t.tile m = s.tile m) ∧
      (a.hemmed = true → dropped (t.tile n) ∧ (t.tile n).reg Reg.TC_WV_ERR = a.reg Reg.TC_WV_ERR) ∧
      (a.hemmed = false → good → (a.queue u.toNat q.toNat).depth < 16 →
        ((t.tile n).queue u.toNat q.toNat).toks = (a.queue u.toNat q.toNat).toks ++ [⟨tok, src⟩] ∧
        t.tile n = { a with queues := (t.tile n).queues }) ∧
      (a.hemmed = false → good → 16 ≤ (a.queue u.toNat q.toNat).depth →
        dropped (t.tile n) ∧ bitOf ((t.tile n).reg Reg.TC_WV_ERR) 0 = true) ∧
      (a.hemmed = false → fld tok 56 4 ≠ 4 → ¬good → dropped (t.tile n) ∧ bitOf ((t.tile n).reg Reg.TC_WV_ERR) 1 = true)) ∧
  ((∀ (s : State) (n : Site) (u : BitVec 4) (p : BitVec 2) (k : BitVec 5) (gen : Nat), s.inReset = false → s.powered n = true →
    s.mayGet (fun y => y.dst = .site n && y.body = .credit u p k gen) = true →
    let x := (s.tile n).portSt u.toNat p.toNat
    Completes (.creditArrive n u p k gen) s fun t => t = { s with tiles := t.tiles, net := t.net } ∧
      (∀ m, m ≠ n → t.tile m = s.tile m) ∧ t.tile n = { s.tile n with ports := (t.tile n).ports } ∧
      (t.tile n).portSt u.toNat p.toNat =
        (if gen = x.gen then { x with credits := min (x.credits + k.toNat) ((s.tile n).portCredits u.toNat p.toNat)
                                      outstanding := x.outstanding - k.toNat }
         else x)) ∧
  ∀ (s : State) (n : Site) (u : BitVec 4) (q : BitVec 3) (e : QTok) (es : List QTok), s.inReset = false → s.powered n = true →
    (s.tile n).queue u.toNat q.toNat = { spills := [], back := [], toks := e :: es } →
    (s.tile n).headFate u.toNat q.toNat = .drop ∨ (s.tile n).headFate u.toNat q.toNat = .dropMix →
    Completes (.headTokenDrop n u q) s fun t => s.onlyTile t n ∧
      (t.tile n).queue u.toNat q.toNat = { spills := [], back := [], toks := es } ∧
      bitOf ((t.tile n).reg Reg.TC_EP_ERR) 0 = true ∧
      (t.tile n).reg Reg.TC_EPDROP_COUNT = satAdd ((s.tile n).reg Reg.TC_EPDROP_COUNT) 1 ∧
      ((s.tile n).headFate u.toNat q.toNat = .dropMix → bitOf ((t.tile n).reg Reg.TC_EP_ERR) 3 = true) ∧
      (t.tile n).units = (s.tile n).units ∧ (t.tile n).sp = (s.tile n).sp)

/-- A sequencer that may fire does (R268 to R272, R448): each needed queue loses its head token, the counters go on, the firing is
recorded; with no poisoned token its command, the template where no generator is enabled, joins the unit's queue, and with one no command
is issued and an error of class 1 is counted if the tile is claimed. A dropped firing at the head of its unit's firings ends: it leaves
the firings in flight, and on each of its ports that leads into the weft it emits a poisoned token (R267, R448). -/
def Obligations.SequencersFireOrEmitPoison : Prop :=
  (∀ (s : State) (n : Site) (uc : UnitC), s.inReset = false → s.powered n = true → (s.tile n).canFire uc = true →
    (∀ q, ((s.tile n).queue (unitCode uc) q).spills = [] ∧ ((s.tile n).queue (unitCode uc) q).back = []) →
    let a := s.tile n
    let u := unitCode uc
    let lim := a.act u 1
    let old := a.seq u
    let bad := (∃ h ∈ a.helds, h.unit = u ∧ h.cur = true ∧ h.queue ∉ a.needed u ∧ tokPoison h.tok = true) ∨
      ∃ q ∈ a.needed u, ∃ tok, (a.queue u q).head = some tok ∧ tokPoison tok = true
    Completes (.seqFire n uc) s fun t => s.onlyTile t n ∧ (t.tile n).prog = true ∧
      (t.tile n).firings.length = a.firings.length + 1 ∧ (t.tile n).nextFiring = a.nextFiring + (a.needed u).length + 1 ∧
      (∀ q, q < 8 → ((t.tile n).queue u q).toks = if q ∈ a.needed u then (a.queue u q).toks.drop 1 else (a.queue u q).toks) ∧
      (bad → ((t.tile n).unit uc).queue = (a.unit uc).queue ∧
        (t.tile n).errCounts = if bitOf (a.reg Reg.TC_STREAM) 31 then a.errCounts.modify 1 (· + 1) else a.errCounts) ∧
      (¬bad → (t.tile n).errCounts = a.errCounts ∧ ∃ c, ((t.tile n).unit uc).queue = (a.unit uc).queue ++ [c] ∧
        ((∀ k, k < 8 → bitOf (a.act u (18 + k)) 31 = false) →
          c.words = (List.range (cmdLen u (a.act u 4))).map fun k => a.act u (4 + k))) ∧
      (old.c0 < fld lim 0 8 → (t.tile n).seq u = { old with c0 := old.c0 + 1, fired := true }) ∧
      (old.c0 = fld lim 0 8 → old.c1 < fld lim 8 8 → (t.tile n).seq u = { old with c0 := 0, c1 := old.c1 + 1, fired := true }) ∧
      (old.c0 = fld lim 0 8 → old.c1 = fld lim 8 8 → old.c2 = fld lim 16 8 → old.c3 = fld lim 24 8 →
        (t.tile n).seq u = { old with c0 := 0, c1 := 0, c2 := 0, c3 := 0, fired := false,
                                      run := bitOf (a.act u 0) 30 && !a.waitsRunEnd (groupOfUnit u) }) ∧
      (t.tile n).sp = a.sp ∧ (t.tile n).la = a.la ∧ (t.tile n).trf = a.trf ∧ (t.tile n).groups = a.groups) ∧
  (∀ (s : State) (n : Site) (u : BitVec 4) (f : Firing), s.inReset = false → s.powered n = true → (s.tile n).hemmed = false →
    (s.tile n).firings.find? (fun g => decide (g.unit = u.toNat)) = some f → f.unit = u.toNat → f.dropped = true →
    Completes (.droppedFiringEmit n u) s fun t => s.onlyTile t n ∧
      (∀ g ∈ (t.tile n).firings, g.id ≠ f.id) ∧ (∀ g ∈ (s.tile n).firings, g.id ≠ f.id → g ∈ (t.tile n).firings) ∧
      ∀ m ∈ f.emits, ∀ d : Site, 2 ≤ fld ((s.tile n).dstWord u.toNat m.port) 30 2 →
        siteAt (fld ((s.tile n).dstWord u.toNat m.port) 22 6) (fld ((s.tile n).dstWord u.toNat m.port) 16 6) = some d →
        ∃ p ∈ (t.tile n).outq, p.dst = .site d ∧ p.cls = 1 ∧
          ∃ x y tok src, p.body = .token x y tok src ∧ bitOf tok 55 = true ∧ fld tok 56 4 = m.kind.toNat ∧
            fld tok 60 4 = m.epoch.toNat)

/-- A steering unit that may fire, its ports leading into the weft (R280 to R282): in PAIR mode it takes the control token and every
data token, in MERGE mode the control token and the one it selects; the selected token goes out on port 0 with the group's epoch,
poisoned if a token that the firing takes or the selection is bad; a bad selection is flagged, and a poisoned token raises a DATA error of
a claimed tile (R448). NIN 0x0 is reserved (R291), and a unit that holds it does not fire (R14). -/
def Obligations.SteeringUnitsForwardTheSelectedToken : Prop :=
  (∀ (s : State) (n : Site) (k : Fin 4), s.inReset = false → fld ((s.tile n).act 5 k.val) 28 2 = 0 →
    let still := fun t : State => s.onlyTile t n ∧ t.tile n = s.tile n
    Completes (.steerPairFire n k) s still ∧ Completes (.steerMergeFire n k) s still) ∧
  ∀ (s : State) (n : Site) (k : Fin 4) (ctl tok : BitVec 64) (d : Site), s.inReset = false → s.powered n = true →
    (s.tile n).mayFire = true →
    let a := s.tile n
    let u := 8 + k.val
    let cfg := a.act 5 k.val
    let nin := fld cfg 28 2
    let sel := (selection ctl nin).1
    let bad := (selection ctl nin).2
    nin ≠ 0 → bitOf cfg 31 = true → (∀ q, (a.queue u q).spills = [] ∧ (a.queue u q).back = []) → (a.queue u 0).head = some ctl →
    (a.queue u (sel + 1)).head = some tok → 0 < (a.portSt u 0).credits →
    (∀ p, p < 2 → 2 ≤ fld (a.dstWord u p) 30 2) →
    siteAt (fld (a.dstWord u 0) 22 6) (fld (a.dstWord u 0) 16 6) = some d →
    let sent := fun (b : Tile) (dirty : Bool) =>
      b.prog = true ∧ (bad = true → bitOf (b.reg Reg.TC_WV_ERR) 5 = true) ∧ b.units = a.units ∧ b.sp = a.sp ∧
        b.errCounts = (if dirty = true ∧ bitOf (a.reg Reg.TC_STREAM) 31 = true then a.errCounts.modify 1 (· + 1) else a.errCounts) ∧
        ∃ p ∈ b.outq, p.dst = .site d ∧ ∃ x y src, p.body =
          .token x y (mkToken (a.group 5).epoch.toNat (tokKind tok) (bad || dirty) (tokAux tok) (tokPayload tok)) src
    (bitOf cfg 30 = false → (∀ q, q < nin + 2 → a.headFate u q = .consumable) → (bitOf cfg 27 = true → 0 < (a.portSt u 1).credits) →
      Completes (.steerPairFire n k) s fun t => s.onlyTile t n ∧
        sent (t.tile n) ((List.range (nin + 2)).any fun q => (a.queue u q).head.any tokPoison) ∧
        ∀ q, q < 5 → ((t.tile n).queue u q).toks = if q < nin + 2 then (a.queue u q).toks.drop 1 else (a.queue u q).toks) ∧
    (bitOf cfg 30 = true → a.headFate u 0 = .consumable → a.headFate u (sel + 1) = .consumable →
      Completes (.steerMergeFire n k) s fun t => s.onlyTile t n ∧ sent (t.tile n) (tokPoison ctl || tokPoison tok) ∧
        ∀ q, q < 5 → ((t.tile n).queue u q).toks = if q = 0 ∨ q = sel + 1 then (a.queue u q).toks.drop 1 else (a.queue u q).toks)

/-! ## Patterns, stitches, deadlock -/

/-- A pattern record at the port of a tile that is LOADING its stitch (R302, R304): a good SLOT record writes the bits of its image words
into the standby slot of its group, but for the pass bits of a port site's seam (R20), a good CODE record instruction memory, and no active
slot changes; one that fails its check sets CRCERR, makes the stitch FAILED and is answered; a record of another stitch only sets STRAY. The
END record of a stitch whose records have all come, and which names every group that they wrote, arms the tile, which answers ARMED; with
records missing it fails, with cause 5, and the named groups are still to switch (R304, R306, R328). A site whose compute section has no
power takes none (R25). The check of the active images (R305): a group whose image still has its check word stays as it is; one whose image
does not loads its void pattern, with PATBAD, and a pattern fault is raised. -/
def Obligations.PatternRecordsLoadAndArm : Prop :=
  (∀ (s : State) (n : Site) (r : List Word), s.inReset = false → s.powered n = true → s.mayGetRecord n r = true → recType r ≠ 4 →
    let a := s.tile n
    let mine := a.stitch.mode = .loading ∧ a.stitch.ended = false ∧ fld (r.getD 1 0) 16 16 = a.stitch.num.toNat
    let good := recCrcOk r = true ∧ recFormOk r a.stitch.new a.stitch.seqnos = true
    let len := fld (r.getD 0 0) 8 12
    let off := fld (r.getD 2 0) 12 20
    let g := fld (r.getD 0 0) 20 4
    Completes (.patternRecord n r) s fun t => t = { s with tiles := t.tiles, net := t.net } ∧ (∀ m, m ≠ n → t.tile m = s.tile m) ∧
      (∀ j k, (t.tile n).act j k = a.act j k) ∧
      (mine → a.stitch.failed = false → good → recType r = 1 →
        (∀ k, slotWord g ((t.tile n).group g).standby k =
          (if off ≤ k ∧ k < off + len then
            mergeMask (if g = 7 then imageMask g k &&& ~~~(seamMask n.val) else imageMask g k) (slotWord g (a.group g).standby k)
              (r.getD (3 + (k - off)) 0)
           else slotWord g (a.group g).standby k)) ∧
        (∀ j, j ≠ g → (t.tile n).group j = a.group j) ∧ (t.tile n).core = a.core ∧ (t.tile n).regs = a.regs ∧
        (t.tile n).stitch.seqnos = recSeqno r :: a.stitch.seqnos ∧ (t.tile n).outq = a.outq) ∧
      (mine → a.stitch.failed = false → good → recType r = 2 →
        (t.tile n).groups = a.groups ∧
        (t.tile n).core = { a.core with imem := Memory.writeBytes a.core.imem (4 * off) (bytesOfWords ((r.drop 3).take len)) }) ∧
      (mine → a.stitch.failed = false → recCrcOk r = false →
        (t.tile n).groups = a.groups ∧ bitOf ((t.tile n).reg Reg.TC_EP_ERR) 6 = true ∧ (t.tile n).stitch.failed = true ∧
        (t.tile n).core = a.core ∧ ∃ p ∈ (t.tile n).outq, p.dst = .att (fieldNo n) ∧ p.body = .ctrl (.failed a.stitch.num 2)) ∧
      (¬mine → t.tile n = a.flagBit Reg.TC_EP_ERR 4)) ∧
  (∀ (s : State) (n : Site) (r : List Word), s.inReset = false → s.powered n = true → s.mayGetRecord n r = true → recType r = 4 →
    recCrcOk r = true →
    let a := s.tile n
    let payload := r.getD 3 0
    let gmask : BitVec 8 := BitVec.ofNat 8 (fld payload 24 8)
    let complete := (∀ k, k < fld payload 0 12 → k ∈ a.stitch.seqnos) ∧ ∀ e ∈ a.stitch.groups, e.1 < fld payload 0 12 → bitOf gmask e.2 = true
    recFormOk r a.stitch.new a.stitch.seqnos = true → a.stitch.mode = .loading → a.stitch.ended = false → a.stitch.failed = false →
    fld (r.getD 1 0) 16 16 = a.stitch.num.toNat →
    Completes (.patternEndRecord n r) s fun t => t = { s with tiles := t.tiles, net := t.net } ∧ (∀ m, m ≠ n → t.tile m = s.tile m) ∧
      (t.tile n).groups = a.groups ∧ (t.tile n).core = a.core ∧
      (complete → a.badEpoch gmask a.stitch.new = false → (t.tile n).stitch.mode = .armed ∧ (t.tile n).stitch.pend = gmask ∧
        (t.tile n).stitch.gmask = gmask ∧ ∃ p ∈ (t.tile n).outq, p.body = .ctrl (.armed a.stitch.num)) ∧
      (¬complete → (t.tile n).stitch.failed = true ∧ (t.tile n).stitch.mode = .loading ∧ (t.tile n).stitch.pend = gmask ∧
        ∃ p ∈ (t.tile n).outq, p.body = .ctrl (.failed a.stitch.num 5))) ∧
  (∀ (s : State) (n : Site) (r : List Word), s.inReset = false → s.powered n = false →
    (recType r ≠ 4 → Completes (.patternRecord n r) s fun t => t = { s with net := t.net }) ∧
      (recType r = 4 → Completes (.patternEndRecord n r) s fun t => t = { s with net := t.net })) ∧
  (∀ (s : State) (n : Site) (flips : List ImageFlip), s.inReset = false → s.powered n = true →
    let a := (s.tile n).flipImage flips
    let ok := fun g => crc32cWords (slotImage g (a.group g).active) = (a.group g).keptWord g
    Completes (.activeImageCheck n flips) s fun t => s.onlyTile t n ∧
      (∀ g, g < 7 → ok g → (t.tile n).group g = a.group g) ∧
      (∀ g, g < 7 → ¬ok g → (∀ k, (t.tile n).act g k = voidWord g k) ∧ ((t.tile n).group g).patbad = true ∧
        ((t.tile n).group g).epoch = 0 ∧ bitOf ((t.tile n).reg Reg.TC_EP_ERR) 7 = true ∧
        ∃ p ∈ (t.tile n).outq, ∃ f : FaultMsg, p.body = .ctrl (.fault f) ∧ f.code = 0x08) ∧
      ((∀ g, g < 7 → ok g) → t.tile n = a))

/-- OPEN, COMMIT and ABORT at a tile (R306, R309, R313): an idle tile under no freeze opens the stitch, any other answers FAILED BUSY; an
armed tile commits, fixing a switch point for each group that it names, and its WF group switches at once; ABORT makes the standby slots of
the groups written copies of the active ones again; a freeze written meanwhile then stops the core (R323). A group switches at its switch
point (R298, R310, R313, R314), at the COMMIT, at its run's end, or at agreeing markers with no token unreleased: its epoch becomes NEW and
it waits no more; with no held write its new standby slot is a copy of the active one, which for the SU group is the old standby slot. A
running unnamed group whose needed queues all show agreeing re-epoch markers takes NEW from them (R316). That a switch of a group with none
to make changes nothing is the model's choice (assumption 1). -/
def Obligations.TilesSwitchAtStitches : Prop :=
  let gets := fun (s : State) (n : Site) (m : CtrlMsg) => s.powered n = true ∧ s.getsCtrl n m
  ((∀ (s : State) (n : Site) (num : BitVec 16) (new : BitVec 4), s.inReset = false → gets s n (.openStitch num new) →
    Completes (.stitchOpen n num new) s fun t => t = { s with tiles := t.tiles, net := t.net } ∧
      (∀ m, m ≠ n → t.tile m = s.tile m) ∧
      (if (s.tile n).stitch.mode = .idle ∧ (s.tile n).freezeOn = false then
        t.tile n = { s.tile n with stitch := { StitchSt.reset with num := num, new := new, mode := .loading } }
      else (t.tile n).stitch = (s.tile n).stitch ∧ t.tile n = { s.tile n with outq := (t.tile n).outq } ∧
        ∃ p ∈ (t.tile n).outq, p.body = .ctrl (.failed num 1))) ∧
  (∀ (s : State) (n : Site) (num : BitVec 16), s.inReset = false → gets s n (.commit num) → (s.tile n).stitch.mode = .armed →
    (s.tile n).stitch.num = num → (s.tile n).stitch.pend ≠ 0 → bitOf (s.tile n).stitch.pend 7 = false →
    Completes (.stitchCommit n num) s fun t => t = { s with tiles := t.tiles, net := t.net } ∧ (∀ m, m ≠ n → t.tile m = s.tile m) ∧
      t.tile n = { s.tile n with stitch := (t.tile n).stitch } ∧ (t.tile n).stitch.mode = .committed ∧
      (t.tile n).stitch.pend = (s.tile n).stitch.pend ∧
      ∀ g, g < 8 → bitOf (s.tile n).stitch.gmask g = true → ((t.tile n).stitch.points.find? fun e => decide (e.1 = g)) =
        some (g, if (s.tile n).running g = false then .atCommit
          else if (s.tile n).groupNeeds g = [] then .runEnd else .marker)) ∧
  (∀ (s : State) (n : Site) (num : BitVec 16), s.inReset = false → gets s n (.commit num) → (s.tile n).stitch.mode = .armed →
    (s.tile n).stitch.num = num → bitOf (s.tile n).stitch.pend 7 = true →
    Completes (.stitchCommit n num) s fun t => t = { s with tiles := t.tiles, net := t.net } ∧ (∀ m, m ≠ n → t.tile m = s.tile m) ∧
      ((t.tile n).group 7).active = ((s.tile n).group 7).standby ∧ (∀ j, j ≠ 7 → (t.tile n).group j = (s.tile n).group j) ∧
      bitOf (t.tile n).stitch.pend 7 = false ∧ (t.tile n).units = (s.tile n).units ∧ (t.tile n).sp = (s.tile n).sp) ∧
  ∀ (s : State) (n : Site) (num : BitVec 16), s.inReset = false → gets s n (.abort num) →
    (s.tile n).stitch.mode = .loading ∨ (s.tile n).stitch.mode = .armed → (s.tile n).stitch.num = num →
    Completes (.stitchAbort n num) s fun t => t = { s with tiles := t.tiles, net := t.net } ∧ (∀ m, m ≠ n → t.tile m = s.tile m) ∧
      (t.tile n).stitch.mode = .idle ∧ (∀ g k, (t.tile n).act g k = (s.tile n).act g k) ∧
      (∀ g, g < 8 → (∃ k, (k, g) ∈ (s.tile n).stitch.groups) ∨ bitOf (s.tile n).stitch.gmask g = true →
        ((t.tile n).group g).standby = ((s.tile n).group g).active) ∧
      ((s.tile n).freezeOn = false → (t.tile n).core = (s.tile n).core) ∧
      ((s.tile n).freezeOn = true → (t.tile n).core.mode = .halted) ∧ (t.tile n).regs = (s.tile n).regs) ∧
  ((∀ (s : State) (n : Site) (g : Fin 8), s.inReset = false → s.powered n = true → g.val < 6 → (s.tile n).stitch.mode = .committed →
    bitOf (s.tile n).stitch.pend g.val = true → (s.tile n).settled g.val = true →
    (∃ p, (s.tile n).stitch.points.find? (fun e => decide (e.1 = g.val)) = some (g.val, p) ∧
      match p with
      | .atCommit => True
      | .runEnd => (s.tile n).running g.val = false ∧ ((s.tile n).seq g.val).halted = false
      | .marker => (s.tile n).marksReady g.val .switchMark = true ∧ marksAgree ((s.tile n).headMarks g.val) = true ∧
          (∀ m ∈ (s.tile n).headMarks g.val, tokPayload m % 16 = (s.tile n).stitch.new.toNat) ∧ (s.tile n).noHelds g.val = true) →
    Completes (.groupSwitch n g) s fun t => s.onlyTile t n ∧ ((t.tile n).group g.val).epoch = (s.tile n).stitch.new ∧
      bitOf (t.tile n).stitch.pend g.val = false ∧ ((t.tile n).group g.val).heldW = [] ∧
      (((s.tile n).group g.val).heldW = [] → ((t.tile n).group g.val).standby = ((t.tile n).group g.val).active) ∧
      (g.val = 5 → ((t.tile n).group 5).active = ((s.tile n).group 5).standby) ∧
      (∀ j, j ≠ g.val → (t.tile n).group j = (s.tile n).group j) ∧
      ((s.tile n).freezeOn = false → (t.tile n).core = (s.tile n).core)) ∧
  (∀ (s : State) (n : Site) (g : Fin 8), s.inReset = false →
    (s.tile n).stitch.mode ≠ .committed ∨ bitOf (s.tile n).stitch.pend g.val = false →
    Completes (.groupSwitch n g) s fun t => t.tile n = s.tile n ∧ s.onlyTile t n) ∧
  ∀ (s : State) (n : Site) (g : Fin 8), s.inReset = false → s.powered n = true → g.val < 6 → (s.tile n).named g.val = false →
    (s.tile n).running g.val = true → (s.tile n).settled g.val = true → (s.tile n).marksReady g.val .reMark = true →
    marksAgree ((s.tile n).headMarks g.val) = true →
    Completes (.reEpoch n g) s fun t => s.onlyTile t n ∧
      ((t.tile n).group g.val).epoch = BitVec.ofNat 4 (tokPayload (((s.tile n).headMarks g.val).headD 0)) ∧
      (t.tile n).prog = true ∧ (∀ j k, (t.tile n).act j k = (s.tile n).act j k) ∧
      (∀ j, j ≠ g.val → (t.tile n).group j = (s.tile n).group j))

/-- The steward runs a stitch (R307): once every participant is ARMED, COMMIT goes to each. FAILED, a participant that does not answer in
time, and the KILL of the stream that asked for the stitch, drop it and send ABORT to each; at a tile ABORT changes no active slot, and the
standby slots of the groups that the stitch named are copies of the active ones, so that writes staged in them are gone. Once COMMIT is out
none of these undoes it. The stitch has ended once each participant has SWITCHED; when the time for that has passed, the requester's STITCH
ends with the cause 0x11, and no tile changes. (A darning's own stitch is apart.) -/
def Obligations.StewardRunsStitches : Prop :=
  ∀ (s : State) (num : BitVec 16) (k : Stitch), s.inReset = false → s.steward.stitch? num = some k → num ≠ 0xFFFF →
    (k.owner.isSome = true ∨ s.steward.darning = none) → (∀ m, k.owner = some m → (s.ctx m).commits = []) →
    let kills := fun m : StreamNo => k.owner = some m ∧ s.getsMsg 4 m (fun _ _ => true) ∧
      ((s.ctx m).mode = .running ∨ (s.ctx m).mode = .halted ∨ (s.ctx m).mode = .ending)
    let quiet := ∀ m, k.owner = some m → (s.ctx m).teardown = .none
    let all := fun (l : List Site) (n : Site) => ∀ m ∈ k.sites, m = n ∨ m ∈ l
    let tells := fun (t : State) (m : CtrlMsg) => ∀ n ∈ k.sites, ∃ p ∈ t.steward.outq, p.dst = .site n ∧ p.body = .ctrl m
    let only := fun (t : State) => t.steward = { s.steward with stitches := t.steward.stitches, outq := t.steward.outq }
    (∀ n ∈ k.sites, k.committed = false → s.getsAtt n (.armed num) → Completes (.armed n num) s fun t => only t ∧
      t = { s with steward := t.steward, net := t.net } ∧
      ∃ l, (∀ m, m ∈ l ↔ m = n ∨ m ∈ k.armed) ∧
        (all k.armed n → t.steward.stitch? num = some { k with armed := l, committed := true } ∧ tells t (.commit num)) ∧
        (¬all k.armed n → t.steward.stitch? num = some { k with armed := l } ∧ t.steward.outq = s.steward.outq)) ∧
    (∀ n ∈ k.sites, ∀ cause, k.committed = false → s.getsAtt n (.failed num cause) → Completes (.failed n num cause) s fun t => only t ∧
      t.steward.stitch? num = none ∧ tells t (.abort num)) ∧
    (k.committed = false → Completes (.armTimeout num) s fun t => only t ∧ t.steward.stitch? num = none ∧ tells t (.abort num)) ∧
    (k.committed = false → ∀ m, kills m → Completes (.kill m) s fun t => t.steward.stitch? num = none ∧ tells t (.abort num)) ∧
    (∀ n, s.powered n = true → s.getsCtrl n (.abort num) → (s.tile n).stitch.num = num →
      (s.tile n).stitch.mode = .loading ∨ (s.tile n).stitch.mode = .armed →
      Completes (.stitchAbort n num) s fun t => (∀ g j, (t.tile n).act g j = (s.tile n).act g j) ∧
        ∀ g, g < 8 → (∃ j, (j, g) ∈ (s.tile n).stitch.groups) ∨ bitOf (s.tile n).stitch.gmask g = true →
          ((t.tile n).group g).standby = ((s.tile n).group g).active) ∧
    (k.committed = true →
      (∀ n cause, s.getsAtt n (.failed num cause) → Completes (.failed n num cause) s fun t => t.steward.stitch? num = some k) ∧
      Completes (.armTimeout num) s (fun t => t.steward.stitch? num = some k) ∧
      ∀ m, kills m → (∀ j ∈ s.steward.stitches, j.num = num → j = k) → Completes (.kill m) s fun t => t.steward.stitch? num = some k) ∧
    (∀ n ∈ k.sites, k.committed = true → s.getsAtt n (.switched num) → Completes (.switched n num) s fun t => only t ∧
      (quiet → t.steward.outq = s.steward.outq) ∧
      (all k.switchedS n → t.steward.stitch? num = none) ∧
      (¬all k.switchedS n → ∃ l, t.steward.stitch? num = some { k with switchedS := l } ∧ ∀ m, m ∈ l ↔ m = n ∨ m ∈ k.switchedS)) ∧
    (k.committed = true → Completes (.switchTimeout num) s fun t => only t ∧ t.steward.stitch? num = none ∧
      (quiet → t.steward.outq = s.steward.outq ∧ t.tiles = s.tiles ∧
        ∀ m d, k.owner = some m → (s.ctx m).desc = some d → d.op = 4 → d.num 18 2 = num.toNat → d.stage = .image ∨ d.stage = .awaits →
          (t.ctx m).desc = some { d with status := some (4, 0x11) }))

/-- The end of a deadlock window (R318): PROG reads 0 in every tile again; a weave without progress that has a blocked tile, in no freeze or
stitch, is told to SPILL where the steward's window is enabled, and one with progress, or with the window disabled, is not. SPILL at a tile
(R319, R320, R322): with room in the spill spool each full spillable queue is left empty behind a row of the spool whose bytes, in a bank in
service, are its header and its tokens, oldest first, and zeros (`spillRow`); without, nothing is written and NOROOM is set; either way
SPILLED is reported. The spilled tokens are read back when they are needed, and are those that the row holds, in their order. A report of no
room is a deadlock fault, which the steward logs. -/
def Obligations.DeadlocksSpillFullQueues : Prop :=
  (∀ s : State, s.inReset = false → (∀ w, Map.get noCount s.steward.dlSpills w = 0) →
    Completes .deadlockWindowEnd s fun t => (∀ n ∈ s.someTiles, t.tile n = { s.tile n with prog := false }) ∧
      t = { s with tiles := t.tiles, steward := t.steward } ∧
      t.steward = { s.steward with outq := t.steward.outq, dlSpills := t.steward.dlSpills } ∧
      (bitOf (s.steward.reg Reg.ST_DL_CFG) 31 = false → t.steward.outq = s.steward.outq) ∧
      ∀ w n, n ∈ s.weaveTiles w → bitOf (s.steward.reg Reg.ST_DL_CFG) 31 = true → (∀ m ∈ s.weaveTiles w, (s.tile m).prog = false) →
        (∃ m ∈ s.weaveTiles w, (s.tile m).blocked = true) →
        (∀ m ∈ s.weaveTiles w, (s.tile m).freezeOn = false ∧ (s.tile m).stitch.mode = .idle) →
        ∃ p ∈ t.steward.outq, p.dst = .site n ∧ p.body = .ctrl (.spill w)) ∧
  ((∀ (s : State) (n : Site), s.inReset = false → s.powered n = true →
    s.mayGet (fun p => p.dst = .site n && (match p.body with | .ctrl (.spill _) => true | _ => false)) = true →
    let a := s.tile n
    let k := fld (a.act 6 3) 0 5
    let size := fld (a.act 3 (57 + k)) 16 13
    let room := if bitOf (a.act 3 (57 + k)) 31 = true then size - a.spoolCount k - (a.spool k).rsv else 0
    Completes (.spill n) s fun t => t = { s with tiles := t.tiles, net := t.net } ∧ (∀ m, m ≠ n → t.tile m = s.tile m) ∧
      (room < a.toSpill.length → (t.tile n).queues = a.queues ∧ (t.tile n).sp = a.sp ∧
        bitOf ((t.tile n).reg Reg.TC_DL_STAT) 1 = true ∧ ∃ p ∈ (t.tile n).outq, p.body = .ctrl (.spilled true)) ∧
      (a.toSpill.length ≤ room →
        (∀ u q, (u, q) ∈ a.toSpill → ((t.tile n).queue u q).toks = [] ∧
          ∃ off, ((t.tile n).queue u q).spills = (a.queue u q).spills ++
            [{ off := off, count := (a.queue u q).toks.length, fetched := false, left := (a.queue u q).toks.length }] ∧
            ((∀ r, a.inService r = true) → a.holdsEng 5 = false → ∀ i, i < 512 →
              (t.tile n).spByte (fld (a.act 3 (57 + k)) 0 12 + off) i = (spillRow u q (a.queue u q).toks).getD i 0)) ∧
        ∃ p ∈ (t.tile n).outq, p.body = .ctrl (.spilled false))) ∧
  (∀ (s : State) (n : Site) (u : BitVec 4) (q : BitVec 3) (ph : Phys) (r : SpillRow) (rs : List SpillRow), s.inReset = false → s.powered n = true →
    ((s.tile n).queue u.toNat q.toNat).spills = r :: rs → ((s.tile n).queue u.toNat q.toNat).back = [] →
    Completes (.spillTokenRead n u q ph) s fun t => s.onlyTile t n ∧
      ((t.tile n).queue u.toNat q.toNat).back.length = r.count ∧
      ((t.tile n).queue u.toNat q.toNat).toks = ((s.tile n).queue u.toNat q.toNat).toks ∧ (t.tile n).sp.mem = (s.tile n).sp.mem ∧
      ∀ toks : List QTok, toks.length = r.count → r.count ≤ 63 →
        let row := fld ((s.tile n).act 3 (57 + fld ((s.tile n).act 6 3) 0 5)) 0 12 + r.off
        (∀ i, i < 512 → (s.tile n).spByte row i = (spillRow u.toNat q.toNat toks).getD i 0) → (s.tile n).inService row = true →
        (s.tile n).rowPoison row = false → (s.tile n).sp.bad = [] → ph = { : Phys } →
        ((t.tile n).queue u.toNat q.toNat).back = toks.map fun k => k.tok) ∧
  ∀ (s : State) (n : Site), s.inReset = false →
    Completes (.spilled n) s fun t =>
      let full := s.net.any fun p => decide (p.src = .tile n) && decide (p.body = .ctrl (.spilled true))
      (full = false → t = { s with net := t.net }) ∧
      (full = true → s.getsAtt n (.spilled true) → t.steward.flogCount = s.steward.flogCount + 1 ∧
        ∃ e, t.steward.flog.head? = some e ∧ e.code = 0x0C ∧ e.unit = 0xD ∧ e.site = n))

/-! ## The weft -/

/-- The first waiting packet of a class at a point whose router is on and not stopped by a hem (R350, R357, R358), as it stands once a
claimed tile has reported the errors that it still has to (R447; assumption 84) and a multicast that its sender must split has been (R392;
assumption 78): where a path leads to its destination and the class's bucket is unlimited, or has a RATE and holds its flits, it enters the
weft, its flits come to the local port, and the bucket is charged; where the bucket holds too few, or its RATE is 0 (R361), it waits; where
no path leads there it is discarded, flagged and counted, and does not enter. A multicast, whose route flit counts too, enters once for each
site in service that it names and a path leads to (R354, R355; assumption 72); one that its source may not send is flagged, counted and
discarded. The report of a tile's errors carries its counts to its attachment, and the counts begin again. -/
def Obligations.PacketsEnterUnderTheirBudget : Prop :=
  (∀ (s : State) (n : Site) (c : Fin 8), s.inReset = false → (s.tile n).reported = false → (∃ k ∈ (s.tile n).errCounts, k ≠ 0) →
    c ≠ 0 → (∀ q ∈ (s.tile n).outq, q.cls ≠ c) →
    Completes (.packetInject (.tile n) c) s fun t => s.onlyTile t n ∧
      ∃ q, q.src = .tile n ∧ q.dst = .att (fieldNo n) ∧ q.body = .ctrl (.errors (s.tile n).errCounts) ∧
        t.tile n = { s.tile n with outq := (s.tile n).outq ++ [q], errCounts := [0, 0, 0, 0, 0, 0], reported := true }) ∧
  ∀ (s : State) (pt : InjPoint) (c : Fin 8) (p : Pkt), s.inReset = false → s.holding (pointSite p.src) = false →
    let s1 := (s.reports pt).parted pt c
    (s1.line pt).find? (fun q => decide (q.cls = c)) = some p → s.steward.off (pointSite pt).val = false →
    (s.tile (pointSite pt)).siteHem = false →
    let from' := pointSite p.src
    let path := weftPath s.steward.off (pointSite pt).val (s.steward.target p.dst).val
    let rate := fld (s.bucketReg pt c.val) 16 16
    let free := rate = 0xFFFF
    let lost := fun (t : State) (bit : Nat) => t.net = s.net ∧ t.line pt = (s1.line pt).erase p ∧
      bitOf ((t.tile (pointSite pt)).reg Reg.WF_ERR) bit = true ∧
      (t.tile (pointSite pt)).reg Reg.WF_DROP_COUNT = satAdd ((s.tile (pointSite pt)).reg Reg.WF_DROP_COUNT) 1
    ((∀ l, p.dst ≠ .rects l) → Completes (.packetInject pt c) s fun t => t.out = s.out ∧ t.loom = s.loom ∧
      (path ≠ none → (free ∨ (0 < rate ∧ p.flits ≤ s.level pt c.val)) →
        (∃ q, t.net = s.net ++ [q] ∧ q.body = p.body ∧ q.cls = c ∧ q.src = p.src ∧ q.flits = p.flits ∧
          (t.tile from').router.staged = (s.tile from').router.staged ++ q.staged) ∧
        t.line pt = (s1.line pt).erase p ∧ (¬free → t.level pt c.val = s.level pt c.val - p.flits)) ∧
      (path ≠ none → ¬free → (rate = 0 ∨ s.level pt c.val < p.flits) → t = s1) ∧
      (path = none → lost t 3)) ∧
    ∀ l, p.dst = .rects l → Completes (.packetInject pt c) s fun t => t.out = s.out ∧ t.loom = s.loom ∧
      (s.steward.multiOk p l = false → lost t 0) ∧
      (s.steward.multiOk p l = true → (free ∨ (0 < rate ∧ p.flits + 1 ≤ s.level pt c.val)) →
        t.net = s.net ++ ((s.steward.multiSites l).filter fun m =>
          (weftPath s.steward.off from'.val m.val).isSome).map (fun m => { p with dst := .site m }) ∧
        (t.tile from').router.staged = (s.tile from').router.staged ++ p.staged ∧
        t.line pt = (s1.line pt).erase p ∧ (¬free → t.level pt c.val = s.level pt c.val - (p.flits + 1))) ∧
      (s.steward.multiOk p l = true → ¬free → (rate = 0 ∨ s.level pt c.val < p.flits + 1) → t = s1)

/-- A flit at a router (R338 to R342): one whose CRC fails is not taken, and is flagged and counted; the third in a row takes the link down
with a LINK fault. After a failure only the flit that its sender resends first is taken (R339). One that is good leaves the replay buffer of
the router that sent it and ends the run of failures. On a link that is down, to a router that is off, or with its buffer full, nothing
happens. No other tile, and no scratchpad, unit or core, differs. After a change of the fault map the held packets enter if a path leads to
their destination (R351). A partly delivered packet that goes on no more is discarded: WF_ERR, a count, and a DROP to its source (R352),
where its row counts refused and a token or credit lost. That a row which the state rules out changes nothing is the model's choice
(assumption 1). -/
def Obligations.RoutersTakeFlitsAndSettlePackets : Prop :=
  (∀ (s : State) (n m : Site) (side : Fin 4) (f : Flit), s.inReset = false → stepSide n side.val = some m → n ≠ m →
    let a := s.tile n
    let closed := s.steward.off n.val = true ∨ s.steward.off m.val = true ∨ a.siteHem = true ∨ bitOf a.router.down side.val = true
    let b := s.onLink m side.val f
    let room := (a.router.buf b.side b.vch b.lane).length < bufCap b.vch
    let turn := a.router.fails.getD side.val 0 = 0 ∨
      ∀ e l, (s.tile m).router.replay ((side.val + 2) % 4) = e :: l → e.flit = f
    Completes (.flitReceive n side f) s fun t => t = { s with tiles := t.tiles, net := t.net } ∧ (∀ k, k ≠ n → k ≠ m → t.tile k = s.tile k) ∧
      (t.tile n).sp = a.sp ∧ (t.tile n).units = a.units ∧ (t.tile n).core = a.core ∧
      (closed ∨ ¬room → t = s) ∧ (f.crc = flitCrc f.ctl f.payload → ¬turn → t = s) ∧
      (¬closed → room → f.crc ≠ flitCrc f.ctl f.payload →
        (t.tile n).router.bufs = a.router.bufs ∧ (t.tile n).reg Reg.WF_RETRY_COUNT = satAdd (a.reg Reg.WF_RETRY_COUNT) 1 ∧
        bitOf ((t.tile n).reg Reg.WF_ERR) 8 = true ∧ t.tile m = s.tile m ∧
        (2 ≤ a.router.fails.getD side.val 0 → bitOf (t.tile n).router.down side.val = true ∧
          ∃ p ∈ (t.tile n).outq, ∃ x : FaultMsg, p.body = .ctrl (.fault x) ∧ x.code = 0x0A ∧ x.unit = 0xF)) ∧
      (¬closed → room → f.crc = flitCrc f.ctl f.payload → turn →
        (t.tile m).router.sent = ((s.tile m).router.sent.eraseP fun x =>
          decide (x.side = (b.side + 2) % 4) && decide (x.vch = b.vch) && decide (x.flit = b.flit)) ∧
        (t.tile n).router.fails.getD side.val 0 = 0 ∧
        (t.tile n).reg Reg.WF_RETRY_COUNT = a.reg Reg.WF_RETRY_COUNT ∧ (t.tile n).router.down = a.router.down)) ∧
  ((∀ (s : State) (n : Site), s.inReset = false → (∀ p ∈ (s.tile n).router.heldPk, pointSite p.src = n) →
    Completes (.fmapHoldRelease n) s fun t => (t.tile n).router.heldPk = [] ∧ t.holding n = false ∧
      t = { s with tiles := t.tiles, net := t.net } ∧ (∀ k, k ≠ n → t.tile k = s.tile k) ∧ (∀ p ∈ s.net, p ∈ t.net) ∧
      (∀ p ∈ (s.tile n).router.heldPk, ∀ l, p.dst = .rects l → ∀ m ∈ s.steward.multiSites l,
        weftPath s.steward.off n.val m.val ≠ none → { p with dst := .site m } ∈ t.net) ∧
      (∀ p ∈ (s.tile n).router.heldPk, (∀ l, p.dst ≠ .rects l) → weftPath s.steward.off n.val (s.steward.target p.dst).val ≠ none →
        ∃ q ∈ t.net, q.body = p.body ∧ q.src = p.src ∧ q.cls = p.cls)) ∧
  (∀ (s : State) (n src : Site) (side : Fin 5) (v : Fin 4) (lane : Bool) (x : RouteSt), s.inReset = false →
    (s.tile n).router.route side.val v.val lane = some x → (s.tile n).router.front side.val v.val lane = none → x.here = true →
    (lane = true → (s.tile n).router.route side.val v.val = none) →
    x.src = src.val →
    Completes (.packetHeadTimeout n side v) s fun t => s.onlyTile t n ∧ bitOf ((t.tile n).reg Reg.WF_ERR) 2 = true ∧
      (t.tile n).reg Reg.WF_DROP_COUNT = satAdd ((s.tile n).reg Reg.WF_DROP_COUNT) 1 ∧
      (t.tile n).router.routes = (s.tile n).router.routes.erase x ∧
      (∃ p ∈ (t.tile n).outq, p.dst = .site src ∧ ∃ k r, p.body = .drop k r ∧ k.toNat = fld x.ctl 52 4) ∧
      (t.tile n).units = (s.tile n).units ∧ (t.tile n).sp = (s.tile n).sp) ∧
  ∀ (s : State) (n src : Site) (kind : BitVec 4) (row : BitVec 12), s.inReset = false →
    s.mayGet (fun p => p.dst = .site n && p.src = .tile src && p.body = .drop kind row) = true →
    Completes (.drop n src kind row) s fun t => t = { s with tiles := t.tiles, net := t.net } ∧ (∀ k, k ≠ n → t.tile k = s.tile k) ∧
      (kind = 3 ∨ kind = 4 → t.tile n = (s.tile n).count Reg.TC_WVDROP_COUNT 1) ∧
      (kind = 1 → ∀ (r : Run) (rest : List Run) (d : Site) (acks : List (Nat × Nat)), ((s.tile n).unit .sh).running = r :: rest →
        r.acks = (d.val, row.toNat) :: acks →
        ∃ r', ((t.tile n).unit .sh).running = r' :: rest ∧ r'.refused = true ∧ r'.left = r.left - 1 ∧ r'.acks = acks))

/-! ## Glitis ports -/

/-- A received flit (R370, R372, R377, R381, R382). On a group out of service nothing happens. One whose CRC fails is counted, flagged
and answered with a NAK, by the next flit that leaves on the group; the third failure of one flit, and the 64th failure on the group in
one budget period, takes the group out of service for a retrain. An IDLE flit is never sent again, so its failures count for no flit.
While the group waits for a replay, the later flits, each of the number after the last, are discarded as they are. A good flit of the
expected number is acknowledged by the next flit that leaves on the group, and the next number is expected; a good flit of another number
is let go. An IDLE flit's credits are added. That a failed flit is taken for what its side-band word says it is, and that a group which
takes no flits changes nothing, are the model's choices (assumptions 77 and 1). -/
def Obligations.GlitisFlitsAreCheckedAndAcknowledged : Prop :=
  ∀ (s : State) (n : PortIx) (g : Fin 8) (f : GlFlit), s.inReset = false →
    let p := s.port n
    let lane := p.lane g.val
    let takes := p.inService g.val = true ∧ (p.mode = .discover ∨ p.mode = .up)
    let good := fld f.sb 48 16 = (glCrc f.sb f.body).toNat
    let per := if lane.failsAt = s.periods then lane.failsPeriod else 0
    let idle : Bool := glFt f == 0
    let skips := lane.discarding = true ∧ idle = false ∧ glSeq f = lane.later
    let fails := if idle then lane.fails else lane.fails + 1
    let answers := fun (t : State) (nak : Bool) (seq : BitVec 8) => s.out <+: t.out ∧
      ∃ x, Out.flit n g x ∈ t.out.drop s.out.length ∧ bitOf x.sb 35 = true ∧ bitOf x.sb 34 = nak ∧ fld x.sb 26 8 = seq.toNat
    Completes (.glFlitReceive n g f) s fun t => t.tiles = s.tiles ∧ t.loom = s.loom ∧ (∀ m, m ≠ n → t.port m = s.port m) ∧
      (¬takes → t = s) ∧
      (takes → ¬good → skips → s.onlyPort t n ∧ t.port n = p.setLane g.val { lane with later := lane.later + 1 }) ∧
      (takes → ¬good → ¬skips → fails < 3 → per < 63 →
        answers t true (lane.seqIn - 1) ∧ s.onlyPortOut t n ∧
        (t.port n).reg Reg.GL_REPLAY_COUNT = satAdd (p.reg Reg.GL_REPLAY_COUNT) 1 ∧ bitOf ((t.port n).reg Reg.GL_ERR) 0 = true ∧
        ((t.port n).lane g.val).seqIn = lane.seqIn ∧ ((t.port n).lane g.val).fails = fails ∧
        (t.port n).credH = p.credH ∧ (t.port n).replay = p.replay) ∧
      (takes → ¬good → ¬skips → 3 ≤ fails ∨ 63 ≤ per →
        (t.port n).inService g.val = false ∧ (t.port n).inRetrain g.val = true ∧
        (t.port n).reg Reg.GL_RETRAIN_COUNT = satAdd (p.reg Reg.GL_RETRAIN_COUNT) 1 ∧ bitOf ((t.port n).reg Reg.GL_ERR) 1 = true) ∧
      (takes → good → glFt f ≠ 0 → glSeq f ≠ lane.seqIn →
        s.onlyPort t n ∧ t.port n = p.setLane g.val { lane with later := glSeq f + 1 }) ∧
      (takes → good → glFt f ≠ 0 → glSeq f = lane.seqIn → bitOf f.sb 35 = false →
        ((t.port n).lane g.val).seqIn = lane.seqIn + 1 ∧ ((t.port n).lane g.val).fails = 0 ∧
        ((t.port n).lane g.val).discarding = false ∧ answers t false lane.seqIn) ∧
      (takes → good → glFt f = 0 → bitOf f.sb 35 = false → p.backlog = [] → p.rxHeld = [] →
        (∀ r, p.stripeDue.getD r none = none) → p.idleGroup = none → fld f.sb 23 3 < 5 →
        t.out = s.out ∧ s.onlyPort t n ∧ (t.port n).lanes = p.lanes ∧
        (t.port n).credH = p.credH.modify (fld f.sb 23 3) (· + fld f.sb 20 3) ∧
        (t.port n).credD = p.credD.modify (fld f.sb 23 3) (· + fld f.sb 16 4))

/-- A header (R376, R387, R394, R410, R430). A port that is neither UP nor in DISCOVER takes none. In DISCOVER every operation that has
a response is refused. One that breaks a rule of R376 is flagged, counted and, where it has a response, refused; a bad INV also empties
the cache; a header of host origin that only a steward may send is flagged, counted and refused (R394), as is one that comes while the
chiplet is locked. A good request's slot is kept for its response (R374). A message of the host's goes to the loom of the port's field;
a bad one is flagged and counted at the loom. That a port in another state takes none is the model's choice (assumption 1). -/
def Obligations.HeadersAreCheckedAndPassedOn : Prop :=
  ∀ (s : State) (n : PortIx) (role : BitVec 2) (h : BitVec 256), s.inReset = false →
    let p := s.port n
    let op := fld h 0 8
    let bad := headerBad s.steward p.version role.toNat h
    let refused : Out := .refused n (BitVec.ofNat 8 op) (BitVec.ofNat 12 (fld h 8 12)) (bitOf h 20)
    let here : Dest := .att (fieldNo (siteOfPort n))
    Completes (.headerReceive n role h) s fun t => t.tiles = s.tiles ∧ t.loom = s.loom ∧ (∀ m, m ≠ n → t.port m = s.port m) ∧
      (p.mode ≠ .up → p.mode ≠ .discover → t = s) ∧
      (p.mode = .discover → if answered op then s.out ++ [refused] <+: t.out else t = s) ∧
      (p.mode = .up → bad = true →
        bitOf ((t.port n).reg Reg.GL_ERR) 5 = true ∧ (t.port n).reg Reg.GL_DROP_COUNT = satAdd (p.reg Reg.GL_DROP_COUNT) 1 ∧
        (answered op = true → s.out ++ [refused] <+: t.out) ∧ (answered op = false → t.out = s.out) ∧
        (op = 0x10 → (t.port n).cache = [] ∧ (t.port n).prefetchers = [] ∧ bitOf ((t.port n).reg Reg.GL_RCERR) 3 = true) ∧
        (op ≠ 0x10 → (t.port n).cache = p.cache)) ∧
      (p.mode = .up → bad = false → bitOf h 20 = false → op = 0x20 → msgBad h = false → s.onlyPort t n ∧
        t.port n = { p with outq := p.outq ++
          [{ src := .port n, dst := here, cls := 0, flits := 1
             body := .ctrl (.streamMsg (BitVec.ofNat 8 (fld h 128 8)) ⟨fld h 144 14 % 16384, Nat.mod_lt _ (by decide)⟩
               (BitVec.ofNat 32 (fld h 160 32)) (BitVec.ofNat 64 (fld h 192 64))) }] }) ∧
      (p.mode = .up → bad = false → bitOf h 20 = false → op = 0x20 → msgBad h = true → s.onlySteward t ∧
        bitOf (t.steward.reg Reg.LM_ERR) 3 = true ∧ t.steward.reg Reg.LM_DROP_COUNT = satAdd (s.steward.reg Reg.LM_DROP_COUNT) 1) ∧
      (p.mode = .up → bad = false → bitOf h 20 = false → op ≠ 0x20 → fld (s.steward.reg Reg.ST_BOOT) 0 2 ≠ 3 ∨ answered op = false →
        s.onlyPort t n ∧ t.port n = { p with srcSlots := if answered op then
          p.srcSlots ++ [(BitVec.ofNat 8 op, BitVec.ofNat 12 (fld h 8 12), BitVec.ofNat 4 (fld h 24 4))] else p.srcSlots }) ∧
      (p.mode = .up → bad = false → bitOf h 20 = false → op ≠ 0x20 → fld (s.steward.reg Reg.ST_BOOT) 0 2 = 3 → answered op = true →
        s.out ++ [refused] <+: t.out) ∧
      (p.mode = .up → bad = false → bitOf h 20 = true → op = 0x10 ∨ 0x20 ≤ op → bitOf ((t.port n).reg Reg.GL_ERR) 4 = true ∧
        (t.port n).reg Reg.GL_DROP_COUNT = satAdd (p.reg Reg.GL_DROP_COUNT) 1 ∧
        (answered op = true → s.out ++ [refused] <+: t.out) ∧ (answered op = false → t.out = s.out))

/-- Retraining of a lane group (R382 to R385): RETRAIN takes a group in service out of its stripe and is acknowledged; RETRAINACK starts
its training; the outcome of its test goes to the other side, a clock that failed first being replaced by CLKS; once both outcomes are
known RESTART goes out; RESTART then puts the group back in service, or removes it, with a fault, where either side removed it. STRIPE
brings the map of the backing's new stripe of a role, which comes into force once the old stripe is closed: where it comes as a flit, when
the flit has come on every group of the old stripe in service; as a row of its own, at once (R379). ROLES brings a changed map of the port
into force, and otherwise keeps only the map of the other side (R387, R525). That a row which the state rules out changes nothing is the
model's choice (assumption 1). -/
def Obligations.LaneGroupsRetrainAndStripesChange : Prop :=
  (∀ (s : State) (n : PortIx) (g : Fin 8) (r : GroupTest) (outcome : BitVec 8), s.inReset = false →
    let p := s.port n
    let b := BitVec.ofNat 8 g.val
    let spare := fun send : Bool => fld (p.reg (spareReg send g.val)) (8 * (g.val % 4)) 8
    Completes (.retrain n b) s (fun t => s.onlyPortOut t n ∧ (p.inService g.val = false → t = s) ∧
      (p.inService g.val = true → (t.port n).inService g.val = false ∧ (t.port n).inRetrain g.val = true ∧
        (t.port n).reg Reg.GL_RETRAIN_COUNT = satAdd (p.reg Reg.GL_RETRAIN_COUNT) 1 ∧ bitOf ((t.port n).reg Reg.GL_ERR) 1 = true ∧
        .lctl n 2 [b] ∈ t.out)) ∧
    Completes (.retrainAck n b) s (fun t => s.onlyPort t n ∧ (p.inRetrain g.val = false → t.port n = p) ∧
      (p.inRetrain g.val = true → t.port n = p.setLane g.val { p.lane g.val with acked := true })) ∧
    Completes (.groupTestEnd n g r) s (fun t => (p.inRetrain g.val = false → t = s) ∧
      (p.inRetrain g.val = true → r.clk = false → p.removed g.val = false →
        s.onlyPortOut t n ∧
        (r.rx = [] → r.tx = [] → .lctl n 3 [b, 0] ∈ t.out ∧ ((t.port n).lane g.val).own = some 0 ∧
          (t.port n).reg (spareReg false g.val) = p.reg (spareReg false g.val)) ∧
        (∀ w, r.rx = [w] → r.tx = [] → spare false < 128 → w.val = 34 → .lctl n 3 [b, 0] ∈ t.out) ∧
        (∀ w, r.rx = [w] → r.tx = [] → spare false < 128 → w.val ≠ 34 → .lctl n 3 [b, 1] ∈ t.out ∧ ((t.port n).lane g.val).own = some 1 ∧
          fld ((t.port n).reg (spareReg false g.val)) (8 * (g.val % 4)) 8 = 128 + w.val) ∧
        (∀ w, r.rx = [] → r.tx = [w] → spare true < 128 → w.val ≠ 34 → .lctl n 3 [b, 1] ∈ t.out ∧
          fld ((t.port n).reg (spareReg true g.val)) (8 * (g.val % 4)) 8 = 128 + w.val) ∧
        ((spare false < 128 ∧ 2 ≤ r.rx.length) ∨ (spare true < 128 ∧ 2 ≤ r.tx.length) ∨
            (128 ≤ spare false ∧ ∃ w ∈ r.rx, w.val ≠ spare false % 64) ∨ (128 ≤ spare true ∧ ∃ w ∈ r.tx, w.val ≠ spare true % 64) →
          .lctl n 3 [b, 2] ∈ t.out ∧ ((t.port n).lane g.val).own = some 2)) ∧
      (p.inRetrain g.val = true → r.clk = true → r.rx = [] → r.tx = [] → fld (p.reg Reg.GL_STAT) 3 2 = 0 → p.removed g.val = false →
        .lctl n 3 [b, 0] ∈ t.out ∧ fld ((t.port n).reg Reg.GL_STAT) 3 2 = (if g.val < 4 then 1 else 2))) ∧
    Completes (.result n b outcome) s (fun t => s.onlyPortOut t n ∧ (p.inRetrain g.val = false → t = s) ∧
      (p.inRetrain g.val = true → ((t.port n).lane g.val).peer = some outcome ∧
        ((p.lane g.val).own = none → t.out = s.out) ∧ ((p.lane g.val).own ≠ none → .lctl n 4 [b] ∈ t.out))) ∧
    Completes (.restart n b) s (fun t => (p.inRetrain g.val = false ∨ (p.lane g.val).own = none ∨ (p.lane g.val).peer = none → t = s) ∧
      (p.inRetrain g.val = true → (p.lane g.val).own ≠ none → (p.lane g.val).peer ≠ none → (p.lane g.val).own ≠ some 2 → (p.lane g.val).peer ≠ some 2 → s.onlyPortOut t n ∧
        (t.port n).inService g.val = true ∧ (t.port n).inRetrain g.val = false ∧
        (t.port n).reg Reg.GL_ERR = p.reg Reg.GL_ERR) ∧
      (p.inRetrain g.val = true → (p.lane g.val).own ≠ none → (p.lane g.val).peer ≠ none → (p.lane g.val).own = some 2 ∨ (p.lane g.val).peer = some 2 → p.removed g.val = false →
        (t.port n).removed g.val = true ∧ (t.port n).inService g.val = false ∧ (t.port n).inRetrain g.val = false ∧
        bitOf ((t.port n).reg Reg.GL_ERR) 2 = true ∧
        ∃ q ∈ (t.port n).outq, ∃ x : FaultMsg, q.body = .ctrl (.fault x) ∧ x.code = 0x0B ∧ x.unit = 0xF))) ∧
  ((∀ (s : State) (n : PortIx) (role map : BitVec 8), s.inReset = false →
    let p := s.port n
    let r := role.toNat
    let takes := r < 4 ∧ map ≠ 0 ∧ (p.mode = .discover ∨ p.mode = .up)
    Completes (.stripe n role map) s fun t => (¬takes → t = s) ∧
      (takes → p.stripeFlits = true → t = s) ∧
      (takes → p.stripeFlits = false → p.backlog = [] → p.idleGroup = none → p.rxHeld = [] →
        (∀ k, k ≠ r → p.stripeDue.getD k none = none) → s.onlyPort t n ∧
        t.port n = { p with rxStripe := p.rxStripe.set r map.toNat, stripeIn := p.stripeIn.set r 0
                            stripeDue := p.stripeDue.set r none, stripeNew := p.stripeNew.set r 0 })) ∧
  (∀ (s : State) (n : PortIx) (g : Fin 8) (f : GlFlit) (r map : Nat), s.inReset = false →
    let p := s.port n
    p.inService g.val = true → p.mode = .discover ∨ p.mode = .up → fld f.sb 48 16 = (glCrc f.sb f.body).toNat →
    glSeq f = (p.lane g.val).seqIn → bitOf f.sb 35 = false → r < 4 → isMarker r f = true → fld f.body 8 8 = map →
    g.val ∈ p.peerStripe r → p.stripeDue.length = 4 → (∀ k, k ≠ r → p.stripeDue.getD k none = none) →
    (if p.rxHeld = [] then p.stripeDue.getD r none = none else p.stripeDue.getD r none = some map) →
    (∀ e ∈ p.rxHeld, isMarker r e.2 = true ∧ fld e.2.body 8 8 = map ∧ e.1 ≠ g ∧ e.1.val ∈ p.peerStripe r ∧ p.inService e.1.val = true) →
    (p.rxHeld.map (·.1)).Nodup → (∀ k ∈ p.peerStripe r, p.inService k = true → k = g.val ∨ ∃ e ∈ p.rxHeld, e.1.val = k) →
    Completes (.glFlitReceive n g f) s fun t => (t.port n).rxStripe = p.rxStripe.set r map ∧ (t.port n).rxHeld = [] ∧
      (t.port n).stripeIn = p.stripeIn.set r (p.stripeNew.getD r 0) ∧ (t.port n).stripeDue.getD r none = none ∧
      (t.port n).stripeFlits = true) ∧
  ∀ (s : State) (n : PortIx) (map : BitVec 16), s.inReset = false →
    let p := s.port n
    Completes (.roles n map) s fun t => s.onlyPortOut t n ∧ (p.mode = .down ∨ p.mode = .lock → t = s) ∧
      (p.mode ≠ .down → p.mode ≠ .lock → p.rolesPending = false → t.port n = { p with backingRoles := map } ∧ t.out = s.out) ∧
      (p.mode ≠ .down → p.mode ≠ .lock → p.rolesPending = true → (t.port n).backingRoles = map ∧
        (t.port n).rolesNow = (p.reg Reg.GL_ROLE).setWidth 16 ∧ (t.port n).rolesPending = false))

/-- A port goes DOWN when its PLL loses lock, when the other side's ALIVE falls, and at a TRN pulse (R386): requests without a response are
answered refused, the loom's in its next cycle, what was partly received, the replay buffer and the cache are emptied, and TRN's cause is
flagged. A DOWN port stays as it is; nothing but the port and the choice of the discovery port, which then announces the die (R388),
changes. A port's start (R386, R387): restart begins its PLL's lock with ALIVE high, or after three failed restarts within 1 ms leaves it
DOWN with a port fault; lock lets it train; the other side's ALIVE is seen; training that leaves every group in service grants the credits,
sends the role map and enters DISCOVER; training that leaves none keeps the port DOWN with a port fault. That a row which the state rules
out changes nothing is the model's choice (assumption 1). -/
def Obligations.PortsStartTrainAndGoDown : Prop :=
  (∀ (s : State) (n : PortIx), s.inReset = false →
    let p := s.port n
    let down := fun t : State =>
      t = { s with ports := t.ports, out := t.out, steward := { s.steward with discovery := t.steward.discovery },
                   loom := { s.loom with refused := s.loom.refused ++ (p.loomReqs.map (·.2)).filter Out.isLoom } } ∧
      (∀ m, m ≠ n → (t.steward.discovery = s.steward.discovery ∨ t.steward.discovery ≠ some m) → t.port m = s.port m) ∧
      (t.steward.discovery = s.steward.discovery ∨ t.steward.discovery = none → t.out = s.out) ∧
      (∀ m, t.steward.discovery ≠ s.steward.discovery → t.steward.discovery = some m →
        s.out ++ [Out.announce m t.announceBody] <+: t.out) ∧
      (t.port n).mode = .down ∧ (t.port n).aliveOut = false ∧ (t.port n).replay = [] ∧ (t.port n).backlog = [] ∧
      (t.port n).rxHeld = [] ∧ (t.port n).reqs = [] ∧ (t.port n).cache = [] ∧ (t.port n).prefetchers = [] ∧
      (t.port n).incoming = [] ∧ (t.port n).k2in = [] ∧ (t.port n).reg Reg.GL_ROLE = p.reg Reg.GL_ROLE ∧
      (∀ q ∈ p.outq, q ∈ (t.port n).outq) ∧
      ∀ r ∈ p.reqs, ∀ w ∈ r.waits, ∃ q ∈ (t.port n).outq, q.dst = .site w.1 ∧
        q.body = if r.write then .pdone w.2.1.rtag 1 else .gdata w.2.1.rtag 1 [] []
    Completes (.pllLockLoss n) s (fun t => (p.mode = .down → t = s) ∧
      (p.mode ≠ .down → down t ∧ (t.port n).reg Reg.GL_ERR = p.reg Reg.GL_ERR ||| at32 1 9)) ∧
    Completes (.aliveLoss n) s (fun t => (p.mode = .down → t = s) ∧
      (p.mode ≠ .down → down t ∧ (t.port n).reg Reg.GL_ERR = p.reg Reg.GL_ERR ||| at32 1 8)) ∧
    Completes (.trnPulse n) s fun t => (p.mode = .down → t = s) ∧
      (p.mode ≠ .down → down t ∧ (t.port n).reg Reg.GL_ERR = p.reg Reg.GL_ERR)) ∧
  (∀ (s : State) (n : PortIx) (offered : BitVec 8) (tests : List GroupTest), s.inReset = false →
    let p := s.port n
    let test := fun g => tests.getD g { rx := [], tx := [], clk := false }
    let recent := p.restartAt.filter fun k => decide (s.periods - k ≤ 100)
    Completes (.portRestart n) s (fun t => s.onlyPort t n ∧
      (p.mode ≠ .down ∨ p.stays = true ∨ p.hemmed = true ∨ s.portOn n = false → t.port n = p) ∧
      (p.mode = .down → p.stays = false → p.hemmed = false → s.portOn n = true →
        (recent.length < 3 → t.port n = { p with mode := .lock, aliveOut := true, restarts := recent.length + 1
                                                 restartAt := recent ++ [s.periods] }) ∧
        (3 ≤ recent.length → (t.port n).mode = .down ∧ (t.port n).stays = true ∧
          ∃ q ∈ (t.port n).outq, ∃ x : FaultMsg, q.body = .ctrl (.fault x) ∧ x.code = 0x0B ∧ x.unit = 0xF))) ∧
    Completes (.pllLock n) s (fun t => s.onlyPort t n ∧
      t.port n = if p.mode = .lock then { p with mode := .train } else p) ∧
    Completes (.aliveSeen n) s (fun t => s.onlyPort t n ∧
      t.port n = if p.mode = .lock ∨ p.mode = .train then { p with aliveIn := true } else p) ∧
    Completes (.portTrainEnd n offered tests) s (fun t => t.tiles = s.tiles ∧ t.loom = { s.loom with refused := t.loom.refused } ∧
      (∀ m, m ≠ n → (t.steward.discovery = s.steward.discovery ∨ t.steward.discovery ≠ some m) → t.port m = s.port m) ∧
      (¬(p.mode = .train ∧ p.aliveIn = true ∧ p.aliveOut = true) → t = s) ∧
      (p.mode = .train → p.aliveIn = true → p.aliveOut = true →
        ((∀ g, g < 8 → test g = { rx := [], tx := [], clk := false }) → 0x30 ≤ offered.toNat → s.steward.committed = false →
          (t.port n).mode = .discover ∧ (∀ g, g < 8 → (t.port n).inService g = true) ∧ (t.port n).reg Reg.GL_SPMAP0 = 0 ∧
          (t.port n).reg Reg.GL_ERR = p.reg Reg.GL_ERR ∧ (t.port n).version = s.steward.linkVersion offered 0xFF ∧
          (p.backlog = [] → (t.port n).credH = List.replicate 5 64 ∧ (t.port n).credD = List.replicate 5 256) ∧
          .lctl n 6 (leBytes 2 (p.reg Reg.GL_ROLE).toNat) ∈ t.out ∧
          (s.steward.discovery = none → t.steward.discovery = some n → .announce n t.announceBody ∈ t.out)) ∧
        ((∀ g, g < 8 → 2 ≤ (test g).rx.length ∧ (test g).clk = false) →
          (t.port n).mode = .down ∧ (t.port n).stays = true ∧ (∀ g, g < 8 → (t.port n).removed g = true) ∧
          bitOf ((t.port n).reg Reg.GL_ERR) 2 = true ∧
          ∃ q ∈ (t.port n).outq, ∃ x : FaultMsg, q.body = .ctrl (.fault x) ∧ x.code = 0x0B ∧ x.unit = 0xF))))

/-- Discovery (R388, R390, R391, R400): the discovery port announces the die until ASSIGN and COMMIT have been applied; ASSIGN gives the die
its slot and package, and a later one that differs is flagged, counted and changes nothing else; the first COMMIT of announced features, and
a later one that only clears features and does not raise the cap, sets them and the cap, is acknowledged, and admits every port of a common
version to UP; a COMMIT that is not allowed is flagged and answered with what is in force. COMMITACK names the version that the die applies:
the lower of its own and the cap (R389). That a row which the state rules out changes nothing is the model's choice (assumption 1). -/
def Obligations.DiscoveryAssignsAndAgrees : Prop :=
  (∀ s : State, s.inReset = false →
    Completes .announceResend s fun t => t.tiles = s.tiles ∧ t.steward = s.steward ∧
      (s.steward.discovery = none ∨ s.steward.discovered = true → t = s) ∧
      (∀ n, s.steward.discovery = some n → s.steward.discovered = false → s.out ++ [Out.announce n s.announceBody] <+: t.out)) ∧
  (∀ (s : State) (n : PortIx) (msgver : BitVec 8) (slot : BitVec 4) (pkg : BitVec 12), s.inReset = false →
    let ok := (s.port n).mode = .discover ∨ (s.port n).mode = .up
    let other := s.steward.assigned = true ∧ (s.steward.slot ≠ slot.toNat ∨ s.steward.pkg ≠ pkg.toNat)
    Completes (.assign n msgver slot pkg) s fun t => (¬ok → t = s) ∧
      (ok → msgver ≠ 1 ∨ other → s.onlyPort t n ∧ t.port n = ((s.port n).flagBit Reg.GL_ERR 6).count Reg.GL_DROP_COUNT 1) ∧
      (ok → msgver = 1 → ¬other → s.onlySteward t ∧ t.steward.assigned = true ∧ t.steward.slot = slot.toNat ∧
        t.steward.pkg = pkg.toNat ∧ fld (t.steward.reg Reg.GL_DISC) 8 8 = fld (s.steward.reg Reg.GL_DISC) 8 8 ∧
        (s.steward.committed = true → t.steward.discovered = true) ∧
        ∀ o, o ≠ Reg.GL_DISC → t.steward.reg o = s.steward.reg o)) ∧
  ∀ (s : State) (n : PortIx) (msgver cap : BitVec 8) (feat : BitVec 64), s.inReset = false →
    let ok := (s.port n).mode = .discover ∨ (s.port n).mode = .up
    let old := fld (s.steward.reg Reg.GL_DISC) 8 8
    let allowed := feat &&& ~~~s.steward.ownFeatures = 0 ∧
      (s.steward.committed = true → feat &&& ~~~s.steward.agreed = 0 ∧ cap.toNat ≤ old)
    Completes (.discoveryCommit n msgver cap feat) s fun t => t.tiles = s.tiles ∧ (¬ok → t = s) ∧
      (ok → msgver ≠ 1 → s.onlyPort t n ∧ t.port n = ((s.port n).flagBit Reg.GL_ERR 6).count Reg.GL_DROP_COUNT 1) ∧
      (ok → msgver = 1 → allowed → t.steward.committed = true ∧
        s.out ++ [Out.commitAck n (s.steward.applied cap.toNat) feat] <+: t.out ∧ t.steward.agreed = feat ∧
        fld (t.steward.reg Reg.GL_DISC) 8 8 = cap.toNat ∧
        (∀ m, (s.port m).mode = .discover → 0x30 ≤ (s.steward.linkVersion (s.port m).offered cap).toNat →
          (t.port m).mode = .up ∧ (t.port m).version = s.steward.linkVersion (s.port m).offered cap) ∧
        ∀ m, (s.port m).mode ≠ .discover → (t.port m).mode = (s.port m).mode) ∧
      (ok → msgver = 1 → ¬allowed → bitOf ((t.port n).reg Reg.GL_ERR) 6 = true ∧ t.steward = s.steward ∧
        s.out ++ [Out.commitAck n (s.steward.applied old) s.steward.agreed] <+: t.out)

/-- K2 transit (R392, R395): a whole packet of one flit goes over the weft to the port its header names if that port is UP, and is
discarded, flagged and counted otherwise; without the feature it is discarded and counted. At its destination it leaves as K2 flits, or is
discarded, flagged and counted where the port is not UP. That a flit at a port that is not UP changes nothing is the model's choice
(assumption 1). -/
def Obligations.K2PacketsCrossTheWeft : Prop :=
  (∀ (s : State) (n : PortIx) (ftarg : BitVec 16) (body : List Byte), s.inReset = false →
    let p := s.port n
    let count := fld ftarg 6 3 + 1
    Completes (.k2Flit n ftarg body) s fun t => s.onlyPort t n ∧ (p.mode ≠ .up → t = s) ∧
      (p.mode = .up → s.steward.feature 2 = false → t.port n = p.count Reg.GL_DROP_COUNT 1) ∧
      (p.mode = .up → s.steward.feature 2 = true → fld ftarg 4 2 = 0 → count ≤ 2 →
        (∀ d : PortIx, fld ftarg 9 7 = d.val → (s.port d).mode = .up →
          t.port n = { p with k2in := [], outq := p.outq ++
            [{ src := .port n, dst := .port d, cls := 7, flits := count
               body := .k2 (BitVec.ofNat 24 (d.val <<< 17 ||| (count - 1) <<< 14)) ((sliceBytes body 0 128).take (64 * count)) }] }) ∧
        ((∀ d : PortIx, fld ftarg 9 7 = d.val → (s.port d).mode ≠ .up) →
          bitOf ((t.port n).reg Reg.GL_ERR) 3 = true ∧ (t.port n).reg Reg.GL_DROP_COUNT = satAdd (p.reg Reg.GL_DROP_COUNT) 1 ∧
          (t.port n).outq = p.outq))) ∧
  ∀ (s : State) (n m : PortIx) (arg : BitVec 24) (body : List Byte), s.inReset = false →
    s.mayGet (fun p => p.dst = .port n && p.src = .port m && p.body = .k2 arg body) = true →
    Completes (.k2Deliver n m arg body) s fun t => t.tiles = s.tiles ∧ t.steward = s.steward ∧
      ((s.port n).mode ≠ .up → t.out = s.out ∧ bitOf ((t.port n).reg Reg.GL_ERR) 3 = true ∧
        (t.port n).reg Reg.GL_DROP_COUNT = satAdd ((s.port n).reg Reg.GL_DROP_COUNT) 1) ∧
      ((s.port n).mode = .up → ∀ k, 2 * k < fld arg 14 3 + 1 →
        .k2 n (BitVec.ofNat 16 (fld arg 17 7 <<< 9 ||| fld arg 14 3 <<< 6 ||| k <<< 4)) (sliceBytes body (128 * k) 128) ∈ t.out)

/-! ## Reach -/

/-- A tile's read at a port (R409, R411 to R413, R415, R416): refused at once where the port is not UP; answered from the cache on a hit;
joined to the requests that wait where its sector is being filled; sent on as it was asked for where it is not cacheable; the whole sector
asked for on a miss. One that needs a read of its own waits while 4,096 requests have no answer. -/
def Obligations.ReachReadsAreAnsweredFilledOrSentOn : Prop :=
  ∀ (s : State) (n : PortIx) (src : Site) (h : ReachHdr) (ecc : Option EccKind), s.inReset = false →
    s.mayGet (fun p => p.dst = .port n && p.src = .tile src && p.body = .greq h) = true →
    let p := s.port n
    let sec := h.addr.toNat / 512
    let held := p.sector? sec (hdrStream h)
    let answered := fun (t : State) (st : BitVec 3) (d : List Byte) =>
      ∃ q ∈ (t.port n).outq, q.dst = Dest.site src ∧ q.body = PktBody.gdata h.rtag st d []
    Completes (.greq n src h ecc) s fun t => t.tiles = s.tiles ∧ t.loom = s.loom ∧ t.steward = s.steward ∧
      (∀ m, m ≠ n → t.port m = s.port m) ∧
      (p.mode ≠ .up → t.out = s.out ∧ answered t 1 [] ∧ (t.port n).reqs = p.reqs) ∧
      (p.mode = .up → 4096 ≤ p.tagged → p.served s.steward h ecc = false → t = s) ∧
      (p.mode = .up → p.tagged < 4096 → p.cacheable s.steward h = none →
        ∃ r tag, (t.port n).reqs = p.reqs ++ [r] ∧ r.tag = tag ∧ r.fill = false ∧ r.write = false ∧ r.waits.map (·.2.1) = [h] ∧
          s.out ++ [Out.rd n tag h.addr (BitVec.ofNat 10 h.len.toNat)] <+: t.out) ∧
      (p.mode = .up → p.cacheable s.steward h ≠ none → ∀ x, held = some x → ecc ≠ some .ue →
        t.out = s.out ∧ answered t 0 (sliceBytes x.data (h.addr.toNat % 512) (h.len.toNat + 1)) ∧ (t.port n).reqs = p.reqs ∧
        (t.port n).reg Reg.GL_RCHIT_COUNT = satAdd (p.reg Reg.GL_RCHIT_COUNT) 1 ∧
        (t.port n).reg Reg.GL_RCMISS_COUNT = p.reg Reg.GL_RCMISS_COUNT ∧
        (t.port n).reg Reg.GL_RCECC_COUNT = satAdd (p.reg Reg.GL_RCECC_COUNT) (if ecc = some .ce then 1 else 0)) ∧
      (p.mode = .up → p.cacheable s.steward h ≠ none → held = none → ∀ r, p.filling sec (hdrStream h) = some r →
        t.out = s.out ∧ (t.port n).reg Reg.GL_RCMISS_COUNT = satAdd (p.reg Reg.GL_RCMISS_COUNT) 1 ∧ (t.port n).cache = p.cache ∧
        ∃ c, (t.port n).reqs = p.reqs.map fun x => if x.tag = r.tag then { x with waits := x.waits ++ [(src, h, c)] } else x) ∧
      (p.mode = .up → p.tagged < 4096 → p.cacheable s.steward h ≠ none → held = none →
        p.filling sec (hdrStream h) = none → p.setFull sec = false →
        (t.port n).reg Reg.GL_RCMISS_COUNT = satAdd (p.reg Reg.GL_RCMISS_COUNT) 1 ∧
        ∃ r tag, (t.port n).reqs = p.reqs ++ [r] ∧ r.tag = tag ∧ r.fill = true ∧ r.install = true ∧ r.addr = 512 * sec ∧
          r.waits.map (·.2.1) = [h] ∧ s.out ++ [Out.rd n tag (BitVec.ofNat 60 (512 * sec)) 511] <+: t.out)

/-- A tile's write at a port (R409, R414) invalidates the sectors it touches and is sent on. The backing's answer to a read goes to every
request that waited, and a whole, clean fill that nothing has invalidated is installed (R413, R415); its answer to a write goes to the
writer (R408). A TAG that an answer frees goes to the oldest request of the loom's or the steward's that waits for one (R409). That an
answer to no request changes nothing is the model's choice (assumption 1). -/
def Obligations.ReachWritesAndResponsesReachTheTiles : Prop :=
  (∀ (s : State) (n : PortIx) (src : Site) (h : ReachHdr) (data : List Byte) (poison : List Bool), s.inReset = false →
    s.mayGet (fun p => p.dst = .port n && p.src = .tile src && p.body = .preq h data poison) = true →
    let p := s.port n
    Completes (.preq n src h data poison) s fun t => t.tiles = s.tiles ∧ t.loom = s.loom ∧ (∀ m, m ≠ n → t.port m = s.port m) ∧
      (p.mode ≠ .up → t.out = s.out ∧ (t.port n).cache = p.cache ∧
        ∃ q ∈ (t.port n).outq, q.dst = Dest.site src ∧ q.body = .pdone h.rtag 1) ∧
      (p.mode = .up → 4096 ≤ p.tagged → t = s) ∧
      (p.mode = .up → p.tagged < 4096 →
        (∀ x, x ∈ (t.port n).cache ↔
          x ∈ p.cache ∧ ¬(h.addr.toNat / 512 ≤ x.addr ∧ x.addr ≤ (h.addr.toNat + h.len.toNat) / 512)) ∧
        ∃ r tag, r ∈ (t.port n).reqs ∧ r.tag = tag ∧ r.write = true ∧ r.waits.map (·.2.1) = [h] ∧
          s.out ++ [Out.wr n tag h.addr (sliceBytes data 0 (h.len.toNat + 1)) (wrBeats h poison)] <+: t.out)) ∧
  (∀ (s : State) (n : PortIx) (tag : BitVec 12) (status : BitVec 3) (data : List Byte) (bad : List Bool), s.inReset = false →
    let p := s.port n
    let waiting := p.reqs.find? fun r => decide (r.tag = tag) && !r.write
    let quiet := ∀ e ∈ p.loomReqs, e.1.isSome = true
    Completes (.fillResponse n tag status data bad) s fun t => s.onlyPortOut t n ∧ (quiet → s.onlyPort t n) ∧
      (waiting = none → quiet → t.port n = p) ∧
      ∀ r, waiting = some r → (t.port n).reqs = p.reqs.erase r ∧ (t.port n).regs = p.regs ∧
        (p.tagged ≤ 4096 → ∀ o, p.loomReqs.find? (fun e => e.1.isNone) = some (none, o) → ∃ k, (some k, o) ∈ (t.port n).loomReqs) ∧
        (∀ w ∈ r.waits, ∃ q ∈ (t.port n).outq, q.dst = .site w.1 ∧ q.body = .gdata w.2.1.rtag status
          (if status = 0 then sliceBytes data (w.2.1.addr.toNat - r.addr) (w.2.1.len.toNat + 1) else [])
          (if status = 0 then rdFlits w.2.1 (w.2.1.addr.toNat - r.addr) bad else [])) ∧
        (if r.fill = true ∧ r.install = true ∧ status = 0 ∧ (∀ b ∈ bad, b = false) then
          { addr := r.addr / 512, stream := r.stream, data := sliceBytes data 0 512 } ∈ (t.port n).cache
        else (t.port n).cache = p.cache)) ∧
  ∀ (s : State) (n : PortIx) (tag : BitVec 12) (status : BitVec 3), s.inReset = false →
    let p := s.port n
    let waiting := p.reqs.find? fun r => decide (r.tag = tag) && r.write
    let quiet := ∀ e ∈ p.loomReqs, e.1.isSome = true
    Completes (.wrack n tag status) s fun t => s.onlyPortOut t n ∧ (quiet → s.onlyPort t n) ∧ (waiting = none → quiet → t.port n = p) ∧
      ∀ r, waiting = some r → (t.port n).reqs = p.reqs.erase r ∧ (t.port n).cache = p.cache ∧ (t.port n).regs = p.regs ∧
        ∀ w ∈ r.waits, ∃ q ∈ (t.port n).outq, q.dst = .site w.1 ∧ q.body = .pdone w.2.1.rtag status

/-- Answers at a tile (R406): an accepted piece that is the whole of an unchanged GET is written to its rows; every answer counts toward
its command's completion, and a refused one marks it; the write results of a scan count toward the scan, and a refused one is reported.
That an answer to no request changes nothing is the model's choice (assumption 1). -/
def Obligations.ReachAnswersReachTheirCommands : Prop :=
  (∀ (s : State) (n : Site) (rtag : BitVec 12) (status : BitVec 3) (data : List Byte) (poison : List Bool), s.inReset = false →
    s.mayGet (fun p => p.dst = .site n && p.body = .gdata rtag status data poison) = true →
    let a := s.tile n
    let mine := a.sh.out.find? fun o => decide (o.rtag = rtag)
    Completes (.gdata n rtag status data poison) s fun t => (∀ m, m ≠ n → t.tile m = s.tile m) ∧
      t.loom = s.loom ∧ t.ports = s.ports ∧ t.out = s.out ∧
      (mine = none → t.tile n = a) ∧
      ∀ o stamp g, mine = some o → o.user = .cmd stamp → a.sh.gets.find? (fun g => decide (g.cmd.stamp = stamp)) = some g →
        (∀ r ∈ (a.unit .sh).running, r.cmd.stamp = stamp → ∃ r' ∈ ((t.tile n).unit .sh).running, r'.cmd = r.cmd ∧
          r'.left = r.left - 1 ∧ (status ≠ 0 → r'.refused = true)) ∧
        (status ≠ 0 → 2 ≤ g.left → g.parts = [] → (t.tile n).sp.mem = a.sp.mem) ∧
        let row := if shPlane g.cmd then shLscl g.cmd else shLrow g.cmd
        let served := a.inService row = true ∧ a.holdsEng (if shBulk g.cmd then 7 else 2) = false
        (shSame g.cmd = true → sameBytes g.cmd = o.len → 0 < o.len → o.len ≤ 512 → o.goff = 0 → g.parts = [] → g.done = [] →
          g.left = 1 → status = 0 →
          ∀ r i, i < 512 → (t.tile n).spByte r i =
            if r = row ∧ i < o.len ∧ served then (sliceBytes data 0 o.len).getD i 0 else a.spByte r i)) ∧
  ∀ (s : State) (n : Site) (rtag : BitVec 12) (status : BitVec 3), s.inReset = false →
    s.mayGet (fun p => p.dst = .site n && p.body = .pdone rtag status) = true →
    let a := s.tile n
    let mine := a.sh.out.find? fun o => decide (o.rtag = rtag)
    Completes (.pdone n rtag status) s fun t => t = { s with tiles := t.tiles, net := t.net } ∧ (∀ m, m ≠ n → t.tile m = s.tile m) ∧
      (t.tile n).sp = a.sp ∧ (t.tile n).core = a.core ∧
      (mine = none → t.tile n = a) ∧
      (∀ o stamp, mine = some o → o.user = .cmd stamp → ((t.tile n).unit .sh).running = (a.unit .sh).running.map fun r =>
        if r.cmd.stamp = stamp then { r with left := r.left - 1, refused := r.refused || status != 0 } else r) ∧
      (∀ o, mine = some o → o.user = .scan → (t.tile n).freeze.scanLeft = a.freeze.scanLeft - 1 ∧
        (status ≠ 0 → bitOf ((t.tile n).reg Reg.TC_SCAN_STAT) 10 = true))

/-- A prefetcher's next sector that is neither held nor asked for is asked for, while the port is UP, cache and prefetchers are enabled,
fewer prefetches are out than PFCFG allows and no demand read waits (R418). A prefetcher that has not advanced for 20 µs is freed (R417).
INV (R410, R414): the sectors of its range leave the cache and are counted, and fills of them in flight are not installed, but after a
failed boot it is refused (R515); INVACK goes out once neither is left. At the end of a stream its sectors and prefetchers leave the ports
it waits for (R417, R444). Writes of a port's cache and prefetcher registers: GL_RCCFG and every GL_RORNGn field take the value, empty the
cache, free every prefetcher and set FLUSH, but a range that would pass the end of the address space is refused; GL_PFCFG takes its fields,
refuses a reserved one, frees every prefetcher and leaves the cache. That a row which the state rules out changes nothing is the model's
choice (assumption 1). -/
def Obligations.CachesArePrefetchedAndInvalidated : Prop :=
  (∀ (s : State) (n : PortIx) (k : Fin 16), s.inReset = false →
    let p := s.port n
    let may := p.mode = .up ∧ fld (p.reg Reg.GL_RCCFG) 0 2 = 3 ∧ p.demandWaits = false ∧ p.tagged < 4096 ∧
      (p.reqs.filter fun r => r.prefetch).length < fld (p.reg Reg.GL_PFCFG) 16 8
    Completes (.prefetchIssue n) s (fun t => s.onlyPortOut t n ∧ (¬may ∨ p.nextPrefetch = none → t = s) ∧
      (may → ∀ sec st, p.nextPrefetch = some (sec, st) →
        (t.port n).reg Reg.GL_PFFILL_COUNT = satAdd (p.reg Reg.GL_PFFILL_COUNT) 1 ∧ (t.port n).cache = p.cache ∧
        ∃ r tag, (t.port n).reqs = p.reqs ++ [r] ∧ r.tag = tag ∧ r.prefetch = true ∧ r.addr = 512 * sec ∧ r.stream = st ∧ r.waits = [] ∧
          s.out ++ [Out.rd n tag (BitVec.ofNat 60 (512 * sec)) 511] <+: t.out)) ∧
    Completes (.prefetcherTimeout n k) s fun t => s.onlyPort t n ∧
      (∀ x, p.prefetcher k.val = some x → x.used + 2 ≤ s.periods → (t.port n).prefetcher k.val = none ∧
        ∀ j, j ≠ k.val → (t.port n).prefetcher j = p.prefetcher j) ∧
      (∀ x, p.prefetcher k.val = some x → s.periods < x.used + 2 → t.port n = p) ∧
      (t.port n).cache = p.cache ∧ (t.port n).reqs = p.reqs) ∧
  ((∀ (s : State) (n : PortIx) (tag : BitVec 12) (addr : GAddr) (nsec : BitVec 32), s.inReset = false →
    let p := s.port n
    let lo := addr.toNat / 512
    let hi := lo + (if p.version = 0x31 then nsec.toNat else 0)
    let hit := fun a => lo ≤ a ∧ a ≤ hi
    Completes (.inv n tag addr nsec) s fun t => s.onlyPort t n ∧
      (fld (s.steward.reg Reg.ST_BOOT) 0 2 = 3 ∨ p.mode ≠ .up ∨ 65536 ≤ nsec.toNat → t.port n = p) ∧
      (fld (s.steward.reg Reg.ST_BOOT) 0 2 ≠ 3 → p.mode = .up → nsec.toNat < 65536 → (t.port n).cache = p.cache.filter (fun x => !decide (hit x.addr)) ∧
        (t.port n).invs = p.invs ++ [(tag, lo, hi)] ∧ (t.port n).outq = p.outq ∧
        (t.port n).reg Reg.GL_RCINV_COUNT =
          satAdd (p.reg Reg.GL_RCINV_COUNT) (p.cache.filter fun x => decide (hit x.addr)).length ∧
        ∀ r ∈ (t.port n).reqs, r.fill = true → hit (r.addr / 512) → r.install = false)) ∧
  (∀ (s : State) (n : PortIx) (tag : BitVec 12), s.inReset = false →
    let p := s.port n
    let mine := p.invs.find? fun e => decide (e.1 = tag)
    Completes (.invack n tag) s fun t => s.onlyPortOut t n ∧ (mine = none → t = s) ∧
      ∀ e, mine = some e →
        let left := (∃ x ∈ p.cache, e.2.1 ≤ x.addr ∧ x.addr ≤ e.2.2) ∨
          ∃ r ∈ p.reqs, r.fill = true ∧ r.install = true ∧ e.2.1 ≤ r.addr / 512 ∧ r.addr / 512 ≤ e.2.2
        (left → t = s) ∧ (¬left → (t.port n).invs = p.invs.erase e ∧ s.out ++ [Out.invack n tag] <+: t.out)) ∧
  ∀ (s : State) (n : PortIx) (st : StreamNo), s.inReset = false →
    Completes (.streamEndInvalidate n st) s fun t =>
      (n ∉ (s.ctx st).portsLeft → t = s) ∧
      (n ∈ (s.ctx st).portsLeft → (s.ctx st).commits = [] → (t.port n).cache = (s.port n).cache.filter (fun x => decide (x.stream ≠ st)) ∧
        ∀ k, k < 16 → ∀ x, (t.port n).prefetcher k = some x → x.stream ≠ st ∧ (s.port n).prefetcher k = some x)) ∧
  ((∀ (s : State) (p : PortIx) (v : Word), s.inReset = false → s.portOn p = true →
    Completes (.cacheConfigWrite p v) s fun t => s.onlyPort t p ∧ fld ((t.port p).reg Reg.GL_RCCFG) 0 2 = fld v 0 2 ∧
      (t.port p).cache = [] ∧ (t.port p).prefetchers = [] ∧ bitOf ((t.port p).reg Reg.GL_RCERR) 0 = true ∧
      ∀ r ∈ (t.port p).reqs, r.install = false) ∧
  (∀ (s : State) (p : PortIx) (n : Fin 16) (k : Fin 3) (v : Word), s.inReset = false → s.portOn p = true →
    let o := Reg.GL_RORNG + 16 * n.val + 4 * k.val
    let new := mergeMask (if k = 0 then 0xFFFFFFFF else if k = 1 then 0xBFFF00FF else 0xFFFFF) ((s.port p).reg o) v
    let fits := (((s.port p).setReg o new).rangeOf n.val).2 < 2 ^ 60
    Completes (.rangeConfigWrite p n k v) s fun t => s.onlyPort t p ∧ (t.port p).cache = [] ∧ (t.port p).prefetchers = [] ∧
      bitOf ((t.port p).reg Reg.GL_RCERR) 0 = true ∧
      (if fits then (t.port p).reg o = new
       else (t.port p).reg o = mergeMask (if k = 1 then 0xBFFF0000 else 0) ((s.port p).reg o) v ∧
         bitOf ((t.port p).reg Reg.GL_RCERR) 4 = true)) ∧
  ∀ (s : State) (p : PortIx) (v : Word), s.inReset = false → s.portOn p = true →
    Completes (.prefetchConfigWrite p v) s fun t => s.onlyPort t p ∧ (t.port p).prefetchers = [] ∧
      (t.port p).cache = (s.port p).cache ∧
      fld ((t.port p).reg Reg.GL_PFCFG) 0 6 =
        (if 1 ≤ fld v 0 6 ∧ fld v 0 6 ≤ 32 then fld v 0 6 else fld ((s.port p).reg Reg.GL_PFCFG) 0 6) ∧
      fld ((t.port p).reg Reg.GL_PFCFG) 8 5 = (if 1 ≤ fld v 8 5 then fld v 8 5 else fld ((s.port p).reg Reg.GL_PFCFG) 8 5) ∧
      fld ((t.port p).reg Reg.GL_PFCFG) 16 8 = (if 1 ≤ fld v 16 8 then fld v 16 8 else fld ((s.port p).reg Reg.GL_PFCFG) 16 8))

/-- The backing's read or write of this die's scratchpads (R403, R419): answered UNMAPPED where a byte lies in none, REFUSED where its
site is fenced; one that lies in one row goes to its tile. The tile's answers complete it: the worst status, and the bytes of a read. A
remote access at a tile (R246, R247, R249, R252): held while a slice tests its bank (R496); refused by a fenced, sleeping or hemmed
tile; refused, flagged and counted where no open window admits its row, origin and direction; otherwise the bytes of the row are read,
or written and acknowledged, a write to a bank out of service being held, and its answer with it, until the bank's wake ends (R251). That a
row which the state rules out changes nothing is the model's choice (assumption 1). -/
def Obligations.RemoteAccessesReachTheScratchpad : Prop :=
  ((∀ (s : State) (n : PortIx) (tag : BitVec 12) (addr : GAddr) (len : BitVec 10) (orig : Bool) (bad : List Bool)
    (data : List Byte), s.inReset = false → data.length = len.toNat + 1 →
    let p := s.port n
    let shut := p.mode ≠ .up ∨ fld (s.steward.reg Reg.ST_BOOT) 0 2 = 3 ∨ 256 ≤ p.incoming.length
    let site := s.steward.ownSite addr.toNat (len.toNat + 1)
    let frame := fun t : State => s.onlyPortOut t n ∧ (t.port n).cache = p.cache ∧ (t.port n).reqs = p.reqs
    let hdr := fun x : BitVec 12 =>
      { rtag := x, addr := addr, len := BitVec.ofNat 9 len.toNat, stream := 0, sv := false, orig := orig : ReachHdr }
    Completes (.incomingRd n tag addr len orig) s (fun t => frame t ∧ (shut → t = s) ∧
      (¬shut → site = none → s.out ++ [Out.rdrsp n tag orig 3 [] []] <+: t.out) ∧
      (¬shut → ∀ m, site = some m → s.steward.off (s.steward.darned m).val = true →
        s.out ++ [Out.rdrsp n tag orig 1 [] []] <+: t.out) ∧
      (¬shut → ∀ m x, site = some m → s.steward.off (s.steward.darned m).val = false → p.partTags 1 = [x] →
        addr.toNat % 512 + (len.toNat + 1) ≤ 512 →
        t.out = s.out ∧ (∃ r, (t.port n).incoming = p.incoming ++ [r] ∧ r.tag = tag ∧ r.write = false ∧ r.left = [x]) ∧
        (t.port n).outq = p.outq ++ [{ src := .port n, dst := .site m, cls := 6, flits := 1, body := PktBody.rrd (hdr x) : Pkt }])) ∧
    Completes (.incomingWr n tag addr orig data bad) s (fun t => frame t ∧ (shut → t = s) ∧
      (¬shut → site = none → s.out ++ [Out.wrack n tag orig 3] <+: t.out) ∧
      (¬shut → ∀ m, site = some m → s.steward.off (s.steward.darned m).val = true → s.out ++ [Out.wrack n tag orig 1] <+: t.out) ∧
      (¬shut → ∀ m x, site = some m → s.steward.off (s.steward.darned m).val = false → p.partTags 1 = [x] →
        addr.toNat % 512 + (len.toNat + 1) ≤ 512 →
        t.out = s.out ∧ (∃ r, (t.port n).incoming = p.incoming ++ [r] ∧ r.tag = tag ∧ r.write = true ∧ r.left = [x]) ∧
        ∃ q, (t.port n).outq = p.outq ++ [q] ∧ q.dst = .site m ∧ q.body = PktBody.rwr (hdr x) data (beatsHit bad 0 (len.toNat + 1))))) ∧
  ∀ (s : State) (n : PortIx) (rtag : BitVec 12) (status : BitVec 3) (data : List Byte) (poison : Bool), s.inReset = false →
    s.mayGet (fun p => p.dst = .port n && p.body = .rrsp rtag status data poison) = true →
    let p := s.port n
    let mine := p.incoming.find? fun r => r.left.contains rtag
    Completes (.rrsp n rtag status data poison) s fun t => t.tiles = s.tiles ∧ t.steward = s.steward ∧
      (∀ m, m ≠ n → t.port m = s.port m) ∧ (mine = none → t.port n = p ∧ t.out = s.out) ∧
      ∀ r, mine = some r →
        let worst := if r.status.toNat < status.toNat then status else r.status
        (r.left ≠ [rtag] → t.out = s.out) ∧
        (r.left = [rtag] → (t.port n).incoming = p.incoming.erase r ∧
          (r.write = true → s.out ++ [Out.wrack n r.tag r.orig worst] <+: t.out) ∧
          (r.write = false → worst ≠ 0 → s.out ++ [Out.rdrsp n r.tag r.orig worst [] []] <+: t.out) ∧
          (r.write = false → worst = 0 → r.parts = [] → r.order = [rtag] →
            ∃ bad, s.out ++ [Out.rdrsp n r.tag r.orig 0 data bad] <+: t.out ∧ ∀ k, 128 * k < data.length → bad.getD k false = poison))) ∧
  (∀ (s : State) (n : Site) (port : PortIx) (h : ReachHdr) (data : List Byte) (poison : Bool) (ph : Phys), s.inReset = false →
    let a := s.tile n
    let b := a.phys ph
    let row := h.addr.toNat / 512 % 4096
    let off := h.addr.toNat % 512
    let len := h.len.toNat + 1
    let served := a.inService row = true ∧ a.holdsEng 3 = false
    let shut := s.steward.site n.val ≠ 1 ∨ a.asleep = true ∨ a.hemmed = true
    let answered := fun (t : State) (st : BitVec 3) (d : List Byte) (bad : Bool) =>
      ∃ q ∈ (t.tile n).outq, q.dst = Dest.port port ∧ q.body = PktBody.rrsp h.rtag st d bad
    let frame := fun t : State => t = { s with tiles := t.tiles, net := t.net } ∧ (∀ m, m ≠ n → t.tile m = s.tile m) ∧
      (t.tile n).core = a.core ∧ (t.tile n).trf = a.trf
    let refusals := fun (t : State) (write : Bool) =>
      (shut → answered t 1 [] false ∧ (t.tile n).sp = a.sp ∧ (t.tile n).regs = a.regs) ∧
      (¬shut → a.admits row h.orig write = false → answered t 1 [] false ∧ (t.tile n).sp = a.sp ∧
        bitOf ((t.tile n).reg Reg.SP_ERR) 6 = true ∧ (t.tile n).reg Reg.SP_WINREF_COUNT = satAdd (a.reg Reg.SP_WINREF_COUNT) 1)
    let gets := fun b : PktBody => s.mayGet (fun p => p.dst = .site n && p.src = .port port && p.body = b) = true
    (s.bankTested n row = true → Completes (.rrd n port h ph) s (fun t => t = s) ∧
      Completes (.rwr n port h data poison) s (fun t => t = s)) ∧
    (s.bankTested n row = false → gets (.rrd h) → Completes (.rrd n port h ph) s fun t => frame t ∧ refusals t false ∧ (t.tile n).sp.mem = a.sp.mem ∧
      (¬shut → a.admits row h.orig false = true → b.inService row = true →
        answered t 0 (sliceBytes (b.rowBytes row) off len) ((b.checkRow n row).rowPoison row)) ∧
      (¬shut → a.admits row h.orig false = true → b.inService row = false →
        ∃ d, answered t 0 d true ∧ bitOf ((t.tile n).reg Reg.SP_ERR) 7 = true)) ∧
    (s.bankTested n row = false → gets (.rwr h data poison) → Completes (.rwr n port h data poison) s fun t => frame t ∧ refusals t true ∧
      (¬shut → a.admits row h.orig true = true → off + len ≤ 512 → (served → answered t 0 [] false) ∧
        (∀ r i, i < 512 → (t.tile n).spByte r i =
          if r = row ∧ off ≤ i ∧ i < off + len ∧ served then (sliceBytes data 0 len).getD (i - off) 0
          else a.spByte r i) ∧
        (served → poison = true → (t.tile n).rowPoison row = true) ∧
        (¬served → (t.tile n).outq = a.outq ∧ ∃ w ∈ (t.tile n).sp.held, w.row = row ∧ w.off = off ∧
          ∃ q, w.reply = some q ∧ q.dst = Dest.port port ∧ q.body = PktBody.rrsp h.rtag 0 [] false))))

/-! ## The loom -/

/-- DOORBELL and EVENT (R431, R434, R446, R447, R449): of a stream that is neither RUNNING nor HALTED they are bad messages; a PIDX that is
not newer changes nothing; one beyond the ring is an error; a new one makes a stream that waits for nothing ready. An EVENT adds to EVT. -/
def Obligations.DoorbellsAndEventsReachTheirStream : Prop :=
  ∀ (s : State) (n : StreamNo) (v : Word), s.inReset = false →
    let c := s.ctx n
    let live := c.mode = .running ∨ c.mode = .halted
    let badMsg := fun t : State => t.loom = s.loom ∧ bitOf (t.steward.reg Reg.LM_ERR) 3 = true ∧
      t.steward.reg Reg.LM_DROP_COUNT = satAdd (s.steward.reg Reg.LM_DROP_COUNT) 1
    let newer := (v - c.pidx).toNat < 2 ^ 31
    let fits := (v - c.cidx).toNat ≤ 2 ^ c.rlog
    (s.getsMsg 1 n (fun a _ => a == v) → Completes (.doorbell n v) s fun t => (∀ m, m ≠ n → t.ctx m = s.ctx m) ∧ (¬live → badMsg t) ∧
      (live → ¬newer → t.loom = s.loom ∧ t.steward = s.steward) ∧
      (live → newer → ¬fits → bitOf (t.steward.reg Reg.LM_ERR) 0 = true ∧ (t.ctx n).errs = min 0xFFFF (c.errs + 1) ∧
        (t.ctx n).lastCls = 5 ∧ (t.ctx n).pidx = c.pidx ∧ (c.policy = true → (t.ctx n).mode = .halted)) ∧
      (live → newer → fits → t.ctx n = { c with pidx := v } ∧ t.steward = s.steward ∧ t.out = s.out ∧
        (({ c with pidx := v } : Ctx).work = true → n ∈ t.loom.ready))) ∧
    (s.getsMsg 2 n (fun a _ => a == v) → Completes (.event n v) s fun t => (∀ m, m ≠ n → t.ctx m = s.ctx m) ∧ t.tiles = s.tiles ∧ t.out = s.out ∧
      (v = 0 ∨ ¬live → badMsg t) ∧
      (v ≠ 0 → live → (t.ctx n).evt = c.evt + v ∧ t.steward = s.steward ∧
        (c.park = .event → (t.ctx n).park = .none) ∧ (c.park ≠ .event → t.loom.ready = s.loom.ready)))

/-- START, and the context record it has read (R431, R432): a START of an address that is no record's is counted as a bad message; one of
a stream that is not IDLE, or that the die does not take now, is answered by STATE; otherwise the record is read. An accepted record sets
up the context, which runs; another is flagged and reported, and the stream stays as it was. KILL, the end of the teardown, and RESUME
(R431, R449, R450): KILL of a running, halted or ending stream makes it KILLING and reports it, and aborts its descriptor; once the
teardown has ended the context is IDLE; RESUME runs a halted stream of which no tile is hemmed. Elsewhere KILL and RESUME are bad
messages. That a record which was not asked for, and the end of a teardown that has not ended, change nothing else is the model's choice
(assumption 1). -/
def Obligations.StreamsStartRunAndEnd : Prop :=
  ((∀ (s : State) (n : StreamNo) (addr : BitVec 64), s.inReset = false → s.getsMsg 3 n (fun _ a => a == addr) →
    let c := s.ctx n
    let bad := addr.toNat % 64 ≠ 0 ∨ 2 ^ 60 ≤ addr.toNat
    let turned := c.mode ≠ .idle ∨ c.park ≠ .none ∨ s.steward.noStart = true
    Completes (.start n addr) s fun t => t.tiles = s.tiles ∧
      (bad → t.loom = s.loom ∧ t.out = s.out ∧ bitOf (t.steward.reg Reg.LM_ERR) 3 = true ∧
        t.steward.reg Reg.LM_DROP_COUNT = satAdd (s.steward.reg Reg.LM_DROP_COUNT) 1) ∧
      (¬bad → turned → t.loom = s.loom ∧ t.steward = s.steward ∧ s.out ++ [s.stateMsg n c.mode 2 0] <+: t.out) ∧
      (¬bad → ¬turned → t.ctx n = { c with park := .started addr.toNat } ∧ t.steward = s.steward ∧
        s.out ++ [Out.loomRd (s.loomPort n) n addr.toNat 64] <+: t.out)) ∧
  ∀ (s : State) (n : StreamNo) (status : BitVec 3) (data : List Byte) (poison : Bool), s.inReset = false →
    let c := s.ctx n
    let b := sliceBytes data 0 64
    let ok := status = 0 ∧ poison = false ∧ recordOk b = true
    Completes (.contextRecord n status data poison) s fun t => t.tiles = s.tiles ∧ (∀ m, m ≠ n → t.ctx m = s.ctx m) ∧
      (c.park.isStarted = false → t = s.loomDone n false) ∧
      (c.park.isStarted = true → ok → (t.ctx n).mode = .running ∧ (t.ctx n).policy = bitOf (wordAt b 0) 27 ∧
        (t.ctx n).ring = numAt b 8 8 ∧ (t.ctx n).rlog = fld (wordAt b 0) 16 5 ∧ (t.ctx n).cidx = wordAt b 32 ∧
        (t.ctx n).pidx = wordAt b 32 ∧ (t.ctx n).evt = wordAt b 36 ∧ (t.ctx n).errs = 0 ∧ (t.ctx n).park = .none ∧
        t.steward = s.steward ∧ ∃ o, (s.loomDone n false).out ++ [o] <+: t.out ∧ ∃ w, o = .msg (s.loomPort n) 0x11 n 1 w 0) ∧
      (c.park.isStarted = true → ¬ok → t.ctx n = { c with park := .none } ∧ bitOf (t.steward.reg Reg.LM_ERR) 2 = true ∧
        (s.loomDone n false).out ++ [s.stateMsg n c.mode 1 0] <+: t.out)) ∧
  (∀ (s : State) (n : StreamNo), s.inReset = false →
    let c := s.ctx n
    let badMsg := fun t : State => t.loom = s.loom ∧ t.tiles = s.tiles ∧ t.out = s.out ∧ bitOf (t.steward.reg Reg.LM_ERR) 3 = true ∧
      t.steward.reg Reg.LM_DROP_COUNT = satAdd (s.steward.reg Reg.LM_DROP_COUNT) 1
    let mayKill := c.mode = .running ∨ c.mode = .halted ∨ c.mode = .ending
    let mayResume := c.mode = .halted ∧ ∀ m ∈ s.claimed n, (s.tile m).hemmed = false
    let ended := c.teardown = .done ∧ (c.mode = .killing ∨ c.mode = .ending ∧ c.completes = [])
    (s.getsMsg 4 n (fun _ _ => true) → Completes (.kill n) s fun t => (¬mayKill → badMsg t) ∧
      (mayKill → (t.ctx n).mode = .killing ∧ (t.ctx n).slots = [] ∧ (t.ctx n).desc = none ∧
        s.out ++ [s.stateMsg n .killing 0 0] <+: t.out ∧
        ∀ d, c.desc = some d → .loomWr (s.loomPort n) n (c.ring + 64 * (d.index.toNat % 2 ^ c.rlog) + 56)
          (leBytes 8 (statusWord 6 c.errs d.count).toNat) ∈ t.out)) ∧
    Completes (.killComplete n) s (fun t => t.tiles = s.tiles ∧ t.steward = s.steward ∧ (∀ m, m ≠ n → t.ctx m = s.ctx m) ∧
      (¬ended → t = s) ∧
      (ended → (t.ctx n).mode = .idle ∧ (t.ctx n).cidx = c.cidx ∧ (t.ctx n).pidx = c.pidx ∧ (t.ctx n).evt = c.evt ∧
        (t.ctx n).errs = c.errs ∧ (t.ctx n).teardown = Ctx.reset.teardown ∧
        ∃ w, s.out ++ [Out.msg (s.loomPort n) 0x11 n 0 w 0] <+: t.out)) ∧
    (s.getsMsg 5 n (fun _ _ => true) → Completes (.resume n) s fun t => (¬mayResume → badMsg t) ∧
      (mayResume → (t.ctx n).mode = .running ∧ (t.ctx n).cidx = c.cidx ∧ t.steward = s.steward ∧
        s.out ++ [s.stateMsg n .running 0 0] <+: t.out ∧ (∀ m, m ∉ s.claimed n → t.tile m = s.tile m) ∧
        ∀ m ∈ s.claimed n, (t.tile m).freeze.halt = false ∧ (t.tile m).sp = (s.tile m).sp)))

/-- A step of a stream with no descriptor fetched asks for the next slots of its ring, up to 8, across no 512 B boundary and without a
wrap (R435); a good answer delivers them; a bad one is tried once more, and the second halts the stream (R436). List reads deliver their
bytes, or end the descriptor with LISTERR (R441, R445). A write-back's answer (R435, R447, R451): CIDX moves past the descriptor,
COMPLETE goes out where NOTIFY or a status asks for it, and an error of a strict stream's halts it; a failed write-back is itself an
error. Credits return to the loom, at most 16 (R444, R446). A tile's report of its errors is taken from the weft, its counts are added to
its stream's, and the first of a strict stream's halts it (R447, R449). That an answer which was not asked for, and a step of a stream that
no engine serves, change nothing else is the model's choice (assumption 1). -/
def Obligations.LoomFetchesReadsAndWritesBack : Prop :=
  (∀ (s : State) (n : StreamNo) (status : BitVec 3) (data : List Byte) (poison : Bool), s.inReset = false →
    let c := s.ctx n
    let u := s.loomDone n false
    let ok := status = 0 ∧ poison = false
    let asks := fun (t : State) (a : Word) (k : Nat) =>
      s.out ++ [Out.loomRd (s.loomPort n) n (c.ring + 64 * (a.toNat % 2 ^ c.rlog)) (64 * k)] <+: t.out ∧ (t.ctx n).park = .fetch ∧
        (t.ctx n).fetchFrom = a ∧ (t.ctx n).fetchN = k
    Completes (.loomStep n) s (fun t => (s.served n = false → t = s) ∧
      (s.served n = true → c.desc = none → c.slots = [] → asks t c.next c.fetchLen ∧ t.tiles = s.tiles ∧ t.steward = s.steward)) ∧
    Completes (.fetchResponse n status data poison) s (fun t => (c.park ≠ .fetch → t = u) ∧
      (c.park = .fetch → ok → (t.ctx n).park = .none ∧ t.out = u.out ∧ (t.ctx n).slots = (List.range c.fetchN).map fun k =>
        (c.fetchFrom + BitVec.ofNat 32 k, sliceBytes data (64 * k) 56 ++ List.replicate 8 0)) ∧
      (c.park = .fetch → ¬ok → c.retried = false → t.ctx n = { c with park := .retry } ∧ t.out = u.out) ∧
      (c.park = .fetch → ¬ok → c.retried = true → bitOf (t.steward.reg Reg.LM_ERR) 1 = true ∧
        (c.mode = .running → (t.ctx n).mode = .halted ∧ u.out ++ [s.stateMsg n .halted 3 0] <+: t.out))) ∧
    Completes (.fetchRetry n) s (fun t => (c.park ≠ .retry → t = s) ∧
      (c.park = .retry → asks t c.fetchFrom c.fetchN ∧ (t.ctx n).retried = true)) ∧
    Completes (.listReadResponse n status data poison) s fun t => (c.desc = none ∨ c.park ≠ .list → t = u) ∧
      ∀ d, c.desc = some d → c.park = .list →
        (ok → t.out = u.out ∧ (t.ctx n).park = .none ∧ (t.ctx n).desc = some { d with list := d.list ++ sliceBytes data 0 d.want }) ∧
        (¬ok → c.mode = .running → u.writesBack t n d 3 d.count)) ∧
  ((∀ (s : State) (n : StreamNo) (w : WriteBack) (ws : List WriteBack), s.inReset = false → (s.ctx n).completes = w :: ws →
    w.stale = false →
    let c := s.ctx n
    let told := w.notify = true ∨ fld w.word 48 8 ≠ 0
    let strict := c.policy = true ∧ fld w.word 48 8 ≠ 0 ∧ fld w.word 48 8 ≠ 6
    Completes (.writebackAck n 0) s fun t => (t.ctx n).completes = ws ∧ (t.ctx n).cidx = w.index + 1 ∧ t.steward = s.steward ∧
      (∀ m, m ≠ n → t.ctx m = s.ctx m) ∧
      (told → (s.loomDone n true).out ++ [Out.msg (s.loomPort n) 0x10 n w.index w.word w.vec] <+: t.out) ∧
      (¬told → t.out = (s.loomDone n true).out) ∧
      (¬strict → (t.ctx n).mode = c.mode ∧ t.tiles = s.tiles) ∧ (strict → c.mode = .running → (t.ctx n).mode = .halted)) ∧
  (∀ (s : State) (n : StreamNo) (st : BitVec 3), s.inReset = false →
    let c := s.ctx n
    (c.completes = [] → Completes (.writebackAck n st) s fun t => t = s.loomDone n true) ∧
    ∀ w ws, c.completes = w :: ws → w.stale = false → st ≠ 0 → c.mode ≠ .idle → Completes (.writebackAck n st) s fun t =>
      (t.ctx n).completes = ws ∧ (t.ctx n).cidx = w.index + 1 ∧ (t.ctx n).errs = min 0xFFFF (c.errs + 1) ∧ (t.ctx n).lastCls = 5 ∧
      (c.policy = true → c.mode = .running → (t.ctx n).mode = .halted)) ∧
  (∀ (s : State) (m : Site) (p : BitVec 2) (k : BitVec 5), s.inReset = false →
    s.mayGet (fun y => y.src = .tile m && (match y.dst with | .att _ => true | _ => false) &&
      (match y.body with | .credit u q c _ => u == 0xF && q == p && c == k | _ => false)) = true →
    Completes (.loomCredit m p k) s fun t => t.tiles = s.tiles ∧ t.out = s.out ∧ t.steward = s.steward ∧
      (∀ j, j ≠ m → t.loomSite j = s.loomSite j) ∧
      ((s.loomSite m).stream = none → t.loom = s.loom) ∧
      (∀ n, (s.loomSite m).stream = some n →
        (t.loomSite m).credits = (s.loomSite m).credits.modify p.toNat (fun c => min 16 (c + k.toNat)))) ∧
  ∀ (s : State) (m : Site) (n : StreamNo), s.inReset = false → (s.loomSite m).stream = some n →
    let c := s.ctx n
    let report := s.net.find? fun p => decide (p.src = .tile m) && p.body.errors.isSome && s.mayTake p
    (report = none → Completes (.errorReport m) s fun t => t = s) ∧
    ∀ p k, report = some p → p.body.errors = some k →
      let sum := k.getD 1 0 + k.getD 2 0 + k.getD 3 0 + k.getD 4 0 + k.getD 5 0
      c.errs ≤ 0xFFFF → c.mode ≠ .idle →
      Completes (.errorReport m) s fun t => (t.ctx n).errs = min 0xFFFF (c.errs + sum) ∧ t.net = s.net.erase p ∧
        (∀ j, j ≠ n → t.ctx j = s.ctx j) ∧ t.steward = s.steward ∧
        (c.policy = false ∨ sum = 0 → (t.ctx n).mode = c.mode ∧ t.tiles = s.tiles) ∧
        (c.policy = true → sum ≠ 0 → c.mode = .running → (t.ctx n).mode = .halted))

/-- Descriptors that need no list (R437, R441): a malformed one, whatever its operation, does nothing and completes with status 1; NOP
completes OK; WAIT completes OK with EVT in INFO once its event has come and parks until then, or completes TIMEOUT; END makes the stream
ENDING and reports it. -/
def Obligations.NopWaitAndEndDescriptors : Prop :=
  (∀ (s : State) (n : StreamNo) (d : Desc), s.inReset = false → s.served n = true → (s.ctx n).current = some d → d.stage = .fresh →
    d.pos = 0 → d.count = 0 → s.descBad n d = true →
    Completes (.loomStep n) s fun t => s.writesBack t n d 1 0 ∧ t.tiles = s.tiles ∧ t.steward = s.steward ∧
      t.loom.sites = s.loom.sites) ∧
  ∀ (s : State) (n : StreamNo) (d : Desc),
    let c := s.ctx n
    (s.serves n d 1 → Completes (.nop n) s fun t => s.writesBack t n d 0 0 ∧ t.tiles = s.tiles ∧ t.steward = s.steward ∧
      t.loom.sites = s.loom.sites) ∧
    (s.serves n d 7 → Completes (.wait n) s fun t => t.tiles = s.tiles ∧ t.steward = s.steward ∧
      (waitMet c d = true → s.writesBack t n d 0 c.evt.toNat) ∧
      (waitMet c d = false → t.out = s.out ∧ (t.ctx n).park = .event ∧ (t.ctx n).desc = some d)) ∧
    (s.serves n d 8 → Completes (.endStream n) s fun t => (t.ctx n).mode = .ending ∧ (t.ctx n).slots = [] ∧
      s.out ++ [s.stateMsg n .ending 0 0] <+: t.out) ∧
    (s.inReset = false → c.desc = some d → c.mode = .running → c.park = .event → d.op = 7 → waitMet c d = false →
      Completes (.waitTimeout n) s fun t => t.tiles = s.tiles ∧ t.steward = s.steward ∧
        (d.num 8 4 = 0 → t = s) ∧ (d.num 8 4 ≠ 0 → s.writesBack t n d 5 c.evt.toNat))

/-- CLAIM, RELEASE and STITCH (R438, R442, R443, R445): with nothing of the list read, its first part is asked for, up to 512 B and a
512 B boundary. A CLAIM of one free site that is awake claims it, with its stream, seeds, buckets and credits, and completes OK; a
RELEASE of one site of the stream's clears it and waits; a STITCH of sites that are the stream's opens its stitch, and completes as the
stitch does. -/
def Obligations.ClaimReleaseAndStitchDescriptors : Prop :=
  ∀ (s : State) (n : StreamNo) (d : Desc),
    let c := s.ctx n
    let first := min (2 * d.num 16 2) (512 - d.num 8 8 % 512)
    let asks := fun t : State => s.out ++ [Out.loomRd (s.loomPort n) n (d.num 8 8) first] <+: t.out ∧ (t.ctx n).park = .list ∧
      t.tiles = s.tiles ∧ t.loom.sites = s.loom.sites
    let one := fun m : Site => d.num 16 2 = 1 ∧ d.list.length = 2 ∧ d.pos = 0 ∧ d.count = 0 ∧ d.partialC = false ∧
      numAt d.list 0 2 = m.val
    (s.serves n d 2 → Completes (.claim n) s fun t =>
      (d.pos = 0 → d.list = [] → 1 ≤ d.num 16 2 → asks t) ∧
      ∀ m, one m → (s.loomSite m).stream ≠ some n → s.free m = true → (s.tile m).asleep = false →
        s.writesBack t n d 0 1 ∧ t.loomSite m = { stream := some n, credits := [16, 16, 16, 16], target := none, noTokens := false } ∧
        (t.tile m).reg Reg.TC_STREAM = (0x80000000 ||| flag32 c.policy 16 ||| at32 n.val 0) ∧
        (t.tile m).reg Reg.LA_SR_SEED = c.seed ∧ (t.tile m).reg Reg.LA_SR_ADV = c.adv ∧ (t.tile m).sp = (s.tile m).sp ∧
        (∀ k, k ≠ m → t.tile k = s.tile k ∧ t.loomSite k = s.loomSite k)) ∧
    (s.serves n d 3 → Completes (.release n) s fun t =>
      (d.pos = 0 → d.list = [] → 1 ≤ d.num 16 2 → asks t) ∧
      ∀ m, one m → (s.loomSite m).stream = some n → c.commits = [] → (t.loomSite m).stream = none ∧ (t.tile m).scrubbing = true ∧
        (t.tile m).sp.mem = (s.tile m).sp.mem ∧ (t.ctx n).park = .release ∧ m ∈ (t.ctx n).releases ∧ t.out = s.out ∧
        (∀ k, k ≠ m → t.tile k = s.tile k ∧ t.loomSite k = s.loomSite k)) ∧
    (s.serves n d 4 → Completes (.descStitch n) s fun t => t.tiles = s.tiles ∧ t.loom.sites = s.loom.sites ∧
      (d.status = none → d.stage = .fresh → d.pos = 0 → d.list = [] → 1 ≤ d.num 16 2 → asks t) ∧
      (d.status = none → d.stage = .list → d.list.length = 2 * d.num 16 2 → ∀ l : List Site, l.length = d.num 16 2 →
        (∀ i m, l[i]? = some m → numAt d.list (2 * i) 2 = m.val ∧ (s.loomSite (s.steward.darned m)).stream = some n ∧
          s.inSlice (s.steward.darned m) = false) →
        (s.steward.numberOpen (BitVec.ofNat 16 (d.num 18 2)) = true → s.writesBack t n d 4 0x12 ∧ t.steward = s.steward) ∧
        (s.steward.numberOpen (BitVec.ofNat 16 (d.num 18 2)) = false →
          ∃ k ∈ t.steward.stitches, k.num = BitVec.ofNat 16 (d.num 18 2) ∧ k.new = BitVec.ofNat 4 (d.num 20 1) ∧
            k.sites = l.map s.steward.darned ∧ k.owner = some n ∧ k.committed = false)) ∧
      ∀ st info, d.status = some (st, info) → s.writesBack t n d st info)

/-- TOKENS and SLICE (R437, R439, R441, R444): a token of a list goes, with a credit of its counter, from the attachment of the site's
field to the queue the descriptor and the entry name; without a credit the stream parks; a bad entry ends the descriptor malformed. A
chunk of a SLICE is sent as the halves of its address, the chunk's number beside them. The first of them fixes UNIT and QB of the site. -/
def Obligations.TokensAndSliceDescriptors : Prop :=
  ∀ (s : State) (n : StreamNo) (d : Desc) (m : Site),
    let a := s.loomSite m
    let u := d.num 6 1
    let q := d.num 7 1
    let sent := fun (t : State) (p : Nat) (tok : BitVec 64) =>
      { src := .attach (fieldNo m), dst := .site m, cls := 1, flits := 1
        body := .token (BitVec.ofNat 4 u) (BitVec.ofNat 3 (q + p)) tok (.loom (fieldNo m) (BitVec.ofNat 2 p)) : Pkt } ∈ t.steward.outq
    s.descSite d = some m → s.targetHeld n d = true → d.count = 0 → d.pos = 0 →
    (s.serves n d 5 → Completes (.tokens n) s fun t => t.tiles = s.tiles ∧ (t.loomSite m).target = some (u, q) ∧
      (∀ k, k ≠ m → t.loomSite k = s.loomSite k) ∧
      (d.list = [] → 1 ≤ d.num 16 4 → (t.ctx n).park = .list ∧ t.steward = s.steward ∧
        s.out ++ [Out.loomRd (s.loomPort n) n (d.num 8 8) (min (16 * d.num 16 4) (512 - d.num 8 8 % 512))] <+: t.out) ∧
      (d.num 16 4 = 1 → d.list.length = 16 →
        let tok := BitVec.ofNat 64 (numAt d.list 0 8)
        let p := numAt d.list 8 1
        (4 ≤ p ∨ numAt d.list 9 7 ≠ 0 → s.writesBack t n d 1 0 ∧ t.steward = s.steward ∧ (t.loomSite m).credits = a.credits) ∧
        (p < 4 → numAt d.list 9 7 = 0 → a.noTokens = false → tokIsMark tok = false → s.hasCredit m p = false →
          (t.ctx n).park = .credits ∧ t.out = s.out ∧ t.steward = s.steward) ∧
        (p < 4 → numAt d.list 9 7 = 0 → a.noTokens = false → tokIsMark tok = false → s.hasCredit m p = true →
          s.bucketOpen m 1 = true →
          s.writesBack t n d 0 1 ∧ sent t p tok ∧ (t.loomSite m).credits = a.credits.modify p (· - 1)))) ∧
    (s.serves n d 6 → fmtMx d.fmt = false → d.num 16 4 = 1 → Completes (.slice n) s fun t => t.tiles = s.tiles ∧
      (t.loomSite m).target = some (u, q) ∧ (∀ k, k ≠ m → t.loomSite k = s.loomSite k) ∧
      (a.noTokens = true → (t.ctx n).park = .held ∧ t.steward = s.steward ∧ t.out = s.out) ∧
      (a.noTokens = false → s.hasCredit m 0 = true → s.hasCredit m 1 = true → s.bucketOpen m 2 = true →
        let tok := fun v => mkToken (d.num 20 1 / 16) 2 false 0 v
        s.writesBack t n d 0 1 ∧ sent t 0 (tok (d.chunkAddr 0 % 2 ^ 32)) ∧ sent t 1 (tok (d.chunkAddr 0 / 2 ^ 32)) ∧
        (t.loomSite m).credits = (a.credits.modify 0 (· - 1)).modify 1 (· - 1)))

/-! ## Faults, hems, darning, liveness and self-test -/

/-- A FAULT message (R457, R460, R482, R483, R488): every one is logged under the next number with its site, code, unit, register and time;
under policy 0 it is counted and nothing else is done; under policy 1 a fault of an enabled site hems it, and a LINK fault hems its site, or
at a port tile the neighbour on the side of the link that failed. A port that is lost is hemmed and reported in ST_PHEM. FAULT_COUNT_RESET
clears the counts. A unit with a command in progress whose watchdog expires, or a core so stalled, raises HANG and goes on (R458). An
enabled or spare site answers a poll unless its router is hemmed; an answer is noted; two polls unanswered log SILENT (R459, R457). That a
time-out which the state rules out changes nothing is the model's choice (assumption 1). -/
def Obligations.FaultsAndSilenceAreLogged : Prop :=
  ((∀ (s : State) (n : Site) (f : FaultMsg), s.inReset = false →
    s.mayGet (fun p => pointSite p.src = n && (match p.body with | .ctrl (.fault g) => sameFault g f | _ => false)) = true →
    let x := s.steward
    let code := f.code.toNat
    let policy := fld (x.reg (Reg.ST_FPOL + 4 * code)) 8 2
    let tells := fun (t : State) (m : Site) (k : BitVec 8) => ∃ q ∈ t.steward.outq, q.dst = .site m ∧ q.body = .ctrl (.hem k)
    Completes (.fault n f) s fun t => t.steward.flogCount = x.flogCount + 1 ∧
      (∃ e rest, t.steward.flog = e :: rest ∧ e.id = x.flogCount ∧ e.code = code ∧ e.unit = f.unit.toNat ∧ e.site = n ∧
        e.reg = f.reg ∧ e.time = BitVec.ofNat 32 (10 * s.periods + f.us.val)) ∧
      (code = 0 ∨ 0x0F ≤ code → t = { s with steward := t.steward, net := t.net } ∧ t.steward.counts = x.counts) ∧
      (code ≠ 0 → code < 0x0F → code ≠ 0x0B → policy = 0 → (code ≠ 0x0D ∨ x.site n.val ≠ 2) →
        t = { s with steward := t.steward, tiles := t.tiles, net := t.net } ∧ t.steward.darning = x.darning ∧ t.steward.outq = x.outq ∧
        (∀ m, m ≠ n ∨ code ≠ 0x0A → t.tile m = s.tile m) ∧ t.tile n = { s.tile n with router := (t.tile n).router } ∧
        Map.get noCount t.steward.counts (16 * n.val + code) = Map.get noCount x.counts (16 * n.val + code) + 1) ∧
      (code ≠ 0 → code < 0x0D → code ≠ 0x0A → code ≠ 0x0B → policy = 1 → x.site n.val = 1 → (s.tile n).hemmed = false →
        x.darning = none → x.darnQueue = [] → tells t n 0) ∧
      (code = 0x0A → policy = 1 → ∀ (m : Site) (i : Nat) (l : List Nat),
        (if isPortSite n.val = true then (s.tile n).router.linkFaults = i :: l ∧ stepSide n i = some m else m = n) →
        x.site m.val = 1 → (s.tile m).hemmed = false → x.darning = none → x.darnQueue = [] → tells t m 1) ∧
      (code = 0x0B → ∀ p : PortIx, siteOfPort p = n → (s.port p).lost = true → tells t n 2 ∧
        bitOf (t.steward.reg (Reg.ST_PHEM + 4 * (p.val / 32))) (p.val % 32) = true)) ∧
  ∀ s : State, s.inReset = false → Completes .faultCountReset s fun t => t = { s with steward := { s.steward with counts := [] } }) ∧
  ((∀ (s : State) (n : Site) (u : BitVec 4), s.inReset = false →
    let a := s.tile n
    let hangs := (∃ v, unitOfCode u.toNat = some v ∧ (a.unit v).running ≠ []) ∨ (u = 0xC ∧ a.core.mode = .stalled)
    Completes (.watchdog n u) s fun t => s.onlyTile t n ∧ t.tile n = { a with outq := (t.tile n).outq } ∧
      (¬hangs → t.tile n = a) ∧
      (hangs → ∃ q, (t.tile n).outq = a.outq ++ [q] ∧ ∃ f : FaultMsg, q.body = .ctrl (.fault f) ∧ f.code = 5 ∧ f.unit = u)) ∧
  ∀ (s : State) (n : Site) (poll : Word), s.inReset = false →
    let known := s.steward.site n.val = 1 ∨ s.steward.site n.val = 2
    let since := (s.steward.poll - BitVec.ofNat 32 (Map.get noAnswer s.steward.answered n.val)).toNat
    (s.getsCtrl n (.ping poll) → Completes (.pingReceive n poll) s fun t => t = { s with tiles := t.tiles, net := t.net } ∧ (∀ m, m ≠ n → t.tile m = s.tile m) ∧
      (known → (s.tile n).siteHem = false →
        ∃ q, (t.tile n).outq = (s.tile n).outq ++ [q] ∧ q.dst = .att (fieldNo n) ∧ q.body = .ctrl (.pong poll)) ∧
      (¬known ∨ (s.tile n).siteHem = true → t.tile n = s.tile n)) ∧
    (s.getsAtt n (.pong poll) → Completes (.pong n poll) s fun t =>
      t = { s with net := t.net, steward := { s.steward with answered := t.steward.answered } } ∧
      ∀ m, Map.get noAnswer t.steward.answered m = if m = n.val then poll.toNat else Map.get noAnswer s.steward.answered m) ∧
    Completes (.silentTimeout n) s fun t =>
      (¬known ∨ (s.tile n).hemmed = true ∨ since < 2 → t = s) ∧
      (known → (s.tile n).hemmed = false → 2 ≤ since → ∃ e rest, t.steward.flog = e :: rest ∧ e.code = 0x0D ∧ e.unit = 0xD ∧
        e.site = n ∧ e.reg = 0 ∧ t.steward.flogCount = s.steward.flogCount + 1))

/-- A hem (R461, R462): the site's TC_HEM holds its kind, the stronger of two; its core halts, its units hold no command, and it emits
no token, credit, row or request any more; a slice of it ends (R496). A PORT hem takes the port DOWN for good. SEGHOLD stops a tile of
its segment, which answers SEGHELD; from there on the loom sends the site no token; SEGGO lets it fire again (R463). -/
def Obligations.HemsStopSitesAndSegmentsHold : Prop :=
  (∀ (s : State) (n : Site) (kind : BitVec 8), s.inReset = false → s.getsCtrl n (.hem kind) →
    let a := s.tile n
    Completes (.hem n kind) s fun t =>
      (kind.toNat < 2 → (s.inSlice n = false → t = { s with tiles := t.tiles, net := t.net } ∧ ∀ m, m ≠ n → t.tile m = s.tile m) ∧
        (s.inSlice n = true → t.steward.slice = none) ∧
        (t.tile n).reg Reg.TC_HEM = (0x80000000 ||| at32 (if bitOf (a.reg Reg.TC_HEM) 31 then
          max kind.toNat (fld (a.reg Reg.TC_HEM) 0 2) else kind.toNat) 0) ∧
        (t.tile n).core.mode = .halted ∧ (t.tile n).sp.mem = a.sp.mem ∧ (t.tile n).warpq = [] ∧
        (∀ u, ((t.tile n).unit u).queue = [] ∧ ((t.tile n).unit u).running = []) ∧
        ∀ q ∈ (t.tile n).outq, hemStops q.body = false) ∧
      (kind = 2 → t.tiles = s.tiles ∧
        (∀ p : PortIx, siteOfPort p = n → (t.port p).hemmed = true ∧ (t.port p).mode = .down ∧ (t.port p).replay =
          if (s.port p).mode = .down then (s.port p).replay else []) ∧
        ∀ p : PortIx, siteOfPort p ≠ n → (t.steward.discovery = s.steward.discovery ∨ t.steward.discovery ≠ some p) →
          t.port p = s.port p)) ∧
  ∀ (s : State) (n : Site) (st : StreamNo) (w : BitVec 16), s.inReset = false →
    let a := s.tile n
    let mine := a.stream? = some st ∧ a.weave = w
    let only := fun t : State => t = { s with tiles := t.tiles, net := t.net } ∧ (∀ m, m ≠ n → t.tile m = s.tile m)
    (s.getsCtrl n (.seghold st w) → Completes (.seghold n st w) s fun t => only t ∧
      (mine → a.hemmed = false → (t.tile n).freeze = { a.freeze with seghold := true } ∧
        ∃ q, (t.tile n).outq = a.outq ++ [q] ∧ q.body = .ctrl .segheld) ∧
      (¬mine ∨ a.hemmed = true → t.tile n = a)) ∧
    (s.getsAtt n .segheld → Completes (.segheld n) s fun t => t = { s with net := t.net, loom := t.loom } ∧
      t.loomSite n = { s.loomSite n with
        noTokens := (s.loomSite n).noTokens || (a.freeze.seghold && (s.loomSite n).stream.isSome) } ∧
      ∀ m, m ≠ n → t.loomSite m = s.loomSite m) ∧
    (s.getsCtrl n (.seggo st w) → Completes (.seggo n st w) s fun t => only t ∧
      (mine → t.tile n = { a with freeze := { a.freeze with seghold := false } }) ∧ (¬mine → t.tile n = a))

/-- The steps of a darning (R467, R471, R475, R479): the table entry gives the image to read and wakes the spare; an entry that cannot
be used leaves the die short; a refused image read is tried once more, and refused again the darning fails; the image waits for the
spare, and then its stitch opens, its records go first, and the attachment's RECONF bucket is unlimited meanwhile. At the re-stream the
spare asks for the resident rows in pieces of 512 B; when the last has come READY ends the darning, and GO lets the spare fire. That an
answer which was not asked for, and a row out of its step, change nothing else is the model's choice (assumption 1). -/
def Obligations.DarningGoesThroughItsSteps : Prop :=
  (∀ (s : State) (d : Darning) (status : BitVec 3) (data : List Byte) (poison : Bool), s.inReset = false →
    s.steward.darning = some d → s.steward.darnQueue = [] →
    let b := sliceBytes data 0 32
    let ok := status = 0 ∧ poison = false
    let got := s.stewardDone d.image d.ibytes
    Completes (.darnEntryRead status data poison) s (fun t =>
      (d.step ≠ .entry → t = s.stewardDone (s.steward.darnEntryAddr d.failed) 32) ∧
      (d.step = .entry → ok → darnEntryOk b = true → s.askedIn t (numAt b 0 8 % 2 ^ 60) (numAt b 8 4) ∧
        t.steward.darning = some { d with step := .image, recs := none, image := numAt b 0 8 % 2 ^ 60, ibytes := numAt b 8 4
                                          nrows := fld (wordAt b 12) 12 13, wrow := fld (wordAt b 12) 0 12
                                          weights := numAt b 16 8 % 2 ^ 60 } ∧
        ((s.tile d.spare).asleep = true → s.inSlice d.spare = false → (t.tile d.spare).waking = true)) ∧
      (d.step = .entry → ¬(ok ∧ darnEntryOk b = true) → t.steward.darning = none ∧
        bitOf (t.steward.reg Reg.ST_DARN_STAT) 30 = true)) ∧
    Completes (.darnImageRead status data poison) s (fun t => (d.step ≠ .image ∨ d.recs ≠ none → t = got) ∧
      (d.step = .image → d.recs = none → ok → (s.tile d.spare).asleep = true → got.onlySteward t ∧
        t.steward = { s.steward with darning := some { d with recs := some (sliceBytes data 0 d.ibytes) } }) ∧
      (∀ rs, d.step = .image → d.recs = none → ok → (s.tile d.spare).asleep = false →
        imageRecs 24577 (sliceBytes data 0 d.ibytes) = some rs →
        let bucket := reconfReg (fieldNo d.spare)
        t.steward.darning = some { d with recs := some (sliceBytes data 0 d.ibytes), step := .stitch
                                          reconf := some (s.steward.reg bucket) } ∧
        t.steward.reg bucket = 0xFFFFFFFF ∧ (∃ k ∈ t.steward.stitches, k.num = 0xFFFF ∧ k.sites = [d.spare] ∧ k.committed = false) ∧
        ∀ r ∈ rs, ∀ q ∈ recPkts d.spare r, q ∈ t.steward.outq) ∧
      (d.step = .image → d.recs = none → ¬ok → d.refused ≠ 0 → t.steward.darning = none ∧
        bitOf (t.steward.reg Reg.ST_DARN_STAT) 30 = true) ∧
      (d.step = .image → d.recs = none → ¬ok → d.refused = 0 →
        t = { s with steward := { s.steward with darning := some { d with refused := 1 } }, ports := t.ports, out := t.out } ∧
        s.askedIn t d.image d.ibytes)) ∧
    Completes (.darnRestream d.spare) s (fun t => (d.step ≠ .restream ∨ d.asked = true → t = s) ∧
      (d.step = .restream → d.asked = false → ∀ q, q = (reachPieces d.weights (512 * d.nrows)).length →
        t.steward = { s.steward with darning := some { d with asked := true, gets := q } } ∧
        (∀ m, m ≠ d.spare → t.tile m = s.tile m) ∧
        (t.tile d.spare).sh.toSend.length + (t.tile d.spare).sh.out.length =
          (s.tile d.spare).sh.toSend.length + (s.tile d.spare).sh.out.length + q)) ∧
    Completes (.ready d.spare) s (fun t => (d.step ≠ .restream ∨ d.asked = false ∨ d.gets ≠ 0 → t = s) ∧
      (d.step = .restream → d.asked = true → d.gets = 0 → d.bad = 0 → t.steward.darning = none ∧ t.tiles = s.tiles ∧
        fld (t.steward.reg Reg.ST_DARN_STAT) 0 16 = min 0xFFFF (fld (s.steward.reg Reg.ST_DARN_STAT) 0 16 + 1) ∧
        ∃ q ∈ t.steward.outq, q.dst = .site d.spare ∧ q.body = .ctrl .go))) ∧
  ∀ (s : State) (n : Site), s.inReset = false → s.getsCtrl n .go →
    Completes (.go n) s fun t => t = { s with tiles := t.tiles, net := t.net } ∧ (∀ m, m ≠ n → t.tile m = s.tile m) ∧
      (t.tile n).freeze.handshake = false ∧ (t.tile n).freeze.awaitGo = false ∧ (t.tile n).sp = (s.tile n).sp ∧
      (∀ st, (s.tile n).stream? = some st → (s.ctx st).mode = .halted → (t.tile n).freeze.halt = true)

/-- A slice (R491, R493 to R495, R497, R508): where slices are enabled and none runs, the next item of the rotation starts at a site that
meets the measured conditions, with its TEST bucket open and, for an item of a tile, frozen; elsewhere it is deferred. A freeze that does
not take ends it, and is reported as discarded; one that does starts the save of the item's parts, which leaves every error flag and
counter as it was, and its end the test. The test's result is kept, a repair recorded and a failure reported; the ANA item passes only
within its limits. At its end the saved parts are restored from their records, BT_TSTAT reports it and the bucket is restored; the tile
thaws, but where a record fails its check it stays frozen with a SCAN fault. The shutdown test (R500 to R503): it starts from idle streams
and no darning, else it is refused with SDREF; steps follow one another and keep what they find, and before the tests at three set points
every field asks for code 0 (R544); after the last the signed record of what was found is written and SDSTATE follows its WRACK, or is
NOREC without an identity key; after the last step of a full test at start-up the failed sites leave service and the record is written
with USED. That a row out of its step changes nothing is the model's choice (assumption 1). -/
def Obligations.SelfTestRunsSlicesAndShutdown : Prop :=
  ((∀ (s : State) (c : SliceCond) (n : Site) (i k : Nat) (r : State), s.inReset = false → s.takeItem = (some (n, i, k), r) →
    let off := bitOf (s.steward.reg Reg.BT_CFG) 31 = false ∨ s.steward.slice ≠ none ∨ s.steward.sdRunning = true ∨
      fld (s.steward.reg Reg.ST_BOOT) 0 2 ≠ 2
    let may := r.condOk n c = true ∧ r.sliceable n i = true
    Completes (.sliceStart c) s fun t => (off → t = s) ∧
      (¬off → may → (∃ x, t.steward.slice = some x ∧ x.site = n ∧ x.item = i ∧ x.defers = k) ∧
        (t.tile n).reg (Reg.WF_BKT + 12) = 0xFFFFFFFF ∧ (itemFreezes i = true → (s.tile n).asleep = false →
          (t.tile n).freeze.slice = true)) ∧
      (¬off → ¬may → t.steward.slice = none ∧ t.tiles = s.tiles ∧ t.ports = s.ports ∧
        (k < 2 → (n.val, i, k + 1) ∈ t.steward.deferred))) ∧
  ∀ (s : State) (x : Slice) (r : SliceTest) (c : SliceCond) (dur : BitVec 12), s.inReset = false → s.steward.slice = some x →
    let a := s.tile x.site
    let again := fun t : State => x.defers < 2 → s.itemApplies x.site x.item = true →
      (x.site.val, x.item, x.defers + 1) ∈ t.steward.deferred
    Completes .sliceFreezeTimeout s (fun t => (x.step ≠ .freezing ∨ a.freeze.frozen = true → t = s) ∧
      (x.step = .freezing → a.freeze.frozen = false → t.steward.slice = none ∧ (t.tile x.site).freeze.slice = false ∧
        (t.tile x.site).reg (Reg.WF_BKT + 12) = x.bkt ∧ fld ((t.tile x.site).reg Reg.BT_TSTAT) 22 2 = 3 ∧ again t)) ∧
    (a.freezeOn = true → a.stitch.mode = .idle → a.core.mode = .halted → a.quiet = true → a.tokenLeft = false → x.step = .freezing →
      Completes (.tileFrozen x.site) s fun t => (sliceParts x.item = [] → s.onlySteward { t with tiles := s.tiles } ∧
          t.steward.slice = some { x with step := .testing }) ∧
        (sliceParts x.item ≠ [] → t.steward = { s.steward with slice := some { x with step := .saving } } ∧
          (t.tile x.site).freeze.scanBusy = true ∧ (t.tile x.site).reg Reg.TC_SCAN_ADDR = a.reg Reg.TC_SCAN_ADDR ∧
          ∀ o ∈ errParts, (t.tile x.site).reg o = a.reg o)) ∧
    (a.freeze.scanBusy = true → a.freeze.scanLeft = 0 → a.freeze.scanAcks = [] → a.sp.held = [] → x.step = .saving →
      Completes (.scanDone x.site) s fun t => t.steward = { s.steward with slice := some { x with step := .testing } } ∧
        (t.tile x.site).freeze.scanBusy = false) ∧
    Completes (.sliceTestEnd r c) s (fun t => (x.step = .restoring ∨ testFits x.item r = false → t = s) ∧
      let found := s.settleTest x.site r
      (testFits x.item r = true → x.step = .testing → a.scrubbing = false → found ≠ .fail →
        t.steward.slice = some { x with step := .restoring, result := some found, discard := !s.condOk x.site c } ∧
        (found = .pass → t.tiles = s.tiles ∧ t.steward.repairs = s.steward.repairs) ∧
        ∀ e, found = .repaired e → t.steward.repairs = s.steward.repairs ++ [e] ∧ e ∈ (t.tile x.site).repairMap ∧
          ∀ m, m ≠ x.site → t.tile m = s.tile m) ∧
      (testFits x.item r = true → x.step = .testing → a.scrubbing = false → found = .fail → s.condOk x.site c = true →
        itemFreezes x.item = true →
        ∃ q ∈ (t.tile x.site).outq, ∃ f : FaultMsg, q.body = .ctrl (.fault f) ∧ f.code = 0x0E)) ∧
    (∀ e, s.settleTest x.site (.repaired e) =
      if fld e 0 12 = x.site.val ∧ s.steward.spareFree e = true then .repaired e else .fail) ∧
    (∀ b : AnaTest, s.settleTest x.site (.ana b) = .pass → b.mcycle * 995 ≤ 1000 * b.cycles ∧ 1000 * b.cycles ≤ b.mcycle * 1005 ∧
      24000 ≤ b.cycles ∧ b.cycles ≤ 44000 ∧ b.refErr.natAbs ≤ 10 ∧ b.voltErr.natAbs ≤ 100) ∧
    ∀ recs : List (List Word),
      let ok := sliceParts x.item = [] ∨ a.asleep = true ∨ a.partsOk (sliceParts x.item) recs = true
      Completes (.sliceEnd ⟨dur, recs⟩) s fun t => (x.step ≠ .restoring → t = s) ∧
        (x.step = .restoring → t.steward.slice = none ∧ (ok → (t.tile x.site).freeze.slice = false) ∧
          (¬ok → a.freeze.scanPend = none → (t.tile x.site).freeze.slice = a.freeze.slice ∧
            ∃ q ∈ (t.tile x.site).outq, ∃ f : FaultMsg, q.body = .ctrl (.fault f) ∧ f.code = 9 ∧ f.unit = 0xD) ∧
          (a.freeze.scanPend = none → (t.tile x.site).reg (Reg.WF_BKT + 12) = x.bkt ∧
            (sliceParts x.item = [] → (t.tile x.site).sp = a.sp)) ∧
          fld ((t.tile x.site).reg Reg.BT_TSTAT) 22 2 = resultCode x ∧ fld ((t.tile x.site).reg Reg.BT_TSTAT) 0 12 = dur.toNat ∧
          (x.discard = true → again t))) ∧
  ((∀ s : State, s.inReset = false → s.steward.sdRunning = false → s.steward.slice = none →
    Completes .shutdownTest s fun t => s.onlySteward t ∧
      (if s.allIdle = true ∧ s.steward.darning = none then
        fld (t.steward.reg Reg.BT_STAT) 29 3 = 1 ∧ t.steward.sdStep = 1 ∧ t.steward.sdFound = []
      else bitOf (t.steward.reg Reg.BT_STAT) 28 = true ∧ t.steward.sdStep = s.steward.sdStep)) ∧
  (∀ (s : State) (x : Slice), s.inReset = false → s.steward.sdRunning = false → s.steward.slice = some x → s.allIdle = true →
    s.steward.darning = none → Completes .shutdownTest s fun t => fld (t.steward.reg Reg.BT_STAT) 29 3 = 1 ∧ t.steward.sdStep = 1 ∧
      t.steward.slice = none ∧ (t.tile x.site).freeze.slice = false) ∧
  (∀ (s : State) (r : ShutResult), s.inReset = false →
    let k := s.steward.sdStep
    let found := (s.takeRepairs r).2
    (k = 1 ∨ (2 ≤ k ∧ k ≤ 5) ∨ (12 ≤ k ∧ k ≤ 15) → Completes (.shutdownStepEnd r) s fun t =>
      t = { s with steward := t.steward, tiles := t.tiles, out := t.out } ∧ t.steward.sdStep = k + 1 ∧
      t.steward.sdFound = s.steward.sdFound ++ [found] ∧
      (k ≠ 2 → k ≠ 5 → k ≠ 12 → k ≠ 15 → t.out = s.out) ∧
      (k = 2 ∨ k = 12 → (∀ f : FieldNo, s.steward.vidBusy f = false) → s.steward.vidPlan = [[], [], [], []] →
        ∀ f : FieldNo, fld (s.steward.vset f) 0 6 ≠ 0 →
          ∃ l, Out.vid f (BitVec.ofNat 6 (fld (s.steward.vset f) 0 6 - 10)) l ∈ t.out) ∧
      t.steward.repairs = (s.takeRepairs r).1.steward.repairs ∧ (k ≠ 1 → r.repairs = [] → t.tiles = s.tiles) ∧
      (k = 1 → ∀ n, s.steward.site n.val ≠ 0 → (t.tile n).asleep = false)) ∧
    found = { r with failed := found.failed } ∧ r.failed <+: found.failed ∧
    (∀ e ∈ r.repairs, e ∈ (s.takeRepairs r).1.steward.repairs ∨ fld e 0 12 ∈ found.failed.map (·.val) ∨ 2400 ≤ fld e 0 12) ∧
    (k = 16 → Completes (.shutdownStepEnd r) s fun t => t.steward.sdStep = 0 ∧ t.steward.sdFound = s.steward.sdFound ++ [found] ∧
      (∀ n ∈ found.failed, t.steward.site n.val = 0 ∨ t.steward.site n.val = 3) ∧
      (∀ n, (t.tile n).asleep = (t.steward.site n.val == 2)) ∧
      ∀ xi, s.steward.xi = some xi →
        let body := t.recordBody 2 t.steward.sdFound ((s.periods - s.steward.sdStart) / 100)
        t.wroteIn t s.steward.recAddr (setUsed body ++ s.steward.sign xi body))) ∧
  (∀ (s : State) (r : ShutResult), s.inReset = false → s.steward.sdStep = 6 →
    Completes (.shutdownStepEnd r) s fun t =>
      t = { s with steward := t.steward, out := t.out, tiles := t.tiles, ports := t.ports } ∧
      (r.repairs = [] → t.tiles = s.tiles) ∧ t.steward.sdFound = s.steward.sdFound ++ [(s.takeRepairs r).2] ∧
      match s.steward.xi with
      | none => fld (t.steward.reg Reg.BT_STAT) 29 3 = 3 ∧ t.steward.sdStep = 0 ∧ t.out = s.out
      | some xi =>
        let body := t.recordBody 1 t.steward.sdFound ((s.periods - s.steward.sdStart) / 100)
        t.steward.sdStep = 7 ∧ s.wroteIn t s.steward.recAddr (body ++ s.steward.sign xi body)) ∧
  ∀ (s : State) (ok : Bool), s.inReset = false → s.steward.sdStep = 7 →
    Completes (.shutdownRecordAck ok) s fun t => t = { s with steward := t.steward, ports := t.ports, out := t.out } ∧
      fld (t.steward.reg Reg.BT_STAT) 29 3 = (if ok then 2 else 3) ∧ t.steward.sdStep = 0)

/-! ## Test access port, mailbox, attestation, firmware update -/

/-- The test access port (R552 to R554): IDCODE, selected at its reset, shifts out the code of the stepping; the boundary instructions act
only in reset with PWROK_C and PWROK_S high: the die wrapper register captures the signals of its 55,333 cells, is shifted out and takes the
cells shifted in, and under EXTEST drives the pads of driven signals before and after; SITESEL and WSP act while MFGTEST is not blown or
debug is on, SITESEL shifting the site through its 12 bits and WSP the bits that the tester then gives through the wrappers of the
selected site; FUSERD shifts out the
fuses, the same whatever the identity seed; every code not listed is BYPASS, and so is an instruction that may not act: what is shifted
comes out one bit later, after a 0. Nothing but the TAP and what is sent changes. The cells' order within a port, and that a wrapper's
register keeps its length, rest on assumption 61; that the bits shifted out as fuses are open on assumption 10; that a listed code given as
BYPASS changes nothing is the model's choice (assumption 1). -/
def Obligations.TapInstructionsActAsListed : Prop :=
  State.reset.tap.ir = 0x01 ∧ (∀ c, tapListed c = true ↔ c ∈ [0x01, 0x02, 0x03, 0x10, 0x11, 0x20]) ∧
  ((∀ n, (cellAt n).isSome = true ↔ n < 55333) ∧
    (∀ (p : PortIx) (w : Nat), w < 576 → cellAt (576 * p.val + w) = some (.wire p (288 ≤ w) (glWire (w % 288)))) ∧
    ∀ k, k < 37 → cellAt (55296 + k) = some (.pin (ctlPin k))) ∧
  (∀ (s : State) (bits : List Bool),
    let b := s.tapBypass bits
    b = { s with tap := b.tap, out := b.out } ∧
      b.tap = { s.tap with ir := 0xFF, bypass := bits.getLastD false } ∧ (bits = [] → b.out = s.out) ∧
      ∀ (l : List Bool) (x : Bool), bits = l ++ [x] → b.out = s.out ++ [Out.tdo (false :: l)]) ∧
  ∀ (s : State) (pads cells : List (Nat × Bool)) (site : BitVec 12) (code : BitVec 8) (bits : List Bool),
    let opened := s.steward.fuses.mfgtest = false ∨ bitOf (s.steward.reg Reg.ST_PROT) 3 = true
    let acts := s.inReset = true ∧ padAt pads 55297 = true ∧ padAt pads 55298 = true
    Completes .idcode s (fun t => t = { s with
      tap := { s.tap with ir := 0x01 }
      out := s.out ++ [Out.tdo (bitsOf (if s.steward.isB0 then 0x24B3356F#32 else 0x14B3356F#32))] }) ∧
    Completes (.samplePreload ⟨pads, cells⟩) s (fun t => (¬acts → t = s.tapBypass []) ∧
      (acts → t = { s with
        tap := { s.tap.setCells cells with ir := 0x02 }
        out := s.out ++ [Out.cells (received pads ++ s.driven)] })) ∧
    Completes (.extest ⟨pads, cells⟩) s (fun t => (¬acts → t = s.tapBypass []) ∧
      (acts → t = { s with
        tap := { s.tap.setCells cells with ir := 0x03 }
        out := s.out ++ [Out.drive s.tap.drives, Out.cells (received pads ++ s.tap.drives), Out.drive t.tap.drives] })) ∧
    (∀ n, Map.get noCell (s.tap.setCells cells).wrapper n = true → n < 55333 ∧ (n, true) ∈ cells) ∧
    Completes (.sitesel ⟨site, bits⟩) s (fun t => (¬opened → t = ({ s with tap := { s.tap with wsi := bits } } : State).tapBypass (bitsOf site)) ∧
      (opened → t = { s with
        tap := { s.tap with ir := 0x10, sitesel := site, wsi := bits }
        out := s.out ++ [Out.tdo (bitsOf s.tap.sitesel)] })) ∧
    Completes .wsp s (fun t => (¬opened → t = ({ s with tap := { s.tap with wsi := [] } } : State).tapBypass s.tap.wsi) ∧
      (opened →
        let path := wrapperPath s.tap.sitesel.toNat
        let held := fun u : State => (path.map u.tap.wrapperReg).flatten
        t = { s with tap := t.tap, out := s.out ++ [Out.tdo ((held s ++ s.tap.wsi).take s.tap.wsi.length)] } ∧
          t.tap = { s.tap with ir := 0x11, wsi := [], wrappers := t.tap.wrappers } ∧
          held t = (held s ++ s.tap.wsi).drop s.tap.wsi.length ∧
          ∀ k, k ∉ path → t.tap.wrapperReg k = s.tap.wrapperReg k)) ∧
    (∃ l, Completes .fuserd s (fun t => t = { s with tap := { s.tap with ir := 0x20 }, out := s.out ++ [Out.tdo l] }) ∧
      ∀ seed : Nat, Completes .fuserd { s with steward := { s.steward with fuses := { s.steward.fuses with seedId := seed } } }
        fun t => t.out = s.out ++ [Out.tdo l]) ∧
    Completes (.bypass ⟨code, bits⟩) s fun t => t = if tapListed code then s else s.tapBypass bits

/-- The host mailbox (R515, R528): after the lock the headers of the slots are read, and each slot's new header is taken up, or answered
BADCMD. REGRD is answered by the words of its addresses, with UNMAPPED where one is; REGWR reads its words and writes them as the mailbox;
both are REFUSED at a misaligned address. A reply writes the data, then STATUS, then ACKSEQ. Role D (R376, R526, R527): a port that is not
UP, or without debug, takes no access; one that is not whole words within 256 B is answered REFUSED; a read is answered with the words,
UNMAPPED where one is; a write is applied word by word and answered. That a poll before the lock and an access of role D that is not admitted
change nothing is the model's choice (assumption 1), as is the port by which the steward reads and writes (assumption 76). -/
def Obligations.MailboxAndDebugReachTheSetupSpace : Prop :=
  ((∀ (s : State) (hdrs : List (List Byte)), s.inReset = false → s.steward.mbox.length = 4 →
    let may := s.steward.locked = true ∧ fld (s.steward.reg Reg.ST_BOOT) 0 2 = 2
    Completes (.mailboxPoll hdrs) s fun t => s.onlyStewardSent t ∧ (¬may → t = s) ∧
      (may → ∀ k : Fin 4,
        let h := hdrs.getD k.val []
        let m := s.steward.mslot k
        s.askedIn t (s.steward.slotAddr k) 64 ∧
        (m.req ≠ none ∨ wordAt h 0 = m.ack → t.steward.mslot k = m) ∧
        (m.req = none → wordAt h 0 ≠ m.ack → badRequest h = false → t.steward.mslot k = { m with req := some (sliceBytes h 0 64) }) ∧
        (m.req = none → wordAt h 0 ≠ m.ack → badRequest h = true → t.steward.mslot k = { ack := wordAt h 0, req := none } ∧
          s.answeredIn t (s.steward.slotAddr k) [] 1 (sliceBytes h 0 4)))) ∧
  ∀ (s : State) (k : Fin 4) (h : List Byte) (data : List Word), s.inReset = false → s.steward.mbox.length = 4 →
    let a := numAt h 16 4
    let n := numAt h 12 4
    let at' := s.steward.slotAddr k
    let seq := sliceBytes h 0 4
    let done := { s.steward with mbox := s.steward.mbox.set k.val { ack := wordAt h 0, req := none } }
    (s.steward.request k 1 = some h → 1 ≤ n → Completes (.regrd k) s fun t =>
      t = { s with steward := done, ports := t.ports, out := t.out, fresh := t.fresh } ∧
      (a % 4 ≠ 0 → s.answeredIn t at' [] 2 seq) ∧
      (a % 4 = 0 → ∀ ws : List Word, ws.length = n → (∀ i, i < n → s.setupRead (a + 4 * i) = ws[i]?) →
        s.answeredIn t at' (bytesOfWords ws) 0 seq) ∧
      (a % 4 = 0 → (∃ i, i < n ∧ s.setupRead (a + 4 * i) = none) → ∃ ws : List Word, ws.length = n ∧
        (∀ i w, i < n → s.setupRead (a + 4 * i) = some w → ws[i]? = some w) ∧ s.answeredIn t at' (bytesOfWords ws) 3 seq)) ∧
    (s.steward.request k 2 = some h → Completes (.regwr k data) s fun t =>
      (a % 4 ≠ 0 → t = { s with steward := done, ports := t.ports, out := t.out } ∧ s.answeredIn t at' [] 2 seq) ∧
      (a % 4 = 0 → n = 1 →
        let s0 := s.readBlocks [(at' + 64, 4)]
        let r := s0.setupWrite .mailbox a (data.getD 0 0)
        s.askedIn s0 (at' + 64) 4 ∧ s.onlyStewardSent s0 ∧ s0.steward = s.steward ∧ r.1.onlyStewardSent t ∧
          ((r.1.steward.mslot k).req = some h →
            t.steward = { r.1.steward with mbox := r.1.steward.mbox.set k.val { ack := wordAt h 0, req := none } } ∧
            r.1.answeredIn t (r.1.steward.slotAddr k) [] (if r.2 = .ignored then 2 else if r.2 = .unmapped then 3 else 0) seq)))) ∧
  (∀ (s : State) (p : PortIx) (tag : BitVec 12) (addr : GAddr) (len : BitVec 10) (data : List Byte), s.inReset = false →
    Completes (.drd p tag addr len) s (fun t => t = { s with ports := t.ports, out := t.out, fresh := t.fresh } ∧
      (∀ q, q ≠ p → t.port q = s.port q) ∧ (s.roleD p = false → t = s) ∧
      (s.roleD p = true → roleDOk addr (len.toNat + 1) = false → s.out ++ [Out.drsp p tag 1 []] <+: t.out) ∧
      (s.roleD p = true → roleDOk addr (len.toNat + 1) = true → ∀ ws : List Word, ws.length = (len.toNat + 1) / 4 →
        (∀ i, i < ws.length → s.setupRead (addr.toNat + 4 * i) = ws[i]?) →
        s.out ++ [Out.drsp p tag 0 (bytesOfWords ws)] <+: t.out) ∧
      (s.roleD p = true → roleDOk addr (len.toNat + 1) = true →
        (∃ i, i < (len.toNat + 1) / 4 ∧ s.setupRead (addr.toNat + 4 * i) = none) → s.out ++ [Out.drsp p tag 3 []] <+: t.out)) ∧
    Completes (.dwr p tag addr data) s fun t => (s.roleD p = false → t = s) ∧
      (s.roleD p = true → roleDOk addr data.length = false → s.onlyPortOut t p ∧ s.out ++ [Out.drsp p tag 1 []] <+: t.out) ∧
      (s.roleD p = true → roleDOk addr data.length = true → data.length = 4 →
        let r := s.setupWrite .roleD addr.toNat (wordAt data 0)
        t.tiles = r.1.tiles ∧ t.steward = r.1.steward ∧
          r.1.out ++ [Out.drsp p tag (if r.2 = .unmapped then 3 else 0) []] <+: t.out))

/-- Attestation (R518 to R521): requests are signed one at a time; CERTOK is checked again where the directory's CERT fields have been
rewritten; the request whose turn it is is answered with the report over its NONCE and the die's signature of it, or NOKEY without an
identity key. Firmware update in service (R529, R530, R533): FWLOAD reads a slot's manifest, and its image once the manifest has passed; the
standby region then holds the image, checked, or none; FWSWITCH waits until no stitch and no darning is open; then the hand-over block is
written, the regions exchange roles, and the new image runs from its ENTRY; a confirmation in time writes ACTIVE into the directory and
answers OK; without one the previous region runs again from its ENTRY. That a row out of its turn changes nothing is the model's choice
(assumption 1), as are the port of the steward's accesses (assumption 76) and the place and content of the hand-over block (assumption 86).
-/
def Obligations.AttestationAndFirmwareUpdate : Prop :=
  ((∀ (s : State) (k : Fin 4), s.inReset = false →
    let new := (s.steward.request k 3).isSome = true ∧ k ∉ s.steward.attests
    Completes (.attest ⟨k, none⟩) s (fun t => s.onlySteward t ∧
      t.steward = { s.steward with attests := if new then queueAttest s.steward.attests k else s.steward.attests }) ∧
    ∀ dir cert : List Byte, Completes (.attest ⟨k, some (dir, cert)⟩) s fun t => s.onlyStewardSent t ∧ (¬new → t = s) ∧
      (new → t.steward = { s.steward with attests := queueAttest s.steward.attests k }.certify dir cert ∧
        s.askedIn t s.steward.dirAddr 64 ∧ (∀ e ∈ certAt dir, s.askedIn t e.1 e.2) ∧
        (∀ pub, s.steward.public = some pub → numAt dir 48 4 ≤ 8192 → numAt dir 48 4 ≤ cert.length →
          (bitOf (t.steward.reg Reg.ST_ID) 1 = true ↔ Config.certKey (cert.take (numAt dir 48 4)) = some pub)))) ∧
  ∀ (s : State) (k : Fin 4) (h : List Byte), s.inReset = false → s.steward.request k 3 = some h →
    let x := s.steward
    let at' := x.slotAddr k
    let seq := sliceBytes h 0 4
    Completes (.attestDone k) s fun t => s.onlyStewardSent t ∧ (x.attests.head? ≠ some k → t = s) ∧
      (x.attests.head? = some k → t.steward.attests = x.attests.drop 1 ∧
        (x.xi = none → s.answeredIn t at' [] 6 seq) ∧
        ∀ xi, x.xi = some xi → t.steward.signs = x.signs + 1 ∧
          let body := s.reportBody (sliceBytes h 24 32)
          s.answeredIn t at' (body ++ x.sign xi body) 0 seq ∧ sliceBytes body 64 32 = sliceBytes h 24 32 ∧ body.take 4 =
            leBytes 4 (at32 3 28 ||| at32 1 24 ||| at32 x.fuses.stepping.toNat 16 ||| at32 x.fuses.grade.toNat 12 |||
              flag32 (bitOf (x.reg Reg.ST_PROT) 3) 3 ||| flag32 x.locked 2 ||| flag32 (bitOf (x.reg Reg.ST_ID) 1) 1 |||
              flag32 (bitOf (x.reg Reg.ST_PROTERR) 30) 0).toNat)) ∧
  (∀ (s : State) (k : Fin 4) (man img : List Byte), s.inReset = false →
    let x := s.steward
    let idle := x.loading = none ∧ x.switching = none ∧ x.confirmWait = none
    let answers := fun (t : State) (st : Nat) => ∀ h, (x.mslot k).req = some h → s.answeredIn t (x.slotAddr k) [] st (sliceBytes h 0 4)
    let entry := fun r => Config.regionBase r + BitVec.ofNat 64 (numAt (x.fwManifest.getD r []) 20 4)
    let newer := numAt (x.fwManifest.getD x.region []) 4 4 ≤ numAt man 4 4 ∧ fld (wordAt man 0) 0 1 = 0
    let good := x.fuses.check man img = none ∧ newer
    Completes (.fwload k) s (fun t => s.onlyStewardSent t ∧ (x.request k 4 = none ∨ ¬idle → t = s) ∧
      (∀ h, x.request k 4 = some h → idle → t.steward.loading = some k ∧ bitOf (t.steward.reg Reg.ST_FW) 1 = false ∧
        s.askedIn t ((if numAt h 16 1 % 2 = 0 then numAt x.dir 8 8 else numAt x.dir 16 8) % 2 ^ 60) 5413)) ∧
    Completes (.fwloadDone k man img) s (fun t => s.onlyStewardSent t ∧ (x.loading ≠ some k → t = s) ∧
      (x.loading = some k → x.region < 2 → x.regions.length = 2 → x.fwManifest.length = 2 → t.steward.loading = none ∧
        t.steward.regions[x.region]? = x.regions[x.region]? ∧
        (good → t.steward.regions[1 - x.region]? = some (imageBytes man img) ∧ t.steward.fwManifest[1 - x.region]? = some man ∧
          bitOf (t.steward.reg Reg.ST_FW) 1 = true ∧ s.askedIn t (numAt man 8 8 % 2 ^ 60) (numAt man 16 4) ∧ answers t 0) ∧
        (¬good → t.steward.regions[1 - x.region]? = some [] ∧ t.steward.fwManifest[1 - x.region]? = some [] ∧
          t.steward.reg Reg.ST_FW = x.reg Reg.ST_FW ∧ answers t 4))) ∧
    Completes (.fwswitch k) s (fun t => s.onlyStewardSent t ∧ (x.request k 5 = none → t = s) ∧
      (x.request k 5 ≠ none → x.switching = none → x.confirmWait = none →
        (bitOf (x.reg Reg.ST_FW) 1 = true → t = { s with steward := { x with switching := some k } }) ∧
        (bitOf (x.reg Reg.ST_FW) 1 = false → t.steward.switching = none ∧ answers t 5))) ∧
    Completes .fwSwitchExecute s (fun t =>
      (∀ j, x.switching = some j → x.stitches = [] → x.darning = none →
        t = { s with steward := t.steward, fresh := s.fresh + 1 } ∧ t.steward.switching = none ∧ t.steward.confirmWait = some j ∧
        t.steward.region = 1 - x.region ∧ bitOf (t.steward.reg Reg.ST_FW) 2 = false ∧ t.steward.core.pc = entry (1 - x.region) ∧
        t.steward.data = (x.writeHandOver s.fresh).data ∧ ∀ o, o ≠ Reg.ST_FW → t.steward.reg o = x.reg o) ∧
      (x.switching = none ∨ x.stitches ≠ [] ∨ x.darning ≠ none → t = s)) ∧
    Completes .fwConfirm s (fun t => s.onlyStewardSent t ∧ bitOf (t.steward.reg Reg.ST_FW) 2 = true ∧
      (x.confirmWait = none → t.out = s.out ∧ t.ports = s.ports) ∧
      (x.confirmWait = some k → t.steward.confirmWait = none ∧ t.steward.region = x.region ∧
        s.wroteIn t x.dirAddr (leBytes 4 (0x30000000 + x.fwFrom.getD x.region 0)) ∧ answers t 0)) ∧
    Completes .fwConfirmTimeout s fun t => s.onlyStewardSent t ∧ (x.confirmWait = none → t = s) ∧
      (x.confirmWait = some k → t.steward.confirmWait = none ∧ t.steward.region = 1 - x.region ∧
        t.steward.core.pc = entry (1 - x.region) ∧ bitOf (t.steward.reg Reg.ST_FW) 3 = true ∧ answers t 4))
end

