-- ==== Sys2Proof/Laws/Bits.lean ====
section
/-! SUPPORT. Laws of bit fields: what a field or a bit of a word is after a field is set. -/

namespace Sys2Proof.Machine

/-- Bits of a field. -/
theorem testBit_fld {n : Nat} (w : BitVec n) (lo len i : Nat) :
    (fld w lo len).testBit i = (decide (i < len) && w.getLsbD (lo + i)) := by
  simp [fld, Nat.testBit_mod_two_pow, Nat.testBit_shiftRight, BitVec.getLsbD]

theorem bitOf_at32 (v lo i : Nat) : bitOf (at32 v lo) i = (decide (i < 32) && decide (lo ≤ i) && v.testBit (i - lo)) := by
  simp [bitOf, at32, BitVec.getLsbD_ofNat, Nat.testBit_shiftLeft, Bool.and_assoc]

theorem bitOf_mask32 (lo len i : Nat) :
    bitOf (mask32 lo len) i = (decide (i < 32) && decide (lo ≤ i) && decide (i - lo < len)) := by
  simp [bitOf, mask32, BitVec.getLsbD_ofNat, Nat.testBit_shiftLeft, Nat.testBit_two_pow_sub_one, Bool.and_assoc]

theorem bitOf_or {n : Nat} (a b : BitVec n) (i : Nat) : bitOf (a ||| b) i = (bitOf a i || bitOf b i) := by simp [bitOf]

theorem bitOf_and {n : Nat} (a b : BitVec n) (i : Nat) : bitOf (a &&& b) i = (bitOf a i && bitOf b i) := by simp [bitOf]

theorem bitOf_not (a : Word) (i : Nat) : bitOf (~~~a) i = (decide (i < 32) && !bitOf a i) := by simp [bitOf]

/-- A bit of a word of which a field has been set. -/
theorem bitOf_setFld (w : Word) (lo len v i : Nat) :
    bitOf (setFld w lo len v) i =
      if lo ≤ i ∧ i < lo + len ∧ i < 32 then v.testBit (i - lo) else bitOf w i := by
  rw [setFld, bitOf_or, bitOf_and, bitOf_not, bitOf_mask32, bitOf_at32, Nat.testBit_mod_two_pow]
  by_cases h1 : i < 32
  · by_cases h2 : lo ≤ i
    · by_cases h3 : i < lo + len
      · have h4 : i - lo < len := by omega
        simp [h1, h2, h3, h4]
      · have h4 : ¬ i - lo < len := by omega
        simp [h1, h2, h3, h4]
    · simp [h1, h2]
  · have hw : bitOf w i = false := by rw [bitOf]; exact BitVec.getLsbD_of_ge _ _ (by omega)
    simp [h1, hw]

/-- A field as it has been set. -/
theorem fld_setFld (w : Word) (lo len v : Nat) (h : lo + len ≤ 32) : fld (setFld w lo len v) lo len = v % 2 ^ len := by
  apply Nat.eq_of_testBit_eq
  intro i
  rw [testBit_fld, Nat.testBit_mod_two_pow]
  have := bitOf_setFld w lo len v (lo + i)
  rw [bitOf] at this
  rw [this]
  by_cases hi : i < len
  · rw [if_pos ⟨by omega, by omega, by omega⟩]; simp [hi]
  · simp [hi]

/-- A field apart from the one that has been set. -/
theorem fld_setFld_ne (w : Word) (lo len v lo' len' : Nat) (h : lo' + len' ≤ lo ∨ lo + len ≤ lo') :
    fld (setFld w lo len v) lo' len' = fld w lo' len' := by
  apply Nat.eq_of_testBit_eq
  intro i
  rw [testBit_fld, testBit_fld]
  have := bitOf_setFld w lo len v (lo' + i)
  rw [bitOf, bitOf] at this
  by_cases hi : i < len'
  · rw [this, if_neg (by omega)]
  · simp [hi]

/-- A field of a word in which a single bit apart from it has been set. -/
theorem fld_or_at32 (w : Word) (v bit lo len : Nat) (hv : v < 2) (h : bit < lo ∨ lo + len ≤ bit) :
    fld (w ||| at32 v bit) lo len = fld w lo len := by
  apply Nat.eq_of_testBit_eq
  intro i
  rw [testBit_fld, testBit_fld]
  by_cases hi : i < len
  · have h1 := bitOf_or w (at32 v bit) (lo + i)
    rw [bitOf_at32] at h1
    rw [bitOf, bitOf] at h1
    rw [h1]
    by_cases h2 : bit ≤ lo + i
    · have : v.testBit (lo + i - bit) = false :=
        Nat.testBit_lt_two_pow (Nat.lt_of_lt_of_le hv (by
          calc 2 = 2 ^ 1 := rfl
            _ ≤ 2 ^ (lo + i - bit) := Nat.pow_le_pow_right (by omega) (by omega)))
      simp [this]
    · simp [h2]
  · simp [hi]

end Sys2Proof.Machine
end

