-- ==== Sys2Proof/Laws/Map.lean ====
section
/-! SUPPORT. Laws of sparse maps and memories: what a key reads as after an update, and that updates keep the canonical
form. -/

namespace Sys2Proof.Machine

variable {α : Type}

/-! ## Reading after an update -/

@[simp] theorem Map.get_nil (d : Nat → α) (k : Nat) : Map.get d [] k = d k := rfl

theorem Map.get_cons (d : Nat → α) (j : Nat) (v : α) (m : Map α) (k : Nat) :
    Map.get d ((j, v) :: m) k = if k = j then v else Map.get d m k := rfl

/-- A filter on keys leaves the keys that pass it, and makes the others unlisted. -/
theorem Map.get_filter (d : Nat → α) (p : Nat → Bool) (m : Map α) (k : Nat) :
    Map.get d (m.filter fun e => p e.1) k = if p k then Map.get d m k else d k := by
  induction m with
  | nil => simp
  | cons e m ih =>
    obtain ⟨j, v⟩ := e
    by_cases hj : p j
    · rw [List.filter_cons_of_pos (by simpa using hj)]
      by_cases hk : k = j
      · subst hk; simp [Map.get_cons, hj]
      · simp [Map.get_cons, hk, ih]
    · rw [List.filter_cons_of_neg (by simpa using hj)]
      by_cases hk : k = j
      · subst hk; simp [ih, hj]
      · simp [Map.get_cons, hk, ih]

theorem Map.get_drop (d : Nat → α) (m : Map α) (j k : Nat) :
    Map.get d (Map.drop m j) k = if k = j then d k else Map.get d m k := by
  have h := Map.get_filter d (fun x => x != j) m k
  rw [Map.drop, h]
  by_cases hk : k = j <;> simp [hk]

/-- A key that is not listed, inserted. -/
theorem Map.get_insert (d : Nat → α) (j : Nat) (v : α) (m : Map α) (hm : ∀ e ∈ m, e.1 ≠ j) (k : Nat) :
    Map.get d (Map.insert j v m) k = if k = j then v else Map.get d m k := by
  induction m with
  | nil => simp [Map.insert, Map.get_cons]
  | cons e m ih =>
    obtain ⟨i, u⟩ := e
    have hi : i ≠ j := hm (i, u) (by simp)
    rw [Map.insert]
    split
    · simp [Map.get_cons]
    · rw [Map.get_cons, ih fun e he => hm e (by simp [he])]
      by_cases hk : k = j
      · have : ¬ j = i := fun h => hi h.symm
        simp [hk, this]
      · simp [Map.get_cons, hk]

variable [DecidableEq α]

/-- What a key reads as after a key is set. -/
theorem Map.get_set (d : Nat → α) (m : Map α) (j : Nat) (v : α) (k : Nat) :
    Map.get d (Map.set d m j v) k = if k = j then v else Map.get d m k := by
  rw [Map.set]
  split
  · next h =>
    rw [Map.get_drop]
    by_cases hk : k = j
    · subst hk; simp [h]
    · simp [hk]
  · rw [Map.get_insert d j v _ (by simp [Map.drop]), Map.get_drop]
    by_cases hk : k = j <;> simp [hk]

@[simp] theorem Map.get_set_same (d : Nat → α) (m : Map α) (j : Nat) (v : α) : Map.get d (Map.set d m j v) j = v := by
  simp [Map.get_set]

theorem Map.get_set_ne (d : Nat → α) (m : Map α) {j k : Nat} (v : α) (h : k ≠ j) :
    Map.get d (Map.set d m j v) k = Map.get d m k := by simp [Map.get_set, h]

/-! ## The canonical form -/

/-- The canonical form as a property of the list. -/
theorem Map.wf_iff (d : Nat → α) (m : Map α) :
    Map.wf d m = true ↔ (m.Pairwise fun a b => a.1 < b.1) ∧ ∀ e ∈ m, e.2 ≠ d e.1 := by
  induction m with
  | nil => simp [Map.wf]
  | cons e m ih =>
    obtain ⟨k, v⟩ := e
    cases m with
    | nil => simp [Map.wf]
    | cons f m =>
      obtain ⟨j, u⟩ := f
      simp only [Map.wf, Bool.and_eq_true, decide_eq_true_eq, ih, List.pairwise_cons]
      constructor
      · rintro ⟨⟨hv, hkj⟩, ⟨hj, hp⟩, hd⟩
        refine ⟨⟨?_, hj, hp⟩, ?_⟩
        · intro x hx
          rcases List.mem_cons.1 hx with rfl | hx
          · exact hkj
          · exact Nat.lt_trans hkj (hj x hx)
        · intro x hx
          rcases List.mem_cons.1 hx with rfl | hx
          · exact hv
          · exact hd x hx
      · rintro ⟨⟨h1, hj, hp⟩, hd⟩
        exact ⟨⟨hd (k, v) (by simp), h1 (j, u) (by simp)⟩, ⟨hj, hp⟩, fun x hx => hd x (by simp [hx])⟩

/-- Taking entries away keeps the canonical form. -/
theorem Map.wf_filter (d : Nat → α) (m : Map α) (p : Nat × α → Bool) (h : Map.wf d m = true) :
    Map.wf d (m.filter p) = true := by
  rw [Map.wf_iff] at *
  exact ⟨h.1.filter _, fun e he => h.2 e (List.mem_filter.1 he).1⟩

omit [DecidableEq α] in
theorem Map.mem_insert (k : Nat) (v : α) (m : Map α) (e : Nat × α) : e ∈ Map.insert k v m ↔ e = (k, v) ∨ e ∈ m := by
  induction m with
  | nil => simp [Map.insert]
  | cons f m ih =>
    obtain ⟨j, u⟩ := f
    rw [Map.insert]
    split
    · simp
    · simp only [List.mem_cons, ih]; tauto

theorem Map.wf_insert (d : Nat → α) (m : Map α) (k : Nat) (v : α) (h : Map.wf d m = true) (hm : ∀ e ∈ m, e.1 ≠ k)
    (hv : v ≠ d k) : Map.wf d (Map.insert k v m) = true := by
  rw [Map.wf_iff] at *
  refine ⟨?_, ?_⟩
  · obtain ⟨hp, -⟩ := h
    induction m with
    | nil => simp [Map.insert]
    | cons f m ih =>
      obtain ⟨j, u⟩ := f
      rw [List.pairwise_cons] at hp
      rw [Map.insert]
      split
      · next hk =>
        rw [List.pairwise_cons, List.pairwise_cons]
        refine ⟨?_, hp⟩
        intro x hx
        rcases List.mem_cons.1 hx with rfl | hx
        · exact hk
        · exact Nat.lt_trans hk (hp.1 x hx)
      · next hk =>
        rw [List.pairwise_cons]
        refine ⟨?_, ih (fun e he => hm e (by simp [he])) hp.2⟩
        intro x hx
        rcases (Map.mem_insert k v m x).1 hx with rfl | hx
        · have := hm (j, u) (by simp)
          simp only at *; omega
        · exact hp.1 x hx
  · intro e he
    rcases (Map.mem_insert k v m e).1 he with rfl | he
    · exact hv
    · exact h.2 e he

/-- Setting a key keeps the canonical form. -/
theorem Map.wf_set (d : Nat → α) (m : Map α) (k : Nat) (v : α) (h : Map.wf d m = true) :
    Map.wf d (Map.set d m k v) = true := by
  rw [Map.set]
  split
  · exact Map.wf_filter d m _ h
  · next hv => exact Map.wf_insert d _ k v (Map.wf_filter d m _ h) (by simp [Map.drop]) hv

theorem Map.wf_clear (d : Nat → α) (m : Map α) (a b : Nat) (h : Map.wf d m = true) :
    Map.wf d (Map.clear m a b) = true := Map.wf_filter d m _ h

theorem Map.wf_setAll (d : Nat → α) (kvs : List (Nat × α)) (m : Map α) (h : Map.wf d m = true) :
    Map.wf d (Map.setAll d m kvs) = true := by
  induction kvs generalizing m with
  | nil => exact h
  | cons e l ih => exact ih _ (Map.wf_set d m e.1 e.2 h)

omit [DecidableEq α] in
theorem Map.get_of_not_mem (d : Nat → α) (m : Map α) (k : Nat) (h : ∀ e ∈ m, e.1 ≠ k) : Map.get d m k = d k := by
  induction m with
  | nil => rfl
  | cons e m ih =>
    obtain ⟨j, v⟩ := e
    have hj : k ≠ j := fun hk => h (j, v) (by simp) hk.symm
    simp [Map.get_cons, hj, ih fun e he => h e (by simp [he])]

omit [DecidableEq α] in
theorem Map.get_append_left (d : Nat → α) (l m : Map α) (k : Nat) (h : ∀ e ∈ m, e.1 ≠ k) :
    Map.get d (l ++ m) k = Map.get d l k := by
  induction l with
  | nil => exact Map.get_of_not_mem d m k h
  | cons e l ih =>
    obtain ⟨j, v⟩ := e
    rw [List.cons_append, Map.get_cons, Map.get_cons, ih]

omit [DecidableEq α] in
theorem Map.get_append_right (d : Nat → α) (l m : Map α) (k : Nat) (h : ∀ e ∈ l, e.1 ≠ k) :
    Map.get d (l ++ m) k = Map.get d m k := by
  induction l with
  | nil => rfl
  | cons e l ih =>
    obtain ⟨j, v⟩ := e
    have hj : k ≠ j := fun hk => h (j, v) (by simp) hk.symm
    rw [List.cons_append, Map.get_cons, if_neg hj, ih fun e he => h e (by simp [he])]

/-! ## Memories -/

theorem Memory.read_write (m : Memory) (a : Nat) (b : Byte) (x : Nat) :
    Memory.read (Memory.write m a b) x = if x = a then b else Memory.read m x := Map.get_set _ _ _ _ _

theorem Memory.write_wf (m : Memory) (a : Nat) (b : Byte) (h : Memory.wf m = true) :
    Memory.wf (Memory.write m a b) = true := Map.wf_set _ _ _ _ h

theorem Memory.read_zero (m : Memory) (a b x : Nat) :
    Memory.read (Memory.zero m a b) x = if a ≤ x ∧ x < b then 0 else Memory.read m x := by
  have h := Map.get_filter Memory.unwritten (fun k => decide (k < a) || decide (b ≤ k)) m x
  rw [Memory.read, Memory.zero, h]
  by_cases h1 : a ≤ x <;> by_cases h2 : x < b <;> simp [h1, h2, Memory.read, Memory.unwritten]

theorem Memory.zero_wf (m : Memory) (a b : Nat) (h : Memory.wf m = true) : Memory.wf (Memory.zero m a b) = true :=
  Map.wf_filter _ m _ h

theorem Memory.mem_cells (a : Nat) (bs : List Byte) (e : Host.Cell) (he : e ∈ Memory.cells a bs) :
    a ≤ e.1 ∧ e.1 < a + bs.length ∧ e.2 ≠ 0 := by
  induction bs generalizing a with
  | nil => simp [Memory.cells] at he
  | cons b bs ih =>
    rw [Memory.cells] at he
    split at he
    · obtain ⟨h1, h2, h3⟩ := ih (a + 1) he
      exact ⟨by omega, by simp only [List.length_cons]; omega, h3⟩
    · next hb =>
      rcases List.mem_cons.1 he with rfl | he
      · exact ⟨Nat.le_refl _, by simp, hb⟩
      · obtain ⟨h1, h2, h3⟩ := ih (a + 1) he
        exact ⟨by omega, by simp only [List.length_cons]; omega, h3⟩

theorem Memory.get_cells (a : Nat) (bs : List Byte) (x : Nat) :
    Map.get Memory.unwritten (Memory.cells a bs) x = if a ≤ x then bs.getD (x - a) 0 else 0 := by
  induction bs generalizing a with
  | nil => simp [Memory.cells, Memory.unwritten]
  | cons b bs ih =>
    rw [Memory.cells]
    have key : Map.get Memory.unwritten (Memory.cells (a + 1) bs) x = if a + 1 ≤ x then bs.getD (x - (a + 1)) 0 else 0 :=
      ih (a + 1)
    split
    · next hb =>
      rw [key]
      rcases Nat.lt_trichotomy x a with hx | hx | hx
      · rw [if_neg (by omega), if_neg (by omega)]
      · subst hx; simp [hb]
      · rw [if_pos (by omega), if_pos (by omega), show x - a = (x - (a + 1)) + 1 by omega]; rfl
    · rw [Map.get_cons, key]
      rcases Nat.lt_trichotomy x a with hx | hx | hx
      · rw [if_neg (by omega), if_neg (by omega), if_neg (by omega)]
      · subst hx; simp
      · rw [if_neg (by omega), if_pos (by omega), if_pos (by omega), show x - a = (x - (a + 1)) + 1 by omega]; rfl

/-- What a byte reads as after bytes are written. -/
theorem Memory.read_writeBytes (m : Memory) (a : Nat) (bs : List Byte) (x : Nat) :
    Memory.read (Memory.writeBytes m a bs) x =
      if a ≤ x ∧ x < a + bs.length then bs.getD (x - a) 0 else Memory.read m x := by
  have hlo := Map.get_filter Memory.unwritten (fun k => decide (k < a)) m x
  have hhi := Map.get_filter Memory.unwritten (fun k => decide (a + bs.length ≤ k)) m x
  have nlo : a ≤ x → ∀ e ∈ m.filter fun c => decide (c.1 < a), e.1 ≠ x := fun hx e he => by
    have := (List.mem_filter.1 he).2
    simp at this; omega
  have nhi : x < a + bs.length → ∀ e ∈ m.filter fun c => decide (a + bs.length ≤ c.1), e.1 ≠ x := fun hx e he => by
    have := (List.mem_filter.1 he).2
    simp at this; omega
  have nmid : ¬ (a ≤ x ∧ x < a + bs.length) → ∀ e ∈ Memory.cells a bs, e.1 ≠ x := fun hx e he => by
    have := Memory.mem_cells a bs e he
    omega
  rw [Memory.read, Memory.writeBytes]
  by_cases h1 : a ≤ x
  · by_cases h2 : x < a + bs.length
    · rw [if_pos ⟨h1, h2⟩, Map.get_append_left _ _ _ _ (nhi h2), Map.get_append_right _ _ _ _ (nlo h1), Memory.get_cells,
        if_pos h1]
    · rw [if_neg (by omega), List.append_assoc, Map.get_append_right _ _ _ _ (nlo h1),
        Map.get_append_right _ _ _ _ (nmid (by omega)), hhi, if_pos (by simp; omega), Memory.read]
  · rw [if_neg (by omega), Map.get_append_left _ _ _ _ (nhi (by omega)), Map.get_append_left _ _ _ _ (nmid (by omega)), hlo,
      if_pos (by simp; omega), Memory.read]

theorem Memory.cells_pairwise (a : Nat) (bs : List Byte) : (Memory.cells a bs).Pairwise fun c d => c.1 < d.1 := by
  induction bs generalizing a with
  | nil => simp [Memory.cells]
  | cons b bs ih =>
    rw [Memory.cells]
    split
    · exact ih _
    · rw [List.pairwise_cons]
      exact ⟨fun e he => by have := Memory.mem_cells (a + 1) bs e he; simp only; omega, ih _⟩

/-- Writing bytes keeps the canonical form. -/
theorem Memory.writeBytes_wf (m : Memory) (a : Nat) (bs : List Byte) (h : Memory.wf m = true) :
    Memory.wf (Memory.writeBytes m a bs) = true := by
  rw [Memory.wf, Map.wf_iff] at *
  obtain ⟨hp, hd⟩ := h
  refine ⟨?_, ?_⟩
  · rw [Memory.writeBytes, List.pairwise_append, List.pairwise_append]
    refine ⟨⟨hp.filter _, Memory.cells_pairwise a bs, ?_⟩, hp.filter _, ?_⟩
    · intro x hx y hy
      have h1 := (List.mem_filter.1 hx).2
      have h2 := Memory.mem_cells a bs y hy
      simp at h1; omega
    · intro x hx y hy
      have h2 := (List.mem_filter.1 hy).2
      simp at h2
      rcases List.mem_append.1 hx with hx | hx
      · have h1 := (List.mem_filter.1 hx).2
        simp at h1; omega
      · have h1 := Memory.mem_cells a bs x hx
        omega
  · intro e he
    rw [Memory.writeBytes] at he
    rcases List.mem_append.1 he with he | he
    · rcases List.mem_append.1 he with he | he
      · exact hd e (List.mem_filter.1 he).1
      · exact (Memory.mem_cells a bs e he).2.2
    · exact hd e (List.mem_filter.1 he).1

end Sys2Proof.Machine
end

