-- ==== Sys2Proof/Laws/State.lean ====
section
/-! SUPPORT. One lemma per field per update of the state, and what tiles, ports and contexts read as after an update. -/

namespace Sys2Proof.Machine

/-! ## State.setTile -/

@[simp] theorem State.setTile_pending (s : State) (n : Site) (x : Tile) : (s.setTile n x).pending = s.pending := rfl
@[simp] theorem State.setTile_inReset (s : State) (n : Site) (x : Tile) : (s.setTile n x).inReset = s.inReset := rfl
@[simp] theorem State.setTile_ports (s : State) (n : Site) (x : Tile) : (s.setTile n x).ports = s.ports := rfl
@[simp] theorem State.setTile_loom (s : State) (n : Site) (x : Tile) : (s.setTile n x).loom = s.loom := rfl
@[simp] theorem State.setTile_steward (s : State) (n : Site) (x : Tile) : (s.setTile n x).steward = s.steward := rfl
@[simp] theorem State.setTile_tap (s : State) (n : Site) (x : Tile) : (s.setTile n x).tap = s.tap := rfl
@[simp] theorem State.setTile_net (s : State) (n : Site) (x : Tile) : (s.setTile n x).net = s.net := rfl
@[simp] theorem State.setTile_out (s : State) (n : Site) (x : Tile) : (s.setTile n x).out = s.out := rfl
@[simp] theorem State.setTile_periods (s : State) (n : Site) (x : Tile) : (s.setTile n x).periods = s.periods := rfl
@[simp] theorem State.setTile_cycles (s : State) (n : Site) (x : Tile) : (s.setTile n x).cycles = s.cycles := rfl
@[simp] theorem State.setTile_fresh (s : State) (n : Site) (x : Tile) : (s.setTile n x).fresh = s.fresh := rfl
@[simp] theorem State.setTile_scans (s : State) (n : Site) (x : Tile) : (s.setTile n x).scans = s.scans := rfl

/-! ## State.onTile -/

@[simp] theorem State.onTile_pending (s : State) (n : Site) (f : Tile → Tile) : (s.onTile n f).pending = s.pending := rfl
@[simp] theorem State.onTile_inReset (s : State) (n : Site) (f : Tile → Tile) : (s.onTile n f).inReset = s.inReset := rfl
@[simp] theorem State.onTile_ports (s : State) (n : Site) (f : Tile → Tile) : (s.onTile n f).ports = s.ports := rfl
@[simp] theorem State.onTile_loom (s : State) (n : Site) (f : Tile → Tile) : (s.onTile n f).loom = s.loom := rfl
@[simp] theorem State.onTile_steward (s : State) (n : Site) (f : Tile → Tile) : (s.onTile n f).steward = s.steward := rfl
@[simp] theorem State.onTile_tap (s : State) (n : Site) (f : Tile → Tile) : (s.onTile n f).tap = s.tap := rfl
@[simp] theorem State.onTile_net (s : State) (n : Site) (f : Tile → Tile) : (s.onTile n f).net = s.net := rfl
@[simp] theorem State.onTile_out (s : State) (n : Site) (f : Tile → Tile) : (s.onTile n f).out = s.out := rfl
@[simp] theorem State.onTile_periods (s : State) (n : Site) (f : Tile → Tile) : (s.onTile n f).periods = s.periods := rfl
@[simp] theorem State.onTile_cycles (s : State) (n : Site) (f : Tile → Tile) : (s.onTile n f).cycles = s.cycles := rfl
@[simp] theorem State.onTile_fresh (s : State) (n : Site) (f : Tile → Tile) : (s.onTile n f).fresh = s.fresh := rfl
@[simp] theorem State.onTile_scans (s : State) (n : Site) (f : Tile → Tile) : (s.onTile n f).scans = s.scans := rfl

/-! ## State.setPort -/

@[simp] theorem State.setPort_pending (s : State) (n : PortIx) (x : Port) : (s.setPort n x).pending = s.pending := rfl
@[simp] theorem State.setPort_inReset (s : State) (n : PortIx) (x : Port) : (s.setPort n x).inReset = s.inReset := rfl
@[simp] theorem State.setPort_tiles (s : State) (n : PortIx) (x : Port) : (s.setPort n x).tiles = s.tiles := rfl
@[simp] theorem State.setPort_loom (s : State) (n : PortIx) (x : Port) : (s.setPort n x).loom = s.loom := rfl
@[simp] theorem State.setPort_steward (s : State) (n : PortIx) (x : Port) : (s.setPort n x).steward = s.steward := rfl
@[simp] theorem State.setPort_tap (s : State) (n : PortIx) (x : Port) : (s.setPort n x).tap = s.tap := rfl
@[simp] theorem State.setPort_net (s : State) (n : PortIx) (x : Port) : (s.setPort n x).net = s.net := rfl
@[simp] theorem State.setPort_out (s : State) (n : PortIx) (x : Port) : (s.setPort n x).out = s.out := rfl
@[simp] theorem State.setPort_periods (s : State) (n : PortIx) (x : Port) : (s.setPort n x).periods = s.periods := rfl
@[simp] theorem State.setPort_cycles (s : State) (n : PortIx) (x : Port) : (s.setPort n x).cycles = s.cycles := rfl
@[simp] theorem State.setPort_fresh (s : State) (n : PortIx) (x : Port) : (s.setPort n x).fresh = s.fresh := rfl
@[simp] theorem State.setPort_scans (s : State) (n : PortIx) (x : Port) : (s.setPort n x).scans = s.scans := rfl

/-! ## State.onPort -/

@[simp] theorem State.onPort_pending (s : State) (n : PortIx) (f : Port → Port) : (s.onPort n f).pending = s.pending := rfl
@[simp] theorem State.onPort_inReset (s : State) (n : PortIx) (f : Port → Port) : (s.onPort n f).inReset = s.inReset := rfl
@[simp] theorem State.onPort_tiles (s : State) (n : PortIx) (f : Port → Port) : (s.onPort n f).tiles = s.tiles := rfl
@[simp] theorem State.onPort_loom (s : State) (n : PortIx) (f : Port → Port) : (s.onPort n f).loom = s.loom := rfl
@[simp] theorem State.onPort_steward (s : State) (n : PortIx) (f : Port → Port) : (s.onPort n f).steward = s.steward := rfl
@[simp] theorem State.onPort_tap (s : State) (n : PortIx) (f : Port → Port) : (s.onPort n f).tap = s.tap := rfl
@[simp] theorem State.onPort_net (s : State) (n : PortIx) (f : Port → Port) : (s.onPort n f).net = s.net := rfl
@[simp] theorem State.onPort_out (s : State) (n : PortIx) (f : Port → Port) : (s.onPort n f).out = s.out := rfl
@[simp] theorem State.onPort_periods (s : State) (n : PortIx) (f : Port → Port) : (s.onPort n f).periods = s.periods := rfl
@[simp] theorem State.onPort_cycles (s : State) (n : PortIx) (f : Port → Port) : (s.onPort n f).cycles = s.cycles := rfl
@[simp] theorem State.onPort_fresh (s : State) (n : PortIx) (f : Port → Port) : (s.onPort n f).fresh = s.fresh := rfl
@[simp] theorem State.onPort_scans (s : State) (n : PortIx) (f : Port → Port) : (s.onPort n f).scans = s.scans := rfl

/-! ## State.onSteward -/

@[simp] theorem State.onSteward_pending (s : State) (f : Steward → Steward) : (s.onSteward f).pending = s.pending := rfl
@[simp] theorem State.onSteward_inReset (s : State) (f : Steward → Steward) : (s.onSteward f).inReset = s.inReset := rfl
@[simp] theorem State.onSteward_tiles (s : State) (f : Steward → Steward) : (s.onSteward f).tiles = s.tiles := rfl
@[simp] theorem State.onSteward_ports (s : State) (f : Steward → Steward) : (s.onSteward f).ports = s.ports := rfl
@[simp] theorem State.onSteward_loom (s : State) (f : Steward → Steward) : (s.onSteward f).loom = s.loom := rfl
@[simp] theorem State.onSteward_tap (s : State) (f : Steward → Steward) : (s.onSteward f).tap = s.tap := rfl
@[simp] theorem State.onSteward_net (s : State) (f : Steward → Steward) : (s.onSteward f).net = s.net := rfl
@[simp] theorem State.onSteward_out (s : State) (f : Steward → Steward) : (s.onSteward f).out = s.out := rfl
@[simp] theorem State.onSteward_periods (s : State) (f : Steward → Steward) : (s.onSteward f).periods = s.periods := rfl
@[simp] theorem State.onSteward_cycles (s : State) (f : Steward → Steward) : (s.onSteward f).cycles = s.cycles := rfl
@[simp] theorem State.onSteward_fresh (s : State) (f : Steward → Steward) : (s.onSteward f).fresh = s.fresh := rfl
@[simp] theorem State.onSteward_scans (s : State) (f : Steward → Steward) : (s.onSteward f).scans = s.scans := rfl

/-! ## State.setCtx -/

@[simp] theorem State.setCtx_pending (s : State) (n : StreamNo) (c : Ctx) : (s.setCtx n c).pending = s.pending := rfl
@[simp] theorem State.setCtx_inReset (s : State) (n : StreamNo) (c : Ctx) : (s.setCtx n c).inReset = s.inReset := rfl
@[simp] theorem State.setCtx_tiles (s : State) (n : StreamNo) (c : Ctx) : (s.setCtx n c).tiles = s.tiles := rfl
@[simp] theorem State.setCtx_ports (s : State) (n : StreamNo) (c : Ctx) : (s.setCtx n c).ports = s.ports := rfl
@[simp] theorem State.setCtx_steward (s : State) (n : StreamNo) (c : Ctx) : (s.setCtx n c).steward = s.steward := rfl
@[simp] theorem State.setCtx_tap (s : State) (n : StreamNo) (c : Ctx) : (s.setCtx n c).tap = s.tap := rfl
@[simp] theorem State.setCtx_net (s : State) (n : StreamNo) (c : Ctx) : (s.setCtx n c).net = s.net := rfl
@[simp] theorem State.setCtx_out (s : State) (n : StreamNo) (c : Ctx) : (s.setCtx n c).out = s.out := rfl
@[simp] theorem State.setCtx_periods (s : State) (n : StreamNo) (c : Ctx) : (s.setCtx n c).periods = s.periods := rfl
@[simp] theorem State.setCtx_cycles (s : State) (n : StreamNo) (c : Ctx) : (s.setCtx n c).cycles = s.cycles := rfl
@[simp] theorem State.setCtx_fresh (s : State) (n : StreamNo) (c : Ctx) : (s.setCtx n c).fresh = s.fresh := rfl
@[simp] theorem State.setCtx_scans (s : State) (n : StreamNo) (c : Ctx) : (s.setCtx n c).scans = s.scans := rfl

/-! ## State.onCtx -/

@[simp] theorem State.onCtx_pending (s : State) (n : StreamNo) (f : Ctx → Ctx) : (s.onCtx n f).pending = s.pending := rfl
@[simp] theorem State.onCtx_inReset (s : State) (n : StreamNo) (f : Ctx → Ctx) : (s.onCtx n f).inReset = s.inReset := rfl
@[simp] theorem State.onCtx_tiles (s : State) (n : StreamNo) (f : Ctx → Ctx) : (s.onCtx n f).tiles = s.tiles := rfl
@[simp] theorem State.onCtx_ports (s : State) (n : StreamNo) (f : Ctx → Ctx) : (s.onCtx n f).ports = s.ports := rfl
@[simp] theorem State.onCtx_steward (s : State) (n : StreamNo) (f : Ctx → Ctx) : (s.onCtx n f).steward = s.steward := rfl
@[simp] theorem State.onCtx_tap (s : State) (n : StreamNo) (f : Ctx → Ctx) : (s.onCtx n f).tap = s.tap := rfl
@[simp] theorem State.onCtx_net (s : State) (n : StreamNo) (f : Ctx → Ctx) : (s.onCtx n f).net = s.net := rfl
@[simp] theorem State.onCtx_out (s : State) (n : StreamNo) (f : Ctx → Ctx) : (s.onCtx n f).out = s.out := rfl
@[simp] theorem State.onCtx_periods (s : State) (n : StreamNo) (f : Ctx → Ctx) : (s.onCtx n f).periods = s.periods := rfl
@[simp] theorem State.onCtx_cycles (s : State) (n : StreamNo) (f : Ctx → Ctx) : (s.onCtx n f).cycles = s.cycles := rfl
@[simp] theorem State.onCtx_fresh (s : State) (n : StreamNo) (f : Ctx → Ctx) : (s.onCtx n f).fresh = s.fresh := rfl
@[simp] theorem State.onCtx_scans (s : State) (n : StreamNo) (f : Ctx → Ctx) : (s.onCtx n f).scans = s.scans := rfl

/-! ## State.setLoomSite -/

@[simp] theorem State.setLoomSite_pending (s : State) (n : Site) (x : LoomSite) : (s.setLoomSite n x).pending = s.pending := rfl
@[simp] theorem State.setLoomSite_inReset (s : State) (n : Site) (x : LoomSite) : (s.setLoomSite n x).inReset = s.inReset := rfl
@[simp] theorem State.setLoomSite_tiles (s : State) (n : Site) (x : LoomSite) : (s.setLoomSite n x).tiles = s.tiles := rfl
@[simp] theorem State.setLoomSite_ports (s : State) (n : Site) (x : LoomSite) : (s.setLoomSite n x).ports = s.ports := rfl
@[simp] theorem State.setLoomSite_steward (s : State) (n : Site) (x : LoomSite) : (s.setLoomSite n x).steward = s.steward := rfl
@[simp] theorem State.setLoomSite_tap (s : State) (n : Site) (x : LoomSite) : (s.setLoomSite n x).tap = s.tap := rfl
@[simp] theorem State.setLoomSite_net (s : State) (n : Site) (x : LoomSite) : (s.setLoomSite n x).net = s.net := rfl
@[simp] theorem State.setLoomSite_out (s : State) (n : Site) (x : LoomSite) : (s.setLoomSite n x).out = s.out := rfl
@[simp] theorem State.setLoomSite_periods (s : State) (n : Site) (x : LoomSite) : (s.setLoomSite n x).periods = s.periods := rfl
@[simp] theorem State.setLoomSite_cycles (s : State) (n : Site) (x : LoomSite) : (s.setLoomSite n x).cycles = s.cycles := rfl
@[simp] theorem State.setLoomSite_fresh (s : State) (n : Site) (x : LoomSite) : (s.setLoomSite n x).fresh = s.fresh := rfl
@[simp] theorem State.setLoomSite_scans (s : State) (n : Site) (x : LoomSite) : (s.setLoomSite n x).scans = s.scans := rfl

/-! ## State.send -/

@[simp] theorem State.send_pending (s : State) (o : List Out) : (s.send o).pending = s.pending := rfl
@[simp] theorem State.send_inReset (s : State) (o : List Out) : (s.send o).inReset = s.inReset := rfl
@[simp] theorem State.send_tiles (s : State) (o : List Out) : (s.send o).tiles = s.tiles := rfl
@[simp] theorem State.send_ports (s : State) (o : List Out) : (s.send o).ports = s.ports := rfl
@[simp] theorem State.send_loom (s : State) (o : List Out) : (s.send o).loom = s.loom := rfl
@[simp] theorem State.send_steward (s : State) (o : List Out) : (s.send o).steward = s.steward := rfl
@[simp] theorem State.send_tap (s : State) (o : List Out) : (s.send o).tap = s.tap := rfl
@[simp] theorem State.send_net (s : State) (o : List Out) : (s.send o).net = s.net := rfl
@[simp] theorem State.send_periods (s : State) (o : List Out) : (s.send o).periods = s.periods := rfl
@[simp] theorem State.send_cycles (s : State) (o : List Out) : (s.send o).cycles = s.cycles := rfl
@[simp] theorem State.send_fresh (s : State) (o : List Out) : (s.send o).fresh = s.fresh := rfl
@[simp] theorem State.send_scans (s : State) (o : List Out) : (s.send o).scans = s.scans := rfl

/-! ## State.onTap -/

@[simp] theorem State.onTap_pending (s : State) (f : Tap → Tap) : (s.onTap f).pending = s.pending := rfl
@[simp] theorem State.onTap_inReset (s : State) (f : Tap → Tap) : (s.onTap f).inReset = s.inReset := rfl
@[simp] theorem State.onTap_tiles (s : State) (f : Tap → Tap) : (s.onTap f).tiles = s.tiles := rfl
@[simp] theorem State.onTap_ports (s : State) (f : Tap → Tap) : (s.onTap f).ports = s.ports := rfl
@[simp] theorem State.onTap_loom (s : State) (f : Tap → Tap) : (s.onTap f).loom = s.loom := rfl
@[simp] theorem State.onTap_steward (s : State) (f : Tap → Tap) : (s.onTap f).steward = s.steward := rfl
@[simp] theorem State.onTap_net (s : State) (f : Tap → Tap) : (s.onTap f).net = s.net := rfl
@[simp] theorem State.onTap_out (s : State) (f : Tap → Tap) : (s.onTap f).out = s.out := rfl
@[simp] theorem State.onTap_periods (s : State) (f : Tap → Tap) : (s.onTap f).periods = s.periods := rfl
@[simp] theorem State.onTap_cycles (s : State) (f : Tap → Tap) : (s.onTap f).cycles = s.cycles := rfl
@[simp] theorem State.onTap_fresh (s : State) (f : Tap → Tap) : (s.onTap f).fresh = s.fresh := rfl
@[simp] theorem State.onTap_scans (s : State) (f : Tap → Tap) : (s.onTap f).scans = s.scans := rfl

/-! ## State.leaves -/

@[simp] theorem State.leaves_pending (s t : State) : (s.leaves t).pending = s.pending := rfl
@[simp] theorem State.leaves_inReset (s t : State) : (s.leaves t).inReset = false := rfl
@[simp] theorem State.leaves_tiles (s t : State) : (s.leaves t).tiles = t.tiles := rfl
@[simp] theorem State.leaves_ports (s t : State) : (s.leaves t).ports = t.ports := rfl
@[simp] theorem State.leaves_loom (s t : State) : (s.leaves t).loom = t.loom := rfl
@[simp] theorem State.leaves_steward (s t : State) : (s.leaves t).steward = t.steward := rfl
@[simp] theorem State.leaves_tap (s t : State) : (s.leaves t).tap = t.tap := rfl
@[simp] theorem State.leaves_net (s t : State) : (s.leaves t).net = t.net := rfl
@[simp] theorem State.leaves_out (s t : State) : (s.leaves t).out = t.out := rfl
@[simp] theorem State.leaves_periods (s t : State) : (s.leaves t).periods = t.periods := rfl
@[simp] theorem State.leaves_cycles (s t : State) : (s.leaves t).cycles = t.cycles := rfl
@[simp] theorem State.leaves_fresh (s t : State) : (s.leaves t).fresh = t.fresh := rfl
@[simp] theorem State.leaves_scans (s t : State) : (s.leaves t).scans = t.scans := rfl

/-! ## Tiles, ports, contexts and the steward -/

@[simp] theorem State.tile_leaves (s t : State) (n : Site) : (s.leaves t).tile n = t.tile n := rfl
@[simp] theorem State.port_leaves (s t : State) (n : PortIx) : (s.leaves t).port n = t.port n := rfl
@[simp] theorem State.ctx_leaves (s t : State) (n : StreamNo) : (s.leaves t).ctx n = t.ctx n := rfl

theorem State.tile_setTile (s : State) (n m : Site) (x : Tile) :
    (s.setTile n x).tile m = if m = n then x else s.tile m := by
  simp only [State.tile, State.setTile, Map.get_set, Fin.ext_iff]

@[simp] theorem State.tile_setTile_same (s : State) (n : Site) (x : Tile) : (s.setTile n x).tile n = x := by
  simp [State.tile_setTile]

theorem State.tile_setTile_ne (s : State) {n m : Site} (x : Tile) (h : m ≠ n) : (s.setTile n x).tile m = s.tile m := by
  simp [State.tile_setTile, h]

@[simp] theorem State.tile_onTile_same (s : State) (n : Site) (f : Tile → Tile) : (s.onTile n f).tile n = f (s.tile n) := by
  simp [State.onTile]

theorem State.tile_onTile_ne (s : State) {n m : Site} (f : Tile → Tile) (h : m ≠ n) :
    (s.onTile n f).tile m = s.tile m := by simp [State.onTile, State.tile_setTile, h]

theorem State.port_setPort (s : State) (n m : PortIx) (x : Port) :
    (s.setPort n x).port m = if m = n then x else s.port m := by
  simp only [State.port, State.setPort, Map.get_set, Fin.ext_iff]

@[simp] theorem State.port_setPort_same (s : State) (n : PortIx) (x : Port) : (s.setPort n x).port n = x := by
  simp [State.port_setPort]

@[simp] theorem State.port_onPort_same (s : State) (n : PortIx) (f : Port → Port) : (s.onPort n f).port n = f (s.port n) := by
  simp [State.onPort]

theorem State.port_onPort_ne (s : State) {n m : PortIx} (f : Port → Port) (h : m ≠ n) :
    (s.onPort n f).port m = s.port m := by simp [State.onPort, State.port_setPort, h]

theorem State.ctx_setCtx (s : State) (n m : StreamNo) (x : Ctx) :
    (s.setCtx n x).ctx m = if m = n then x else s.ctx m := by
  simp only [State.ctx, State.setCtx, Map.get_set, Fin.ext_iff]

@[simp] theorem State.ctx_setCtx_same (s : State) (n : StreamNo) (x : Ctx) : (s.setCtx n x).ctx n = x := by
  simp [State.ctx_setCtx]

@[simp] theorem State.ctx_onCtx_same (s : State) (n : StreamNo) (f : Ctx → Ctx) : (s.onCtx n f).ctx n = f (s.ctx n) := by
  simp [State.onCtx]

@[simp] theorem State.onSteward_steward (s : State) (f : Steward → Steward) : (s.onSteward f).steward = f s.steward := rfl
@[simp] theorem State.send_out (s : State) (o : List Out) : (s.send o).out = s.out ++ o := rfl

@[simp] theorem State.port_setTile (s : State) (n : Site) (x : Tile) (m : PortIx) : (s.setTile n x).port m = s.port m := rfl
@[simp] theorem State.ctx_setTile (s : State) (n : Site) (x : Tile) (m : StreamNo) : (s.setTile n x).ctx m = s.ctx m := rfl
@[simp] theorem State.tile_setPort (s : State) (n : PortIx) (x : Port) (m : Site) : (s.setPort n x).tile m = s.tile m := rfl
@[simp] theorem State.tile_onSteward (s : State) (f : Steward → Steward) (m : Site) : (s.onSteward f).tile m = s.tile m := rfl
@[simp] theorem State.port_onSteward (s : State) (f : Steward → Steward) (m : PortIx) : (s.onSteward f).port m = s.port m := rfl
@[simp] theorem State.tile_setCtx (s : State) (n : StreamNo) (c : Ctx) (m : Site) : (s.setCtx n c).tile m = s.tile m := rfl

/-! ## Outcomes -/

/-- A command of a chiplet out of reset. -/
theorem live_out (s : State) (f : State → State) (h : s.inReset = false) : live s f = .next (s.leaves (f s)) := by
  simp [live, h]

/-- A command of a chiplet in reset. -/
theorem live_in (s : State) (f : State → State) (h : s.inReset = true) : live s f = .next s := by simp [live, h]

theorem leaves_of_frame (s t : State) (h : s.inReset = false) (hp : t.pending = s.pending) (hr : t.inReset = s.inReset) :
    s.leaves t = t := by
  rw [State.leaves, ← hp, ← h, ← hr]

/-- How a command of a running chiplet completes. -/
theorem completes_live {c : Instr} {s : State} {p : State → Prop} {f : State → State} (he : exec c s = live s f)
    (h : s.inReset = false) (hp : p (s.leaves (f s))) : Completes c s p := ⟨_, he.trans (live_out s f h), hp⟩

@[simp] theorem leaves_onTile (s : State) (n : Site) (f : Tile → Tile) (h : s.inReset = false) :
    s.leaves (s.onTile n f) = s.onTile n f := by simp [State.leaves, State.onTile, State.setTile, h]

@[simp] theorem leaves_setTile (s : State) (n : Site) (x : Tile) (h : s.inReset = false) :
    s.leaves (s.setTile n x) = s.setTile n x := by simp [State.leaves, State.setTile, h]

@[simp] theorem leaves_onPort (s : State) (n : PortIx) (f : Port → Port) (h : s.inReset = false) :
    s.leaves (s.onPort n f) = s.onPort n f := by simp [State.leaves, State.onPort, State.setPort, h]

@[simp] theorem leaves_onSteward (s : State) (f : Steward → Steward) (h : s.inReset = false) :
    s.leaves (s.onSteward f) = s.onSteward f := by simp [State.leaves, State.onSteward, h]

@[simp] theorem leaves_onCtx (s : State) (n : StreamNo) (f : Ctx → Ctx) (h : s.inReset = false) :
    s.leaves (s.onCtx n f) = s.onCtx n f := by simp [State.leaves, State.onCtx, State.setCtx, h]

@[simp] theorem leaves_self (s : State) (h : s.inReset = false) : s.leaves s = s := by simp [State.leaves, ← h]

/-- A change of one tile changes only that tile. -/
theorem onlyTile_onTile (s : State) (n : Site) (f : Tile → Tile) (h : s.inReset = false) :
    s.onlyTile (s.leaves (s.onTile n f)) n := by
  refine ⟨?_, fun m hm => by simp [State.tile_onTile_ne s f hm]⟩
  simp [State.leaves, State.onTile, State.setTile, h]

theorem onlyTile_setTile (s : State) (n : Site) (x : Tile) (h : s.inReset = false) : s.onlyTile (s.leaves (s.setTile n x)) n :=
  onlyTile_onTile s n (fun _ => x) h

theorem onlyTile_self (s : State) (n : Site) : s.onlyTile s n := ⟨rfl, fun _ _ => rfl⟩

/-- A change of one port changes only that port. -/
theorem onlyPort_onPort (s : State) (n : PortIx) (f : Port → Port) (h : s.inReset = false) :
    s.onlyPort (s.leaves (s.onPort n f)) n := by
  refine ⟨?_, fun m hm => by simp [State.port_onPort_ne s f hm]⟩
  simp [State.leaves, State.onPort, State.setPort, h]

/-- A change of the steward changes only the steward. -/
theorem onlySteward_onSteward (s : State) (f : Steward → Steward) (h : s.inReset = false) :
    s.onlySteward (s.leaves (s.onSteward f)) := by
  simp [State.onlySteward, State.leaves, State.onSteward, h]

/-! ## Registers of a tile, a port and the steward -/

theorem Tile.reg_setReg (t : Tile) (a b : Nat) (w : Word) : (t.setReg a w).reg b = if b = a then w else t.reg b := by
  simp only [Tile.reg, Tile.setReg, Map.get_set]

theorem Port.reg_setReg (t : Port) (a b : Nat) (w : Word) : (t.setReg a w).reg b = if b = a then w else t.reg b := by
  simp only [Port.reg, Port.setReg, Map.get_set]

theorem Steward.reg_setReg (t : Steward) (a b : Nat) (w : Word) :
    (t.setReg a w).reg b = if b = a then w else t.reg b := by
  simp only [Steward.reg, Steward.setReg, Map.get_set]

@[simp] theorem Tile.setReg_reg_same (t : Tile) (a : Nat) (w : Word) : (t.setReg a w).reg a = w := by simp [Tile.reg_setReg]
@[simp] theorem Port.setReg_reg_same (t : Port) (a : Nat) (w : Word) : (t.setReg a w).reg a = w := by simp [Port.reg_setReg]
@[simp] theorem Steward.setReg_reg_same (t : Steward) (a : Nat) (w : Word) : (t.setReg a w).reg a = w := by
  simp [Steward.reg_setReg]

/-! ## Tile.setReg -/

@[simp] theorem Tile.setReg_groups (t : Tile) (a : Nat) (w : Word) : (t.setReg a w).groups = t.groups := rfl
@[simp] theorem Tile.setReg_units (t : Tile) (a : Nat) (w : Word) : (t.setReg a w).units = t.units := rfl
@[simp] theorem Tile.setReg_mu (t : Tile) (a : Nat) (w : Word) : (t.setReg a w).mu = t.mu := rfl
@[simp] theorem Tile.setReg_la (t : Tile) (a : Nat) (w : Word) : (t.setReg a w).la = t.la := rfl
@[simp] theorem Tile.setReg_trf (t : Tile) (a : Nat) (w : Word) : (t.setReg a w).trf = t.trf := rfl
@[simp] theorem Tile.setReg_sfHeld (t : Tile) (a : Nat) (w : Word) : (t.setReg a w).sfHeld = t.sfHeld := rfl
@[simp] theorem Tile.setReg_sfGen (t : Tile) (a : Nat) (w : Word) : (t.setReg a w).sfGen = t.sfGen := rfl
@[simp] theorem Tile.setReg_trfRefused (t : Tile) (a : Nat) (w : Word) : (t.setReg a w).trfRefused = t.trfRefused := rfl
@[simp] theorem Tile.setReg_sp (t : Tile) (a : Nat) (w : Word) : (t.setReg a w).sp = t.sp := rfl
@[simp] theorem Tile.setReg_sh (t : Tile) (a : Nat) (w : Word) : (t.setReg a w).sh = t.sh := rfl
@[simp] theorem Tile.setReg_core (t : Tile) (a : Nat) (w : Word) : (t.setReg a w).core = t.core := rfl
@[simp] theorem Tile.setReg_queues (t : Tile) (a : Nat) (w : Word) : (t.setReg a w).queues = t.queues := rfl
@[simp] theorem Tile.setReg_helds (t : Tile) (a : Nat) (w : Word) : (t.setReg a w).helds = t.helds := rfl
@[simp] theorem Tile.setReg_seqs (t : Tile) (a : Nat) (w : Word) : (t.setReg a w).seqs = t.seqs := rfl
@[simp] theorem Tile.setReg_ports (t : Tile) (a : Nat) (w : Word) : (t.setReg a w).ports = t.ports := rfl
@[simp] theorem Tile.setReg_firings (t : Tile) (a : Nat) (w : Word) : (t.setReg a w).firings = t.firings := rfl
@[simp] theorem Tile.setReg_nextFiring (t : Tile) (a : Nat) (w : Word) : (t.setReg a w).nextFiring = t.nextFiring := rfl
@[simp] theorem Tile.setReg_spillOrder (t : Tile) (a : Nat) (w : Word) : (t.setReg a w).spillOrder = t.spillOrder := rfl
@[simp] theorem Tile.setReg_live (t : Tile) (a : Nat) (w : Word) : (t.setReg a w).live = t.live := rfl
@[simp] theorem Tile.setReg_snap (t : Tile) (a : Nat) (w : Word) : (t.setReg a w).snap = t.snap := rfl
@[simp] theorem Tile.setReg_stitch (t : Tile) (a : Nat) (w : Word) : (t.setReg a w).stitch = t.stitch := rfl
@[simp] theorem Tile.setReg_freeze (t : Tile) (a : Nat) (w : Word) : (t.setReg a w).freeze = t.freeze := rfl
@[simp] theorem Tile.setReg_prog (t : Tile) (a : Nat) (w : Word) : (t.setReg a w).prog = t.prog := rfl
@[simp] theorem Tile.setReg_router (t : Tile) (a : Nat) (w : Word) : (t.setReg a w).router = t.router := rfl
@[simp] theorem Tile.setReg_buckets (t : Tile) (a : Nat) (w : Word) : (t.setReg a w).buckets = t.buckets := rfl
@[simp] theorem Tile.setReg_outq (t : Tile) (a : Nat) (w : Word) : (t.setReg a w).outq = t.outq := rfl
@[simp] theorem Tile.setReg_warpq (t : Tile) (a : Nat) (w : Word) : (t.setReg a w).warpq = t.warpq := rfl
@[simp] theorem Tile.setReg_wires (t : Tile) (a : Nat) (w : Word) : (t.setReg a w).wires = t.wires := rfl
@[simp] theorem Tile.setReg_errCounts (t : Tile) (a : Nat) (w : Word) : (t.setReg a w).errCounts = t.errCounts := rfl
@[simp] theorem Tile.setReg_stamp (t : Tile) (a : Nat) (w : Word) : (t.setReg a w).stamp = t.stamp := rfl
@[simp] theorem Tile.setReg_cycles (t : Tile) (a : Nat) (w : Word) : (t.setReg a w).cycles = t.cycles := rfl
@[simp] theorem Tile.setReg_origin (t : Tile) (a : Nat) (w : Word) : (t.setReg a w).origin = t.origin := rfl
@[simp] theorem Tile.setReg_asleep (t : Tile) (a : Nat) (w : Word) : (t.setReg a w).asleep = t.asleep := rfl
@[simp] theorem Tile.setReg_sleeping (t : Tile) (a : Nat) (w : Word) : (t.setReg a w).sleeping = t.sleeping := rfl
@[simp] theorem Tile.setReg_waking (t : Tile) (a : Nat) (w : Word) : (t.setReg a w).waking = t.waking := rfl
@[simp] theorem Tile.setReg_scrubbing (t : Tile) (a : Nat) (w : Word) : (t.setReg a w).scrubbing = t.scrubbing := rfl
@[simp] theorem Tile.setReg_repairMap (t : Tile) (a : Nat) (w : Word) : (t.setReg a w).repairMap = t.repairMap := rfl
@[simp] theorem Tile.setReg_thermThr (t : Tile) (a : Nat) (w : Word) : (t.setReg a w).thermThr = t.thermThr := rfl
@[simp] theorem Tile.setReg_fresh (t : Tile) (a : Nat) (w : Word) : (t.setReg a w).fresh = t.fresh := rfl

/-! ## Tile.setGroup -/

@[simp] theorem Tile.setGroup_regs (t : Tile) (g : Nat) (x : GroupSt) : (t.setGroup g x).regs = t.regs := rfl
@[simp] theorem Tile.setGroup_units (t : Tile) (g : Nat) (x : GroupSt) : (t.setGroup g x).units = t.units := rfl
@[simp] theorem Tile.setGroup_mu (t : Tile) (g : Nat) (x : GroupSt) : (t.setGroup g x).mu = t.mu := rfl
@[simp] theorem Tile.setGroup_la (t : Tile) (g : Nat) (x : GroupSt) : (t.setGroup g x).la = t.la := rfl
@[simp] theorem Tile.setGroup_trf (t : Tile) (g : Nat) (x : GroupSt) : (t.setGroup g x).trf = t.trf := rfl
@[simp] theorem Tile.setGroup_sfHeld (t : Tile) (g : Nat) (x : GroupSt) : (t.setGroup g x).sfHeld = t.sfHeld := rfl
@[simp] theorem Tile.setGroup_sfGen (t : Tile) (g : Nat) (x : GroupSt) : (t.setGroup g x).sfGen = t.sfGen := rfl
@[simp] theorem Tile.setGroup_trfRefused (t : Tile) (g : Nat) (x : GroupSt) : (t.setGroup g x).trfRefused = t.trfRefused := rfl
@[simp] theorem Tile.setGroup_sp (t : Tile) (g : Nat) (x : GroupSt) : (t.setGroup g x).sp = t.sp := rfl
@[simp] theorem Tile.setGroup_sh (t : Tile) (g : Nat) (x : GroupSt) : (t.setGroup g x).sh = t.sh := rfl
@[simp] theorem Tile.setGroup_core (t : Tile) (g : Nat) (x : GroupSt) : (t.setGroup g x).core = t.core := rfl
@[simp] theorem Tile.setGroup_queues (t : Tile) (g : Nat) (x : GroupSt) : (t.setGroup g x).queues = t.queues := rfl
@[simp] theorem Tile.setGroup_helds (t : Tile) (g : Nat) (x : GroupSt) : (t.setGroup g x).helds = t.helds := rfl
@[simp] theorem Tile.setGroup_seqs (t : Tile) (g : Nat) (x : GroupSt) : (t.setGroup g x).seqs = t.seqs := rfl
@[simp] theorem Tile.setGroup_ports (t : Tile) (g : Nat) (x : GroupSt) : (t.setGroup g x).ports = t.ports := rfl
@[simp] theorem Tile.setGroup_firings (t : Tile) (g : Nat) (x : GroupSt) : (t.setGroup g x).firings = t.firings := rfl
@[simp] theorem Tile.setGroup_nextFiring (t : Tile) (g : Nat) (x : GroupSt) : (t.setGroup g x).nextFiring = t.nextFiring := rfl
@[simp] theorem Tile.setGroup_spillOrder (t : Tile) (g : Nat) (x : GroupSt) : (t.setGroup g x).spillOrder = t.spillOrder := rfl
@[simp] theorem Tile.setGroup_live (t : Tile) (g : Nat) (x : GroupSt) : (t.setGroup g x).live = t.live := rfl
@[simp] theorem Tile.setGroup_snap (t : Tile) (g : Nat) (x : GroupSt) : (t.setGroup g x).snap = t.snap := rfl
@[simp] theorem Tile.setGroup_stitch (t : Tile) (g : Nat) (x : GroupSt) : (t.setGroup g x).stitch = t.stitch := rfl
@[simp] theorem Tile.setGroup_freeze (t : Tile) (g : Nat) (x : GroupSt) : (t.setGroup g x).freeze = t.freeze := rfl
@[simp] theorem Tile.setGroup_prog (t : Tile) (g : Nat) (x : GroupSt) : (t.setGroup g x).prog = t.prog := rfl
@[simp] theorem Tile.setGroup_router (t : Tile) (g : Nat) (x : GroupSt) : (t.setGroup g x).router = t.router := rfl
@[simp] theorem Tile.setGroup_buckets (t : Tile) (g : Nat) (x : GroupSt) : (t.setGroup g x).buckets = t.buckets := rfl
@[simp] theorem Tile.setGroup_outq (t : Tile) (g : Nat) (x : GroupSt) : (t.setGroup g x).outq = t.outq := rfl
@[simp] theorem Tile.setGroup_warpq (t : Tile) (g : Nat) (x : GroupSt) : (t.setGroup g x).warpq = t.warpq := rfl
@[simp] theorem Tile.setGroup_wires (t : Tile) (g : Nat) (x : GroupSt) : (t.setGroup g x).wires = t.wires := rfl
@[simp] theorem Tile.setGroup_errCounts (t : Tile) (g : Nat) (x : GroupSt) : (t.setGroup g x).errCounts = t.errCounts := rfl
@[simp] theorem Tile.setGroup_stamp (t : Tile) (g : Nat) (x : GroupSt) : (t.setGroup g x).stamp = t.stamp := rfl
@[simp] theorem Tile.setGroup_cycles (t : Tile) (g : Nat) (x : GroupSt) : (t.setGroup g x).cycles = t.cycles := rfl
@[simp] theorem Tile.setGroup_origin (t : Tile) (g : Nat) (x : GroupSt) : (t.setGroup g x).origin = t.origin := rfl
@[simp] theorem Tile.setGroup_asleep (t : Tile) (g : Nat) (x : GroupSt) : (t.setGroup g x).asleep = t.asleep := rfl
@[simp] theorem Tile.setGroup_sleeping (t : Tile) (g : Nat) (x : GroupSt) : (t.setGroup g x).sleeping = t.sleeping := rfl
@[simp] theorem Tile.setGroup_waking (t : Tile) (g : Nat) (x : GroupSt) : (t.setGroup g x).waking = t.waking := rfl
@[simp] theorem Tile.setGroup_scrubbing (t : Tile) (g : Nat) (x : GroupSt) : (t.setGroup g x).scrubbing = t.scrubbing := rfl
@[simp] theorem Tile.setGroup_repairMap (t : Tile) (g : Nat) (x : GroupSt) : (t.setGroup g x).repairMap = t.repairMap := rfl
@[simp] theorem Tile.setGroup_thermThr (t : Tile) (g : Nat) (x : GroupSt) : (t.setGroup g x).thermThr = t.thermThr := rfl
@[simp] theorem Tile.setGroup_fresh (t : Tile) (g : Nat) (x : GroupSt) : (t.setGroup g x).fresh = t.fresh := rfl

/-! ## Tile.setUnit -/

@[simp] theorem Tile.setUnit_regs (t : Tile) (u : UnitC) (x : UnitSt) : (t.setUnit u x).regs = t.regs := rfl
@[simp] theorem Tile.setUnit_groups (t : Tile) (u : UnitC) (x : UnitSt) : (t.setUnit u x).groups = t.groups := rfl
@[simp] theorem Tile.setUnit_mu (t : Tile) (u : UnitC) (x : UnitSt) : (t.setUnit u x).mu = t.mu := rfl
@[simp] theorem Tile.setUnit_la (t : Tile) (u : UnitC) (x : UnitSt) : (t.setUnit u x).la = t.la := rfl
@[simp] theorem Tile.setUnit_trf (t : Tile) (u : UnitC) (x : UnitSt) : (t.setUnit u x).trf = t.trf := rfl
@[simp] theorem Tile.setUnit_sfHeld (t : Tile) (u : UnitC) (x : UnitSt) : (t.setUnit u x).sfHeld = t.sfHeld := rfl
@[simp] theorem Tile.setUnit_sfGen (t : Tile) (u : UnitC) (x : UnitSt) : (t.setUnit u x).sfGen = t.sfGen := rfl
@[simp] theorem Tile.setUnit_trfRefused (t : Tile) (u : UnitC) (x : UnitSt) : (t.setUnit u x).trfRefused = t.trfRefused := rfl
@[simp] theorem Tile.setUnit_sp (t : Tile) (u : UnitC) (x : UnitSt) : (t.setUnit u x).sp = t.sp := rfl
@[simp] theorem Tile.setUnit_sh (t : Tile) (u : UnitC) (x : UnitSt) : (t.setUnit u x).sh = t.sh := rfl
@[simp] theorem Tile.setUnit_core (t : Tile) (u : UnitC) (x : UnitSt) : (t.setUnit u x).core = t.core := rfl
@[simp] theorem Tile.setUnit_queues (t : Tile) (u : UnitC) (x : UnitSt) : (t.setUnit u x).queues = t.queues := rfl
@[simp] theorem Tile.setUnit_helds (t : Tile) (u : UnitC) (x : UnitSt) : (t.setUnit u x).helds = t.helds := rfl
@[simp] theorem Tile.setUnit_seqs (t : Tile) (u : UnitC) (x : UnitSt) : (t.setUnit u x).seqs = t.seqs := rfl
@[simp] theorem Tile.setUnit_ports (t : Tile) (u : UnitC) (x : UnitSt) : (t.setUnit u x).ports = t.ports := rfl
@[simp] theorem Tile.setUnit_firings (t : Tile) (u : UnitC) (x : UnitSt) : (t.setUnit u x).firings = t.firings := rfl
@[simp] theorem Tile.setUnit_nextFiring (t : Tile) (u : UnitC) (x : UnitSt) : (t.setUnit u x).nextFiring = t.nextFiring := rfl
@[simp] theorem Tile.setUnit_spillOrder (t : Tile) (u : UnitC) (x : UnitSt) : (t.setUnit u x).spillOrder = t.spillOrder := rfl
@[simp] theorem Tile.setUnit_live (t : Tile) (u : UnitC) (x : UnitSt) : (t.setUnit u x).live = t.live := rfl
@[simp] theorem Tile.setUnit_snap (t : Tile) (u : UnitC) (x : UnitSt) : (t.setUnit u x).snap = t.snap := rfl
@[simp] theorem Tile.setUnit_stitch (t : Tile) (u : UnitC) (x : UnitSt) : (t.setUnit u x).stitch = t.stitch := rfl
@[simp] theorem Tile.setUnit_freeze (t : Tile) (u : UnitC) (x : UnitSt) : (t.setUnit u x).freeze = t.freeze := rfl
@[simp] theorem Tile.setUnit_prog (t : Tile) (u : UnitC) (x : UnitSt) : (t.setUnit u x).prog = t.prog := rfl
@[simp] theorem Tile.setUnit_router (t : Tile) (u : UnitC) (x : UnitSt) : (t.setUnit u x).router = t.router := rfl
@[simp] theorem Tile.setUnit_buckets (t : Tile) (u : UnitC) (x : UnitSt) : (t.setUnit u x).buckets = t.buckets := rfl
@[simp] theorem Tile.setUnit_outq (t : Tile) (u : UnitC) (x : UnitSt) : (t.setUnit u x).outq = t.outq := rfl
@[simp] theorem Tile.setUnit_warpq (t : Tile) (u : UnitC) (x : UnitSt) : (t.setUnit u x).warpq = t.warpq := rfl
@[simp] theorem Tile.setUnit_wires (t : Tile) (u : UnitC) (x : UnitSt) : (t.setUnit u x).wires = t.wires := rfl
@[simp] theorem Tile.setUnit_errCounts (t : Tile) (u : UnitC) (x : UnitSt) : (t.setUnit u x).errCounts = t.errCounts := rfl
@[simp] theorem Tile.setUnit_stamp (t : Tile) (u : UnitC) (x : UnitSt) : (t.setUnit u x).stamp = t.stamp := rfl
@[simp] theorem Tile.setUnit_cycles (t : Tile) (u : UnitC) (x : UnitSt) : (t.setUnit u x).cycles = t.cycles := rfl
@[simp] theorem Tile.setUnit_origin (t : Tile) (u : UnitC) (x : UnitSt) : (t.setUnit u x).origin = t.origin := rfl
@[simp] theorem Tile.setUnit_asleep (t : Tile) (u : UnitC) (x : UnitSt) : (t.setUnit u x).asleep = t.asleep := rfl
@[simp] theorem Tile.setUnit_sleeping (t : Tile) (u : UnitC) (x : UnitSt) : (t.setUnit u x).sleeping = t.sleeping := rfl
@[simp] theorem Tile.setUnit_waking (t : Tile) (u : UnitC) (x : UnitSt) : (t.setUnit u x).waking = t.waking := rfl
@[simp] theorem Tile.setUnit_scrubbing (t : Tile) (u : UnitC) (x : UnitSt) : (t.setUnit u x).scrubbing = t.scrubbing := rfl
@[simp] theorem Tile.setUnit_repairMap (t : Tile) (u : UnitC) (x : UnitSt) : (t.setUnit u x).repairMap = t.repairMap := rfl
@[simp] theorem Tile.setUnit_thermThr (t : Tile) (u : UnitC) (x : UnitSt) : (t.setUnit u x).thermThr = t.thermThr := rfl
@[simp] theorem Tile.setUnit_fresh (t : Tile) (u : UnitC) (x : UnitSt) : (t.setUnit u x).fresh = t.fresh := rfl

/-! ## Tile.onSp -/

@[simp] theorem Tile.onSp_regs (t : Tile) (f : SpSt → SpSt) : (t.onSp f).regs = t.regs := rfl
@[simp] theorem Tile.onSp_groups (t : Tile) (f : SpSt → SpSt) : (t.onSp f).groups = t.groups := rfl
@[simp] theorem Tile.onSp_units (t : Tile) (f : SpSt → SpSt) : (t.onSp f).units = t.units := rfl
@[simp] theorem Tile.onSp_mu (t : Tile) (f : SpSt → SpSt) : (t.onSp f).mu = t.mu := rfl
@[simp] theorem Tile.onSp_la (t : Tile) (f : SpSt → SpSt) : (t.onSp f).la = t.la := rfl
@[simp] theorem Tile.onSp_trf (t : Tile) (f : SpSt → SpSt) : (t.onSp f).trf = t.trf := rfl
@[simp] theorem Tile.onSp_sfHeld (t : Tile) (f : SpSt → SpSt) : (t.onSp f).sfHeld = t.sfHeld := rfl
@[simp] theorem Tile.onSp_sfGen (t : Tile) (f : SpSt → SpSt) : (t.onSp f).sfGen = t.sfGen := rfl
@[simp] theorem Tile.onSp_trfRefused (t : Tile) (f : SpSt → SpSt) : (t.onSp f).trfRefused = t.trfRefused := rfl
@[simp] theorem Tile.onSp_sh (t : Tile) (f : SpSt → SpSt) : (t.onSp f).sh = t.sh := rfl
@[simp] theorem Tile.onSp_core (t : Tile) (f : SpSt → SpSt) : (t.onSp f).core = t.core := rfl
@[simp] theorem Tile.onSp_queues (t : Tile) (f : SpSt → SpSt) : (t.onSp f).queues = t.queues := rfl
@[simp] theorem Tile.onSp_helds (t : Tile) (f : SpSt → SpSt) : (t.onSp f).helds = t.helds := rfl
@[simp] theorem Tile.onSp_seqs (t : Tile) (f : SpSt → SpSt) : (t.onSp f).seqs = t.seqs := rfl
@[simp] theorem Tile.onSp_ports (t : Tile) (f : SpSt → SpSt) : (t.onSp f).ports = t.ports := rfl
@[simp] theorem Tile.onSp_firings (t : Tile) (f : SpSt → SpSt) : (t.onSp f).firings = t.firings := rfl
@[simp] theorem Tile.onSp_nextFiring (t : Tile) (f : SpSt → SpSt) : (t.onSp f).nextFiring = t.nextFiring := rfl
@[simp] theorem Tile.onSp_spillOrder (t : Tile) (f : SpSt → SpSt) : (t.onSp f).spillOrder = t.spillOrder := rfl
@[simp] theorem Tile.onSp_live (t : Tile) (f : SpSt → SpSt) : (t.onSp f).live = t.live := rfl
@[simp] theorem Tile.onSp_snap (t : Tile) (f : SpSt → SpSt) : (t.onSp f).snap = t.snap := rfl
@[simp] theorem Tile.onSp_stitch (t : Tile) (f : SpSt → SpSt) : (t.onSp f).stitch = t.stitch := rfl
@[simp] theorem Tile.onSp_freeze (t : Tile) (f : SpSt → SpSt) : (t.onSp f).freeze = t.freeze := rfl
@[simp] theorem Tile.onSp_prog (t : Tile) (f : SpSt → SpSt) : (t.onSp f).prog = t.prog := rfl
@[simp] theorem Tile.onSp_router (t : Tile) (f : SpSt → SpSt) : (t.onSp f).router = t.router := rfl
@[simp] theorem Tile.onSp_buckets (t : Tile) (f : SpSt → SpSt) : (t.onSp f).buckets = t.buckets := rfl
@[simp] theorem Tile.onSp_outq (t : Tile) (f : SpSt → SpSt) : (t.onSp f).outq = t.outq := rfl
@[simp] theorem Tile.onSp_warpq (t : Tile) (f : SpSt → SpSt) : (t.onSp f).warpq = t.warpq := rfl
@[simp] theorem Tile.onSp_wires (t : Tile) (f : SpSt → SpSt) : (t.onSp f).wires = t.wires := rfl
@[simp] theorem Tile.onSp_errCounts (t : Tile) (f : SpSt → SpSt) : (t.onSp f).errCounts = t.errCounts := rfl
@[simp] theorem Tile.onSp_stamp (t : Tile) (f : SpSt → SpSt) : (t.onSp f).stamp = t.stamp := rfl
@[simp] theorem Tile.onSp_cycles (t : Tile) (f : SpSt → SpSt) : (t.onSp f).cycles = t.cycles := rfl
@[simp] theorem Tile.onSp_origin (t : Tile) (f : SpSt → SpSt) : (t.onSp f).origin = t.origin := rfl
@[simp] theorem Tile.onSp_asleep (t : Tile) (f : SpSt → SpSt) : (t.onSp f).asleep = t.asleep := rfl
@[simp] theorem Tile.onSp_sleeping (t : Tile) (f : SpSt → SpSt) : (t.onSp f).sleeping = t.sleeping := rfl
@[simp] theorem Tile.onSp_waking (t : Tile) (f : SpSt → SpSt) : (t.onSp f).waking = t.waking := rfl
@[simp] theorem Tile.onSp_scrubbing (t : Tile) (f : SpSt → SpSt) : (t.onSp f).scrubbing = t.scrubbing := rfl
@[simp] theorem Tile.onSp_repairMap (t : Tile) (f : SpSt → SpSt) : (t.onSp f).repairMap = t.repairMap := rfl
@[simp] theorem Tile.onSp_thermThr (t : Tile) (f : SpSt → SpSt) : (t.onSp f).thermThr = t.thermThr := rfl
@[simp] theorem Tile.onSp_fresh (t : Tile) (f : SpSt → SpSt) : (t.onSp f).fresh = t.fresh := rfl

/-! ## Tile.post -/

@[simp] theorem Tile.post_regs (t : Tile) (p : Pkt) : (t.post p).regs = t.regs := rfl
@[simp] theorem Tile.post_groups (t : Tile) (p : Pkt) : (t.post p).groups = t.groups := rfl
@[simp] theorem Tile.post_units (t : Tile) (p : Pkt) : (t.post p).units = t.units := rfl
@[simp] theorem Tile.post_mu (t : Tile) (p : Pkt) : (t.post p).mu = t.mu := rfl
@[simp] theorem Tile.post_la (t : Tile) (p : Pkt) : (t.post p).la = t.la := rfl
@[simp] theorem Tile.post_trf (t : Tile) (p : Pkt) : (t.post p).trf = t.trf := rfl
@[simp] theorem Tile.post_sfHeld (t : Tile) (p : Pkt) : (t.post p).sfHeld = t.sfHeld := rfl
@[simp] theorem Tile.post_sfGen (t : Tile) (p : Pkt) : (t.post p).sfGen = t.sfGen := rfl
@[simp] theorem Tile.post_trfRefused (t : Tile) (p : Pkt) : (t.post p).trfRefused = t.trfRefused := rfl
@[simp] theorem Tile.post_sp (t : Tile) (p : Pkt) : (t.post p).sp = t.sp := rfl
@[simp] theorem Tile.post_sh (t : Tile) (p : Pkt) : (t.post p).sh = t.sh := rfl
@[simp] theorem Tile.post_core (t : Tile) (p : Pkt) : (t.post p).core = t.core := rfl
@[simp] theorem Tile.post_queues (t : Tile) (p : Pkt) : (t.post p).queues = t.queues := rfl
@[simp] theorem Tile.post_helds (t : Tile) (p : Pkt) : (t.post p).helds = t.helds := rfl
@[simp] theorem Tile.post_seqs (t : Tile) (p : Pkt) : (t.post p).seqs = t.seqs := rfl
@[simp] theorem Tile.post_ports (t : Tile) (p : Pkt) : (t.post p).ports = t.ports := rfl
@[simp] theorem Tile.post_firings (t : Tile) (p : Pkt) : (t.post p).firings = t.firings := rfl
@[simp] theorem Tile.post_nextFiring (t : Tile) (p : Pkt) : (t.post p).nextFiring = t.nextFiring := rfl
@[simp] theorem Tile.post_spillOrder (t : Tile) (p : Pkt) : (t.post p).spillOrder = t.spillOrder := rfl
@[simp] theorem Tile.post_live (t : Tile) (p : Pkt) : (t.post p).live = t.live := rfl
@[simp] theorem Tile.post_snap (t : Tile) (p : Pkt) : (t.post p).snap = t.snap := rfl
@[simp] theorem Tile.post_stitch (t : Tile) (p : Pkt) : (t.post p).stitch = t.stitch := rfl
@[simp] theorem Tile.post_freeze (t : Tile) (p : Pkt) : (t.post p).freeze = t.freeze := rfl
@[simp] theorem Tile.post_prog (t : Tile) (p : Pkt) : (t.post p).prog = t.prog := rfl
@[simp] theorem Tile.post_router (t : Tile) (p : Pkt) : (t.post p).router = t.router := rfl
@[simp] theorem Tile.post_buckets (t : Tile) (p : Pkt) : (t.post p).buckets = t.buckets := rfl
@[simp] theorem Tile.post_warpq (t : Tile) (p : Pkt) : (t.post p).warpq = t.warpq := rfl
@[simp] theorem Tile.post_wires (t : Tile) (p : Pkt) : (t.post p).wires = t.wires := rfl
@[simp] theorem Tile.post_errCounts (t : Tile) (p : Pkt) : (t.post p).errCounts = t.errCounts := rfl
@[simp] theorem Tile.post_stamp (t : Tile) (p : Pkt) : (t.post p).stamp = t.stamp := rfl
@[simp] theorem Tile.post_cycles (t : Tile) (p : Pkt) : (t.post p).cycles = t.cycles := rfl
@[simp] theorem Tile.post_origin (t : Tile) (p : Pkt) : (t.post p).origin = t.origin := rfl
@[simp] theorem Tile.post_asleep (t : Tile) (p : Pkt) : (t.post p).asleep = t.asleep := rfl
@[simp] theorem Tile.post_sleeping (t : Tile) (p : Pkt) : (t.post p).sleeping = t.sleeping := rfl
@[simp] theorem Tile.post_waking (t : Tile) (p : Pkt) : (t.post p).waking = t.waking := rfl
@[simp] theorem Tile.post_scrubbing (t : Tile) (p : Pkt) : (t.post p).scrubbing = t.scrubbing := rfl
@[simp] theorem Tile.post_repairMap (t : Tile) (p : Pkt) : (t.post p).repairMap = t.repairMap := rfl
@[simp] theorem Tile.post_thermThr (t : Tile) (p : Pkt) : (t.post p).thermThr = t.thermThr := rfl
@[simp] theorem Tile.post_fresh (t : Tile) (p : Pkt) : (t.post p).fresh = t.fresh := rfl

/-! ## Tile.onCore -/

@[simp] theorem Tile.onCore_regs (t : Tile) (f : CoreSt → CoreSt) : (t.onCore f).regs = t.regs := rfl
@[simp] theorem Tile.onCore_groups (t : Tile) (f : CoreSt → CoreSt) : (t.onCore f).groups = t.groups := rfl
@[simp] theorem Tile.onCore_units (t : Tile) (f : CoreSt → CoreSt) : (t.onCore f).units = t.units := rfl
@[simp] theorem Tile.onCore_mu (t : Tile) (f : CoreSt → CoreSt) : (t.onCore f).mu = t.mu := rfl
@[simp] theorem Tile.onCore_la (t : Tile) (f : CoreSt → CoreSt) : (t.onCore f).la = t.la := rfl
@[simp] theorem Tile.onCore_trf (t : Tile) (f : CoreSt → CoreSt) : (t.onCore f).trf = t.trf := rfl
@[simp] theorem Tile.onCore_sfHeld (t : Tile) (f : CoreSt → CoreSt) : (t.onCore f).sfHeld = t.sfHeld := rfl
@[simp] theorem Tile.onCore_sfGen (t : Tile) (f : CoreSt → CoreSt) : (t.onCore f).sfGen = t.sfGen := rfl
@[simp] theorem Tile.onCore_trfRefused (t : Tile) (f : CoreSt → CoreSt) : (t.onCore f).trfRefused = t.trfRefused := rfl
@[simp] theorem Tile.onCore_sp (t : Tile) (f : CoreSt → CoreSt) : (t.onCore f).sp = t.sp := rfl
@[simp] theorem Tile.onCore_sh (t : Tile) (f : CoreSt → CoreSt) : (t.onCore f).sh = t.sh := rfl
@[simp] theorem Tile.onCore_queues (t : Tile) (f : CoreSt → CoreSt) : (t.onCore f).queues = t.queues := rfl
@[simp] theorem Tile.onCore_helds (t : Tile) (f : CoreSt → CoreSt) : (t.onCore f).helds = t.helds := rfl
@[simp] theorem Tile.onCore_seqs (t : Tile) (f : CoreSt → CoreSt) : (t.onCore f).seqs = t.seqs := rfl
@[simp] theorem Tile.onCore_ports (t : Tile) (f : CoreSt → CoreSt) : (t.onCore f).ports = t.ports := rfl
@[simp] theorem Tile.onCore_firings (t : Tile) (f : CoreSt → CoreSt) : (t.onCore f).firings = t.firings := rfl
@[simp] theorem Tile.onCore_nextFiring (t : Tile) (f : CoreSt → CoreSt) : (t.onCore f).nextFiring = t.nextFiring := rfl
@[simp] theorem Tile.onCore_spillOrder (t : Tile) (f : CoreSt → CoreSt) : (t.onCore f).spillOrder = t.spillOrder := rfl
@[simp] theorem Tile.onCore_live (t : Tile) (f : CoreSt → CoreSt) : (t.onCore f).live = t.live := rfl
@[simp] theorem Tile.onCore_snap (t : Tile) (f : CoreSt → CoreSt) : (t.onCore f).snap = t.snap := rfl
@[simp] theorem Tile.onCore_stitch (t : Tile) (f : CoreSt → CoreSt) : (t.onCore f).stitch = t.stitch := rfl
@[simp] theorem Tile.onCore_freeze (t : Tile) (f : CoreSt → CoreSt) : (t.onCore f).freeze = t.freeze := rfl
@[simp] theorem Tile.onCore_prog (t : Tile) (f : CoreSt → CoreSt) : (t.onCore f).prog = t.prog := rfl
@[simp] theorem Tile.onCore_router (t : Tile) (f : CoreSt → CoreSt) : (t.onCore f).router = t.router := rfl
@[simp] theorem Tile.onCore_buckets (t : Tile) (f : CoreSt → CoreSt) : (t.onCore f).buckets = t.buckets := rfl
@[simp] theorem Tile.onCore_outq (t : Tile) (f : CoreSt → CoreSt) : (t.onCore f).outq = t.outq := rfl
@[simp] theorem Tile.onCore_warpq (t : Tile) (f : CoreSt → CoreSt) : (t.onCore f).warpq = t.warpq := rfl
@[simp] theorem Tile.onCore_wires (t : Tile) (f : CoreSt → CoreSt) : (t.onCore f).wires = t.wires := rfl
@[simp] theorem Tile.onCore_errCounts (t : Tile) (f : CoreSt → CoreSt) : (t.onCore f).errCounts = t.errCounts := rfl
@[simp] theorem Tile.onCore_stamp (t : Tile) (f : CoreSt → CoreSt) : (t.onCore f).stamp = t.stamp := rfl
@[simp] theorem Tile.onCore_cycles (t : Tile) (f : CoreSt → CoreSt) : (t.onCore f).cycles = t.cycles := rfl
@[simp] theorem Tile.onCore_origin (t : Tile) (f : CoreSt → CoreSt) : (t.onCore f).origin = t.origin := rfl
@[simp] theorem Tile.onCore_asleep (t : Tile) (f : CoreSt → CoreSt) : (t.onCore f).asleep = t.asleep := rfl
@[simp] theorem Tile.onCore_sleeping (t : Tile) (f : CoreSt → CoreSt) : (t.onCore f).sleeping = t.sleeping := rfl
@[simp] theorem Tile.onCore_waking (t : Tile) (f : CoreSt → CoreSt) : (t.onCore f).waking = t.waking := rfl
@[simp] theorem Tile.onCore_scrubbing (t : Tile) (f : CoreSt → CoreSt) : (t.onCore f).scrubbing = t.scrubbing := rfl
@[simp] theorem Tile.onCore_repairMap (t : Tile) (f : CoreSt → CoreSt) : (t.onCore f).repairMap = t.repairMap := rfl
@[simp] theorem Tile.onCore_thermThr (t : Tile) (f : CoreSt → CoreSt) : (t.onCore f).thermThr = t.thermThr := rfl
@[simp] theorem Tile.onCore_fresh (t : Tile) (f : CoreSt → CoreSt) : (t.onCore f).fresh = t.fresh := rfl

end Sys2Proof.Machine
end

