-- ==== Sys2Proof/Laws/Exec.lean ====
section
/-! SUPPORT. What a command's outcome can be, said once: all but nine commands are a change of the state of a running chiplet. -/

namespace Sys2Proof.Machine

/-- The commands that act in reset or on the TAP alone. -/
def Instr.special : Instr → Bool
  | .resetRelease .. | .resetAssert | .idcode | .samplePreload .. | .extest .. | .sitesel .. | .wsp | .fuserd | .bypass .. => true
  | _ => false

/-- The outcome of any other command: nothing happens in reset; out of reset the state changes, but not the queue. -/
theorem exec_live (c : Instr) (h : Instr.special c = false) : ∃ f : State → State, ∀ s, exec c s = live s f := by
  cases c
  case resetRelease => exact Bool.noConfusion h
  case resetAssert => exact Bool.noConfusion h
  case firmwareLoad => exact ⟨_, fun s => by simp only [exec, execFirmwareLoad]; rfl⟩
  case autoLock => exact ⟨_, fun s => by simp only [exec, execAutoLock]; rfl⟩
  case lockWrite => exact ⟨_, fun s => by simp only [exec, execLockWrite]; rfl⟩
  case vack => exact ⟨_, fun s => by simp only [exec, execVack]; rfl⟩
  case vidTimeout => exact ⟨_, fun s => by simp only [exec, execVidTimeout]; rfl⟩
  case avsLoop => exact ⟨_, fun s => by simp only [exec, execAvsLoop]; rfl⟩
  case sustainedLimitTick => exact ⟨_, fun s => by simp only [exec, execSustainedLimitTick]; rfl⟩
  case thermalSample => exact ⟨_, fun s => by simp only [exec, execThermalSample]; rfl⟩
  case thermalFtgtTick => exact ⟨_, fun s => by simp only [exec, execThermalFtgtTick]; rfl⟩
  case regWrite => exact ⟨_, fun s => by simp only [exec, execRegWrite]; rfl⟩
  case coreGo => exact ⟨_, fun s => by simp only [exec, execCoreGo]; rfl⟩
  case coreHalt => exact ⟨_, fun s => by simp only [exec, execCoreHalt]; rfl⟩
  case stewardSignal => exact ⟨_, fun s => by simp only [exec, execStewardSignal]; rfl⟩
  case counterSnap => exact ⟨_, fun s => by simp only [exec, execCounterSnap]; rfl⟩
  case counterClear => exact ⟨_, fun s => by simp only [exec, execCounterClear]; rfl⟩
  case freeze => exact ⟨_, fun s => by simp only [exec, execFreeze]; rfl⟩
  case tileFrozen => exact ⟨_, fun s => by simp only [exec, execTileFrozen]; rfl⟩
  case thaw => exact ⟨_, fun s => by simp only [exec, execThaw]; rfl⟩
  case scanOut => exact ⟨_, fun s => by simp only [exec, execScanOut]; rfl⟩
  case scanIn => exact ⟨_, fun s => by simp only [exec, execScanIn]; rfl⟩
  case scanDone => exact ⟨_, fun s => by simp only [exec, execScanDone]; rfl⟩
  case bankGate => exact ⟨_, fun s => by simp only [exec, execBankGate]; rfl⟩
  case bankGated => exact ⟨_, fun s => by simp only [exec, execBankGated]; rfl⟩
  case bankWakeEnd => exact ⟨_, fun s => by simp only [exec, execBankWakeEnd]; rfl⟩
  case cacheConfigWrite => exact ⟨_, fun s => by simp only [exec, execCacheConfigWrite]; rfl⟩
  case rangeConfigWrite => exact ⟨_, fun s => by simp only [exec, execRangeConfigWrite]; rfl⟩
  case prefetchConfigWrite => exact ⟨_, fun s => by simp only [exec, execPrefetchConfigWrite]; rfl⟩
  case shutdownTest => exact ⟨_, fun s => by simp only [exec, execShutdownTest]; rfl⟩
  case shutdownStepEnd => exact ⟨_, fun s => by simp only [exec, execShutdownStepEnd]; rfl⟩
  case shutdownRecordAck => exact ⟨_, fun s => by simp only [exec, execShutdownRecordAck]; rfl⟩
  case sleep => exact ⟨_, fun s => by simp only [exec, execSleep]; rfl⟩
  case wake => exact ⟨_, fun s => by simp only [exec, execWake]; rfl⟩
  case wakeDone => exact ⟨_, fun s => by simp only [exec, execWakeDone]; rfl⟩
  case fwConfirm => exact ⟨_, fun s => by simp only [exec, execFwConfirm]; rfl⟩
  case rvInstruction => exact ⟨_, fun s => by simp only [exec, execRvInstruction]; rfl⟩
  case interruptTaken => exact ⟨_, fun s => by simp only [exec, execInterruptTaken]; rfl⟩
  case wfi => exact ⟨_, fun s => by simp only [exec, execWfi]; rfl⟩
  case wfiWake => exact ⟨_, fun s => by simp only [exec, execWfiWake]; rfl⟩
  case bkIssue => exact ⟨_, fun s => by simp only [exec, execBkIssue]; rfl⟩
  case bkTryIssue => exact ⟨_, fun s => by simp only [exec, execBkTryIssue]; rfl⟩
  case commandAccept => exact ⟨_, fun s => by simp only [exec, execCommandAccept]; rfl⟩
  case bkWait => exact ⟨_, fun s => by simp only [exec, execBkWait]; rfl⟩
  case waitRetire => exact ⟨_, fun s => by simp only [exec, execWaitRetire]; rfl⟩
  case bkPoll => exact ⟨_, fun s => by simp only [exec, execBkPoll]; rfl⟩
  case bkWaitu => exact ⟨_, fun s => by simp only [exec, execBkWaitu]; rfl⟩
  case waituRetire => exact ⟨_, fun s => by simp only [exec, execWaituRetire]; rfl⟩
  case bkYield => exact ⟨_, fun s => by simp only [exec, execBkYield]; rfl⟩
  case unitCommandComplete => exact ⟨_, fun s => by simp only [exec, execUnitCommandComplete]; rfl⟩
  case mm => exact ⟨_, fun s => by simp only [exec, execMm]; rfl⟩
  case mmw => exact ⟨_, fun s => by simp only [exec, execMmw]; rfl⟩
  case diag => exact ⟨_, fun s => by simp only [exec, execDiag]; rfl⟩
  case edgeWordAdd => exact ⟨_, fun s => by simp only [exec, execEdgeWordAdd]; rfl⟩
  case zero => exact ⟨_, fun s => by simp only [exec, execZero]; rfl⟩
  case preload => exact ⟨_, fun s => by simp only [exec, execPreload]; rfl⟩
  case drain => exact ⟨_, fun s => by simp only [exec, execDrain]; rfl⟩
  case exportRows => exact ⟨_, fun s => by simp only [exec, execExportRows]; rfl⟩
  case vcOperation => exact ⟨_, fun s => by simp only [exec, execVcOperation]; rfl⟩
  case trfYieldCycle => exact ⟨_, fun s => by simp only [exec, execTrfYieldCycle]; rfl⟩
  case sfFieldsApply => exact ⟨_, fun s => by simp only [exec, execSfFieldsApply]; rfl⟩
  case fill => exact ⟨_, fun s => by simp only [exec, execFill]; rfl⟩
  case poke => exact ⟨_, fun s => by simp only [exec, execPoke]; rfl⟩
  case scrub => exact ⟨_, fun s => by simp only [exec, execScrub]; rfl⟩
  case spadv => exact ⟨_, fun s => by simp only [exec, execSpadv]; rfl⟩
  case eccWriteback => exact ⟨_, fun s => by simp only [exec, execEccWriteback]; rfl⟩
  case patrolScrub => exact ⟨_, fun s => by simp only [exec, execPatrolScrub]; rfl⟩
  case put => exact ⟨_, fun s => by simp only [exec, execPut]; rfl⟩
  case get => exact ⟨_, fun s => by simp only [exec, execGet]; rfl⟩
  case skew => exact ⟨_, fun s => by simp only [exec, execSkew]; rfl⟩
  case gather => exact ⟨_, fun s => by simp only [exec, execGather]; rfl⟩
  case expfwd => exact ⟨_, fun s => by simp only [exec, execExpfwd]; rfl⟩
  case split => exact ⟨_, fun s => by simp only [exec, execSplit]; rfl⟩
  case expfwdRow => exact ⟨_, fun s => by simp only [exec, execExpfwdRow]; rfl⟩
  case incomingTransfer => exact ⟨_, fun s => by simp only [exec, execIncomingTransfer]; rfl⟩
  case dataRowWrite => exact ⟨_, fun s => by simp only [exec, execDataRowWrite]; rfl⟩
  case ack => exact ⟨_, fun s => by simp only [exec, execAck]; rfl⟩
  case warpAck => exact ⟨_, fun s => by simp only [exec, execWarpAck]; rfl⟩
  case warpWordHold => exact ⟨_, fun s => by simp only [exec, execWarpWordHold]; rfl⟩
  case tokenArrive => exact ⟨_, fun s => by simp only [exec, execTokenArrive]; rfl⟩
  case headTokenDrop => exact ⟨_, fun s => by simp only [exec, execHeadTokenDrop]; rfl⟩
  case seqFire => exact ⟨_, fun s => by simp only [exec, execSeqFire]; rfl⟩
  case droppedFiringEmit => exact ⟨_, fun s => by simp only [exec, execDroppedFiringEmit]; rfl⟩
  case creditArrive => exact ⟨_, fun s => by simp only [exec, execCreditArrive]; rfl⟩
  case steerPairFire => exact ⟨_, fun s => by simp only [exec, execSteerPairFire]; rfl⟩
  case steerMergeFire => exact ⟨_, fun s => by simp only [exec, execSteerMergeFire]; rfl⟩
  case patternRecord => exact ⟨_, fun s => by simp only [exec, execPatternRecord]; rfl⟩
  case patternEndRecord => exact ⟨_, fun s => by simp only [exec, execPatternEndRecord]; rfl⟩
  case activeImageCheck => exact ⟨_, fun s => by simp only [exec, execActiveImageCheck]; rfl⟩
  case stitchOpen => exact ⟨_, fun s => by simp only [exec, execStitchOpen]; rfl⟩
  case armed => exact ⟨_, fun s => by simp only [exec, execArmed]; rfl⟩
  case failed => exact ⟨_, fun s => by simp only [exec, execFailed]; rfl⟩
  case stitchCommit => exact ⟨_, fun s => by simp only [exec, execStitchCommit]; rfl⟩
  case stitchAbort => exact ⟨_, fun s => by simp only [exec, execStitchAbort]; rfl⟩
  case switched => exact ⟨_, fun s => by simp only [exec, execSwitched]; rfl⟩
  case armTimeout => exact ⟨_, fun s => by simp only [exec, execArmTimeout]; rfl⟩
  case switchTimeout => exact ⟨_, fun s => by simp only [exec, execSwitchTimeout]; rfl⟩
  case groupSwitch => exact ⟨_, fun s => by simp only [exec, execGroupSwitch]; rfl⟩
  case reEpoch => exact ⟨_, fun s => by simp only [exec, execReEpoch]; rfl⟩
  case deadlockWindowEnd => exact ⟨_, fun s => by simp only [exec, execDeadlockWindowEnd]; rfl⟩
  case spill => exact ⟨_, fun s => by simp only [exec, execSpill]; rfl⟩
  case spillTokenRead => exact ⟨_, fun s => by simp only [exec, execSpillTokenRead]; rfl⟩
  case budgetPeriodStart => exact ⟨_, fun s => by simp only [exec, execBudgetPeriodStart]; rfl⟩
  case packetInject => exact ⟨_, fun s => by simp only [exec, execPacketInject]; rfl⟩
  case flitReceive => exact ⟨_, fun s => by simp only [exec, execFlitReceive]; rfl⟩
  case fmapHoldRelease => exact ⟨_, fun s => by simp only [exec, execFmapHoldRelease]; rfl⟩
  case packetHeadTimeout => exact ⟨_, fun s => by simp only [exec, execPacketHeadTimeout]; rfl⟩
  case drop => exact ⟨_, fun s => by simp only [exec, execDrop]; rfl⟩
  case glFlitReceive => exact ⟨_, fun s => by simp only [exec, execGlFlitReceive]; rfl⟩
  case headerReceive => exact ⟨_, fun s => by simp only [exec, execHeaderReceive]; rfl⟩
  case retrain => exact ⟨_, fun s => by simp only [exec, execRetrain]; rfl⟩
  case retrainAck => exact ⟨_, fun s => by simp only [exec, execRetrainAck]; rfl⟩
  case groupTestEnd => exact ⟨_, fun s => by simp only [exec, execGroupTestEnd]; rfl⟩
  case result => exact ⟨_, fun s => by simp only [exec, execResult]; rfl⟩
  case restart => exact ⟨_, fun s => by simp only [exec, execRestart]; rfl⟩
  case stripe => exact ⟨_, fun s => by simp only [exec, execStripe]; rfl⟩
  case roles => exact ⟨_, fun s => by simp only [exec, execRoles]; rfl⟩
  case pllLockLoss => exact ⟨_, fun s => by simp only [exec, execPllLockLoss]; rfl⟩
  case aliveLoss => exact ⟨_, fun s => by simp only [exec, execAliveLoss]; rfl⟩
  case trnPulse => exact ⟨_, fun s => by simp only [exec, execTrnPulse]; rfl⟩
  case portRestart => exact ⟨_, fun s => by simp only [exec, execPortRestart]; rfl⟩
  case pllLock => exact ⟨_, fun s => by simp only [exec, execPllLock]; rfl⟩
  case portTrainEnd => exact ⟨_, fun s => by simp only [exec, execPortTrainEnd]; rfl⟩
  case announceResend => exact ⟨_, fun s => by simp only [exec, execAnnounceResend]; rfl⟩
  case assign => exact ⟨_, fun s => by simp only [exec, execAssign]; rfl⟩
  case discoveryCommit => exact ⟨_, fun s => by simp only [exec, execDiscoveryCommit]; rfl⟩
  case k2Flit => exact ⟨_, fun s => by simp only [exec, execK2Flit]; rfl⟩
  case k2Deliver => exact ⟨_, fun s => by simp only [exec, execK2Deliver]; rfl⟩
  case greq => exact ⟨_, fun s => by simp only [exec, execGreq]; rfl⟩
  case preq => exact ⟨_, fun s => by simp only [exec, execPreq]; rfl⟩
  case fillResponse => exact ⟨_, fun s => by simp only [exec, execFillResponse]; rfl⟩
  case wrack => exact ⟨_, fun s => by simp only [exec, execWrack]; rfl⟩
  case gdata => exact ⟨_, fun s => by simp only [exec, execGdata]; rfl⟩
  case pdone => exact ⟨_, fun s => by simp only [exec, execPdone]; rfl⟩
  case prefetchIssue => exact ⟨_, fun s => by simp only [exec, execPrefetchIssue]; rfl⟩
  case prefetcherTimeout => exact ⟨_, fun s => by simp only [exec, execPrefetcherTimeout]; rfl⟩
  case incomingRd => exact ⟨_, fun s => by simp only [exec, execIncomingRd]; rfl⟩
  case incomingWr => exact ⟨_, fun s => by simp only [exec, execIncomingWr]; rfl⟩
  case rrd => exact ⟨_, fun s => by simp only [exec, execRrd]; rfl⟩
  case rwr => exact ⟨_, fun s => by simp only [exec, execRwr]; rfl⟩
  case rrsp => exact ⟨_, fun s => by simp only [exec, execRrsp]; rfl⟩
  case inv => exact ⟨_, fun s => by simp only [exec, execInv]; rfl⟩
  case invack => exact ⟨_, fun s => by simp only [exec, execInvack]; rfl⟩
  case streamEndInvalidate => exact ⟨_, fun s => by simp only [exec, execStreamEndInvalidate]; rfl⟩
  case doorbell => exact ⟨_, fun s => by simp only [exec, execDoorbell]; rfl⟩
  case event => exact ⟨_, fun s => by simp only [exec, execEvent]; rfl⟩
  case start => exact ⟨_, fun s => by simp only [exec, execStart]; rfl⟩
  case contextRecord => exact ⟨_, fun s => by simp only [exec, execContextRecord]; rfl⟩
  case kill => exact ⟨_, fun s => by simp only [exec, execKill]; rfl⟩
  case killComplete => exact ⟨_, fun s => by simp only [exec, execKillComplete]; rfl⟩
  case resume => exact ⟨_, fun s => by simp only [exec, execResume]; rfl⟩
  case loomStep => exact ⟨_, fun s => by simp only [exec, execLoomStep]; rfl⟩
  case fetchResponse => exact ⟨_, fun s => by simp only [exec, execFetchResponse]; rfl⟩
  case fetchRetry => exact ⟨_, fun s => by simp only [exec, execFetchRetry]; rfl⟩
  case nop => exact ⟨_, fun s => by simp only [exec, execNop]; rfl⟩
  case claim => exact ⟨_, fun s => by simp only [exec, execClaim]; rfl⟩
  case release => exact ⟨_, fun s => by simp only [exec, execRelease]; rfl⟩
  case descStitch => exact ⟨_, fun s => by simp only [exec, execDescStitch]; rfl⟩
  case tokens => exact ⟨_, fun s => by simp only [exec, execTokens]; rfl⟩
  case slice => exact ⟨_, fun s => by simp only [exec, execSlice]; rfl⟩
  case wait => exact ⟨_, fun s => by simp only [exec, execWait]; rfl⟩
  case waitTimeout => exact ⟨_, fun s => by simp only [exec, execWaitTimeout]; rfl⟩
  case endStream => exact ⟨_, fun s => by simp only [exec, execEndStream]; rfl⟩
  case writebackAck => exact ⟨_, fun s => by simp only [exec, execWritebackAck]; rfl⟩
  case loomCredit => exact ⟨_, fun s => by simp only [exec, execLoomCredit]; rfl⟩
  case errorReport => exact ⟨_, fun s => by simp only [exec, execErrorReport]; rfl⟩
  case fault => exact ⟨_, fun s => by simp only [exec, execFault]; rfl⟩
  case watchdog => exact ⟨_, fun s => by simp only [exec, execWatchdog]; rfl⟩
  case faultCountReset => exact ⟨_, fun s => by simp only [exec, execFaultCountReset]; rfl⟩
  case pingReceive => exact ⟨_, fun s => by simp only [exec, execPingReceive]; rfl⟩
  case pong => exact ⟨_, fun s => by simp only [exec, execPong]; rfl⟩
  case silentTimeout => exact ⟨_, fun s => by simp only [exec, execSilentTimeout]; rfl⟩
  case hem => exact ⟨_, fun s => by simp only [exec, execHem]; rfl⟩
  case seghold => exact ⟨_, fun s => by simp only [exec, execSeghold]; rfl⟩
  case segheld => exact ⟨_, fun s => by simp only [exec, execSegheld]; rfl⟩
  case darnEntryRead => exact ⟨_, fun s => by simp only [exec, execDarnEntryRead]; rfl⟩
  case darnRestream => exact ⟨_, fun s => by simp only [exec, execDarnRestream]; rfl⟩
  case ready => exact ⟨_, fun s => by simp only [exec, execReady]; rfl⟩
  case go => exact ⟨_, fun s => by simp only [exec, execGo]; rfl⟩
  case seggo => exact ⟨_, fun s => by simp only [exec, execSeggo]; rfl⟩
  case sliceStart => exact ⟨_, fun s => by simp only [exec, execSliceStart]; rfl⟩
  case sliceFreezeTimeout => exact ⟨_, fun s => by simp only [exec, execSliceFreezeTimeout]; rfl⟩
  case sliceTestEnd => exact ⟨_, fun s => by simp only [exec, execSliceTestEnd]; rfl⟩
  case sliceEnd => exact ⟨_, fun s => by simp only [exec, execSliceEnd]; rfl⟩
  case idcode => exact Bool.noConfusion h
  case samplePreload => exact Bool.noConfusion h
  case extest => exact Bool.noConfusion h
  case sitesel => exact Bool.noConfusion h
  case wsp => exact Bool.noConfusion h
  case fuserd => exact Bool.noConfusion h
  case bypass => exact Bool.noConfusion h
  case mailboxPoll => exact ⟨_, fun s => by simp only [exec, execMailboxPoll]; rfl⟩
  case regrd => exact ⟨_, fun s => by simp only [exec, execRegrd]; rfl⟩
  case regwr => exact ⟨_, fun s => by simp only [exec, execRegwr]; rfl⟩
  case attest => exact ⟨_, fun s => by simp only [exec, execAttest]; rfl⟩
  case attestDone => exact ⟨_, fun s => by simp only [exec, execAttestDone]; rfl⟩
  case fwload => exact ⟨_, fun s => by simp only [exec, execFwload]; rfl⟩
  case fwloadDone => exact ⟨_, fun s => by simp only [exec, execFwloadDone]; rfl⟩
  case fwswitch => exact ⟨_, fun s => by simp only [exec, execFwswitch]; rfl⟩
  case fwSwitchExecute => exact ⟨_, fun s => by simp only [exec, execFwSwitchExecute]; rfl⟩
  case fwConfirmTimeout => exact ⟨_, fun s => by simp only [exec, execFwConfirmTimeout]; rfl⟩
  case drd => exact ⟨_, fun s => by simp only [exec, execDrd]; rfl⟩
  case dwr => exact ⟨_, fun s => by simp only [exec, execDwr]; rfl⟩
  case aliveSeen => exact ⟨_, fun s => by simp only [exec, execAliveSeen]; rfl⟩
  case listReadResponse => exact ⟨_, fun s => by simp only [exec, execListReadResponse]; rfl⟩
  case darnImageRead => exact ⟨_, fun s => by simp only [exec, execDarnImageRead]; rfl⟩
  case killScrubDone => exact ⟨_, fun s => by simp only [exec, execKillScrubDone]; rfl⟩
  case spilled => exact ⟨_, fun s => by simp only [exec, execSpilled]; rfl⟩

/-- Every command leaves a next state. -/
theorem exec_next (c : Instr) (s : State) : ∃ t, exec c s = .next t := by
  cases hc : Instr.special c
  · obtain ⟨f, hf⟩ := exec_live c hc
    exact ⟨_, hf s⟩
  · cases c <;> exact ⟨_, rfl⟩

/-- The outcome of a change of a running chiplet. -/
theorem live_next {s : State} {p : State → Prop} {f : State → State} (h : s.inReset = false) (hp : p (s.leaves (f s))) :
    ∃ t, live s f = .next t ∧ p t := ⟨_, live_out s f h, hp⟩

end Sys2Proof.Machine
end

