-- ==== Sys2Proof/Laws/Ops.lean ====
section
/-! SUPPORT. What each shared operation of a tile can do, said once: the fields it may change, and what it leaves in them. -/

namespace Sys2Proof.Machine

/-! ## Flags, counters, messages -/

theorem Tile.flag_frame (t : Tile) (off : Nat) (w : Word) : t.flag off w = { t with regs := (t.flag off w).regs } := by
  unfold Tile.flag
  repeat' split
  all_goals rfl

theorem Tile.flagBit_frame (t : Tile) (off bit : Nat) : t.flagBit off bit = { t with regs := (t.flagBit off bit).regs } :=
  t.flag_frame off _

theorem Tile.count_frame (t : Tile) (off n : Nat) : t.count off n = { t with regs := (t.count off n).regs } := rfl

/-- A fault message leaves one more packet at the tile and changes nothing else. -/
theorem Tile.raise_frame (t : Tile) (me : Site) (code unit : Nat) (reg : Word) :
    ∃ p, t.raise me code unit reg = { t with outq := t.outq ++ [p] } := ⟨_, rfl⟩

theorem Tile.err_frame (t : Tile) (cls : Nat) : t.err cls = { t with errCounts := (t.err cls).errCounts } := by
  unfold Tile.err
  split <;> rfl

/-! ## Unit queues -/

@[simp] theorem Tile.unit_setUnit_same (t : Tile) (u : UnitC) (x : UnitSt) : (t.setUnit u x).unit u = x := by
  cases u <;> rfl

theorem Tile.unit_setUnit_ne (t : Tile) {u v : UnitC} (x : UnitSt) (h : v ≠ u) : (t.setUnit u x).unit v = t.unit v := by
  cases u <;> cases v <;> first | rfl | exact absurd rfl h

/-- An accepted command stands at the end of its unit's queue. -/
theorem Tile.accept_queue (t : Tile) (u : UnitC) (ws : List Word) (src : CmdSrc) :
    ((t.accept u ws src).unit u).queue = (t.unit u).queue ++ [{ words := ws, src := src, stamp := t.stamp }] := by
  cases u <;> rfl

theorem Tile.accept_frame (t : Tile) (u : UnitC) (ws : List Word) (src : CmdSrc) :
    t.accept u ws src = { t with units := (t.accept u ws src).units, stamp := t.stamp + 1 } := rfl

theorem Tile.accept_ne (t : Tile) {u v : UnitC} (ws : List Word) (src : CmdSrc) (h : v ≠ u) :
    (t.accept u ws src).unit v = t.unit v := by
  cases u <;> cases v <;> first | rfl | exact absurd rfl h

/-- A started command has left its queue and is the newest in progress. -/
theorem Tile.begin_unit (t : Tile) (u : UnitC) (r : Run) :
    ((t.begin u r).unit u).queue = (t.unit u).queue.drop 1 ∧ ((t.begin u r).unit u).running = (t.unit u).running ++ [r] := by
  simp [Tile.begin, Tile.onUnit]

theorem Tile.begin_frame (t : Tile) (u : UnitC) (r : Run) : t.begin u r = { t with units := (t.begin u r).units } := rfl

/-! ## Scratchpad rows -/

/-- What the check of a row may change: registers, packets, and of the scratchpad anything but its bytes. -/
def Tile.spFrame (a b : Tile) : Prop := b = { a with regs := b.regs, outq := b.outq, sp := b.sp } ∧ b.sp.mem = a.sp.mem

theorem Tile.spFrame_refl (a : Tile) : a.spFrame a := ⟨rfl, rfl⟩

theorem Tile.spFrame_trans {a b c : Tile} (h : a.spFrame b) (k : b.spFrame c) : a.spFrame c := by
  refine ⟨?_, k.2.trans h.2⟩
  rw [k.1, h.1]

theorem Tile.flagBit_spFrame (t : Tile) (off bit : Nat) : t.spFrame (t.flagBit off bit) := by
  unfold Tile.flagBit Tile.flag
  repeat' split
  all_goals exact ⟨rfl, rfl⟩

theorem Tile.spUe_spFrame (t : Tile) (me : Site) (row : Nat) : t.spFrame (t.spUe me row) := by
  refine Tile.spFrame_trans (b := t.setPoison row true) ⟨rfl, rfl⟩ ?_
  exact Tile.spFrame_trans (Tile.flagBit_spFrame _ Reg.SP_ERR 2) ⟨rfl, rfl⟩

theorem Tile.spCe_spFrame (t : Tile) : t.spFrame t.spCe :=
  Tile.spFrame_trans (Tile.flagBit_spFrame t Reg.SP_ERR 1) ⟨rfl, rfl⟩

theorem Tile.checkWord_spFrame (t : Tile) (me : Site) (wk : Nat × EccKind) : t.spFrame (t.checkWord me wk) := by
  unfold Tile.checkWord
  split
  · exact Tile.spFrame_trans t.spCe_spFrame ⟨rfl, rfl⟩
  · exact t.spUe_spFrame me _

/-- A fold of operations that keep the bytes keeps them. -/
theorem Tile.foldl_spFrame {α : Type} (f : Tile → α → Tile) (hf : ∀ (t : Tile) (x : α), t.spFrame (f t x)) (l : List α) (t : Tile) :
    t.spFrame (l.foldl f t) := by
  induction l generalizing t with
  | nil => exact t.spFrame_refl
  | cons x xs ih => exact Tile.spFrame_trans (hf t x) (ih (f t x))

theorem Tile.checkRow_spFrame (t : Tile) (me : Site) (row : Nat) : t.spFrame (t.checkRow me row) :=
  Tile.foldl_spFrame _ (fun (t : Tile) x => t.checkWord_spFrame me x) _ t

/-- A read of a row changes no byte of the scratchpad, and delivers 512 bytes. -/
theorem Tile.readRow_spFrame (t : Tile) (me : Site) (row : Nat) : t.spFrame (t.readRow me row).tile := by
  unfold Tile.readRow
  split
  · exact t.flagBit_spFrame Reg.SP_ERR 7
  · exact t.checkRow_spFrame me row

theorem Tile.readRows_spFrame (t : Tile) (me : Site) (rows : List Nat) : t.spFrame (t.readRows me rows).tile := by
  unfold Tile.readRows
  have : ∀ (l : List Nat) (a : RowsRead), t.spFrame a.tile → t.spFrame (l.foldl (fun a r =>
      let b := a.tile.readRow me r
      { tile := b.tile, bytes := a.bytes ++ b.bytes, poisoned := a.poisoned ++ b.poisoned, gated := a.gated || b.gated }) a).tile := by
    intro l
    induction l with
    | nil => exact fun _ h => h
    | cons x xs ih => exact fun a h => ih _ (Tile.spFrame_trans h (a.tile.readRow_spFrame me x))
  exact this rows _ t.spFrame_refl

/-- A row store changes the tile's registers, packets and scratchpad, and of its bytes exactly those it names. -/
theorem Tile.storeRow_mem (t : Tile) (me : Site) (row off : Nat) (data : List Byte) (poison : Bool) :
    (t.storeRow me row off data poison).sp.mem = Memory.writeBytes t.sp.mem (512 * row + off) data := by
  unfold Tile.storeRow
  simp only
  generalize hl : List.filter _ (t.badIn row) = l
  have h := Tile.foldl_spFrame (fun (t : Tile) (wk : Nat × EccKind) => match wk.2 with
    | .ce => t.spCe
    | .ue => t.spUe me row) (fun t x => by
      cases x.2
      · exact t.spCe_spFrame
      · exact t.spUe_spFrame me row) l t
  split
  · exact congrArg (fun m => Memory.writeBytes m _ _) h.2
  · split <;> exact congrArg (fun m => Memory.writeBytes m _ _) h.2

/-- A row write stores its bytes, or stands held behind a bank that is out of service, or behind an earlier held write of its engine. -/
theorem Tile.writeRow_mem (t : Tile) (me : Site) (row off : Nat) (data : List Byte) (poison : Bool) :
    (t.writeRow me row off data poison).sp.mem =
      if data.isEmpty || t.holdsEng 3 || t.gated (bankOf row) || t.waking' (bankOf row) then t.sp.mem
      else Memory.writeBytes t.sp.mem (512 * row + off) data := by
  unfold Tile.writeRow
  by_cases h : data.isEmpty = true
  · simp [h]
  · simp only [h, Bool.false_or, if_false, Bool.false_eq_true]
    split
    · split <;> rfl
    · exact t.storeRow_mem me row off data poison

theorem Tile.writeRow_wf (t : Tile) (me : Site) (row off : Nat) (data : List Byte) (poison : Bool)
    (h : Memory.wf t.sp.mem = true) : Memory.wf (t.writeRow me row off data poison).sp.mem = true := by
  rw [t.writeRow_mem]
  split
  · exact h
  · exact Memory.writeBytes_wf _ _ _ h

theorem Tile.writeDense_wf (t : Tile) (me : Site) (row : Nat) (data : List Byte) (bad : Nat → Bool)
    (h : Memory.wf t.sp.mem = true) : Memory.wf (t.writeDense me row data bad).sp.mem = true := by
  unfold Tile.writeDense
  generalize List.range _ = l
  induction l generalizing t with
  | nil => exact h
  | cons x xs ih => exact ih _ (t.writeRow_wf me _ _ _ _ h)

/-! ## Tile registers -/

theorem Tile.trfSet_frame (t : Tile) (n r c : Nat) (w : Word) : t.trfSet n r c w = { t with trf := (t.trfSet n r c w).trf } := rfl

theorem Tile.trfGet_trfSet (t : Tile) (n r c : Nat) (w : Word) (m q d : Nat) :
    (t.trfSet n r c w).trfGet m q d = if 1024 * m + 32 * q + d = 1024 * n + 32 * r + c then w else t.trfGet m q d := by
  simp [Tile.trfGet, Tile.trfSet, Map.get_set]

/-! ## Packets delivered -/

theorem dropFirst_sublist (l : List Pkt) (p : Pkt → Bool) : (dropFirst l p).Sublist l := by
  induction l with
  | nil => exact List.Sublist.slnil
  | cons x xs ih =>
    unfold dropFirst
    split
    · exact List.sublist_cons_self x xs
    · exact ih.cons_cons x

/-- A delivery takes packets from the net and adds none. -/
theorem State.deliver_net (s : State) (p : Pkt → Bool) : (s.deliver p).net.Sublist s.net := dropFirst_sublist s.net p

end Sys2Proof.Machine
end

