-- ==== Sys2Proof/WellFormed.lean ====
section
/-! DEFINITION. Which commands are well formed: the operands whose ranges their types do not already bound. -/

namespace Sys2Proof

open Sys2Proof.Machine (groupWords)

/-- Physical events name words that exist: 4,096 rows of 64 words in a scratchpad, 2,048 elements of 10 words in an LA
(R109, R227, R229). -/
def Phys.wf (p : Phys) : Bool := (p.sp.all fun u => u.word < 262144) && (p.la.all fun u => u.word < 20480)

/-- Bytes of one row of a transfer lie in the row (R221, R337). -/
def DataRow.wf (d : DataRow) : Bool := (if d.skip then d.data.length == 0 else 0 < d.data.length) && d.off.toNat + d.data.length ≤ 512

/-- An answer that holds data only with STATUS 0 (R370, R406). -/
def answerWf (status : BitVec 3) (data : List Byte) (most : Nat) : Bool :=
  if status = 0 then 0 < data.length && data.length ≤ most else data.isEmpty

/-- The operands of a command are as its row of the table and its rule allow. -/
def Instr.wf : Instr → Bool
  | .firmwareLoad b => b.dir.length = 512 && b.cert.length ≤ 8192
  | .scanIn _ _ recs => recs.all fun r => 4 ≤ r.length && r.length ≤ 128
  | .mm _ ph | .mmw _ ph | .diag _ ph | .preload _ ph | .drain _ ph | .exportRows _ ph | .vcOperation _ ph | .fill _ ph
  | .poke _ ph | .scrub _ ph | .patrolScrub _ ph | .put _ ph | .get _ ph | .skew _ ph | .gather _ ph | .expfwd _ ph
  | .split _ ph | .expfwdRow _ ph | .spillTokenRead _ _ _ ph => ph.wf
  | .rrd _ _ h ph => ph.wf && h.len.toNat + h.addr.toNat % 512 < 512
  | .incomingTransfer _ x => 0 < x.n.toNat && x.n.toNat ≤ 4096
  | .dataRowWrite _ d ph => d.wf && ph.wf
  | .warpWordHold _ w => w.crossed ≤ 5 && (match w.body with | .data d => d.wf | .token .. => true)
  | .tokenArrive _ unit _ _ _ | .headTokenDrop _ unit _ | .droppedFiringEmit _ unit | .creditArrive _ unit _ _ _ =>
    unit.toNat < 5 || (8 ≤ unit.toNat && unit.toNat < 12)
  | .patternRecord _ rec | .patternEndRecord _ rec => 4 ≤ rec.length && rec.length ≤ 128
  | .activeImageCheck _ flips => flips.all fun f => f.word < groupWords f.group.val
  | .portTrainEnd _ _ tests => tests.length = 8
  | .k2Flit _ _ body => body.length = 128
  | .k2Deliver _ _ arg body => body.length = 64 * (arg.toNat / 16384 % 8 + 1)
  | .preq _ _ h data bad => data.length = h.len.toNat + 1 && bad.length ≤ 9
  | .rwr _ _ h data _ => data.length = h.len.toNat + 1 && h.len.toNat + h.addr.toNat % 512 < 512
  | .fillResponse _ _ st data bad => answerWf st data 512 && bad.length ≤ 4
  | .gdata _ _ st data bad => answerWf st data 512 && bad.length ≤ 9
  | .rrsp _ _ _ data _ => data.length ≤ 512
  | .contextRecord _ st data _ => answerWf st data 64
  | .fetchResponse _ st data _ | .listReadResponse _ st data _ => answerWf st data 512
  | .darnEntryRead st data _ => answerWf st data 64
  | .darnImageRead st data _ => answerWf st data 98304
  | .incomingWr _ _ _ _ data bad => 0 < data.length && data.length ≤ 1024 && bad.length ≤ 8
  | .dwr _ _ _ data => 0 < data.length && data.length ≤ 1024
  | .samplePreload b | .extest b => (b.pads ++ b.cells).all fun c => c.1 < 55333
  | .mailboxPoll hdrs => hdrs.length = 4 && hdrs.all fun h => h.length = 64
  | .regwr _ data => data.length ≤ 2032
  | .fwloadDone _ man image => man.length = 5413 && image.length ≤ 786432
  | .bypass b => !(b.code = 0x01 || b.code = 0x02 || b.code = 0x03 || b.code = 0x10 || b.code = 0x11 || b.code = 0x20)
  | .resetRelease .. | .resetAssert | .autoLock | .lockWrite .. | .vack .. | .vidTimeout .. | .avsLoop ..
  | .sustainedLimitTick .. | .thermalSample .. | .thermalFtgtTick .. | .regWrite .. | .coreGo .. | .coreHalt ..
  | .stewardSignal .. | .counterSnap .. | .counterClear .. | .freeze .. | .tileFrozen .. | .thaw .. | .scanOut ..
  | .scanDone .. | .bankGate .. | .bankGated .. | .bankWakeEnd .. | .cacheConfigWrite .. | .rangeConfigWrite ..
  | .prefetchConfigWrite .. | .shutdownTest | .shutdownStepEnd .. | .shutdownRecordAck .. | .sleep .. | .wake ..
  | .wakeDone .. | .fwConfirm | .rvInstruction .. | .interruptTaken .. | .wfi .. | .wfiWake .. | .bkIssue ..
  | .bkTryIssue .. | .commandAccept .. | .bkWait .. | .waitRetire .. | .bkPoll .. | .bkWaitu .. | .waituRetire ..
  | .bkYield .. | .unitCommandComplete .. | .edgeWordAdd .. | .zero .. | .trfYieldCycle .. | .sfFieldsApply ..
  | .spadv .. | .eccWriteback .. | .ack .. | .warpAck .. | .seqFire .. | .steerPairFire .. | .steerMergeFire ..
  | .stitchOpen .. | .armed .. | .failed .. | .stitchCommit .. | .stitchAbort .. | .switched .. | .armTimeout ..
  | .switchTimeout .. | .groupSwitch .. | .reEpoch .. | .deadlockWindowEnd | .spill .. | .budgetPeriodStart ..
  | .packetInject .. | .flitReceive .. | .fmapHoldRelease .. | .packetHeadTimeout .. | .drop .. | .glFlitReceive ..
  | .headerReceive .. | .retrain .. | .retrainAck .. | .groupTestEnd .. | .result .. | .restart .. | .stripe ..
  | .roles .. | .pllLockLoss .. | .aliveLoss .. | .trnPulse .. | .portRestart .. | .pllLock .. | .announceResend
  | .assign .. | .discoveryCommit .. | .greq .. | .wrack .. | .pdone .. | .prefetchIssue .. | .prefetcherTimeout ..
  | .incomingRd .. | .inv .. | .invack .. | .streamEndInvalidate .. | .doorbell .. | .event .. | .start .. | .kill ..
  | .killComplete .. | .resume .. | .loomStep .. | .fetchRetry .. | .nop .. | .claim .. | .release .. | .descStitch ..
  | .tokens .. | .slice .. | .wait .. | .waitTimeout .. | .endStream .. | .writebackAck .. | .loomCredit ..
  | .errorReport .. | .fault .. | .watchdog .. | .faultCountReset | .pingReceive .. | .pong .. | .silentTimeout ..
  | .hem .. | .seghold .. | .segheld .. | .darnRestream .. | .ready .. | .go .. | .seggo .. | .sliceStart ..
  | .sliceFreezeTimeout | .sliceTestEnd .. | .sliceEnd .. | .idcode | .sitesel .. | .wsp | .fuserd | .regrd ..
  | .attest .. | .attestDone .. | .fwload .. | .fwswitch .. | .fwSwitchExecute | .fwConfirmTimeout | .drd ..
  | .aliveSeen .. | .killScrubDone .. | .spilled .. => true

end Sys2Proof
end

