-- ==== Sys2Proof/Tests/Slice0.lean ====
section
/-! SUPPORT. Tests: a witness for the hypotheses of every statement, at the boundary values of its clauses; one ill-formed command for each
check of WellFormed; the spec's own examples; and small commands, one step each. -/

namespace Sys2Proof.Tests

open Sys2Proof Sys2Proof.Machine

-- One theorem at a time: the kernel evaluations would otherwise each hold a thread of their own.
set_option Elab.async false

/-! ## States that the tests start from -/

/-- A chiplet out of reset, all else as reset leaves it. -/
def on : State := { State.reset with inReset := false }

/-- The tile of site 60, an enabled one, as given. -/
def onTile (t : Tile) : State := { on with tiles := [(60, t)] }

/-- Port 0 as given. -/
def onPort (p : Port) : State := { on with ports := [(0, p)] }

/-- The steward as given. -/
def onSteward (x : Steward) : State := { on with steward := x }

/-- Stream 0 as given, and ready. -/
def onStream (c : Ctx) : State := { on with loom := { ctxs := [(0, c)], sites := [], ready := [0], refused := [] } }

def tile0 : Tile := Tile.reset
def boot2 : Steward := Steward.reset.setReg Reg.ST_BOOT 2

/-! ## Witnesses: reset, boot, supplies -/

theorem witness_empty_queue : State.reset.pending = [] ∧ on.pending = [] ∧ on.inReset = false ∧ on.loom.refused = [] := by decide
theorem witness_held_in_reset : State.reset.heldInReset ∧ step State.reset = .next State.reset := ⟨fun _ => rfl, rfl⟩
theorem witness_reset_entered : on.inReset = false ∧ State.reset.inReset = true ∧ State.reset.heldInReset :=
  ⟨rfl, rfl, fun _ => rfl⟩

def bootDie : Steward := Steward.reset.setReg Reg.GL_DISC 0x80000100
def dir3 : BootInputs :=
  { dir := List.replicate 3 0 ++ [0x30] ++ List.replicate 508 0, manA := [], imgA := [], manB := [], imgB := [], cert := [], record := [], ana := [] }
theorem witness_boot_slots : (onSteward bootDie).inReset = false ∧ bootDie.discovered = true ∧ bootDie.fuses.crcOk = true ∧
    fld (bootDie.reg Reg.ST_BOOT) 0 2 = 0 ∧ bootDie.locked = false ∧ fld (wordAt dir3.dir 0) 28 4 = 3 := by decide
theorem witness_lock_by_boot : on.inReset = false ∧ on.steward.bootCode .boot = true := by decide
theorem witness_lock_by_others : on.steward.bootCode (.core 5) = false ∧ on.steward.bootCode .mailbox = false := by decide
theorem witness_autolock : on.inReset = false ∧ on.steward.locked = false := by decide

def vidDie : Steward := { Steward.reset with vidReq := [some 7, none, none, none] }
theorem witness_vack : (onSteward vidDie).inReset = false ∧ vidDie.vidReq.getD (0 : FieldNo).val none = some 7 := by decide
theorem witness_vack_in_test : ({ vidDie with vidPlan := [[20, 40], [], [], []] } : Steward).vidPlan.getD (0 : FieldNo).val [] = [20, 40] ∧
    vidDie.vidPlan.getD (0 : FieldNo).val [] = [] ∧ 20 ≠ (7 : BitVec 6).toNat := by decide
theorem witness_vid_busy : vidDie.vidBusy 0 = true := by decide
def avsDie (code : Word) : Steward := Steward.reset.setReg Reg.ST_VSET (0x80000000 ||| code ||| (1800#32 <<< 16))
theorem witness_avs_loop_below : bitOf ((avsDie 39).vset 0) 31 = true ∧ (avsDie 39).sdRunning = false ∧
    (avsDie 39).vidBusy 0 = false ∧ (avsDie 39).vidDefer.getD (0 : FieldNo).val none = none ∧
    (avsDie 39).vidPlan.getD (0 : FieldNo).val [] = [] ∧
    (onSteward (avsDie 39)).testing = none ∧ fld ((avsDie 39).vset 0) 0 6 = 39 ∧ fld ((avsDie 39).vset 0) 16 12 = 1800 := by decide
theorem witness_avs_loop_at_limits : bitOf ((avsDie 40).vset 0) 31 = true ∧ fld ((avsDie 40).vset 0) 0 6 = 40 ∧
    bitOf ((avsDie 0).vset 0) 31 = true ∧ fld ((avsDie 0).vset 0) 0 6 = 0 := by decide
theorem witness_limiter_fields : ∀ f : FieldNo, on.steward.ftgtWritten.getD f.val 0x708 < 4096 := by decide
theorem witness_thermal_site : on.inReset = false ∧ on.steward.site (60 : Site).val ≠ 0 := by decide

/-! ## Witnesses: set-up writes, core control, freezes, scans, banks -/

theorem witness_write_nowhere : setupAt (0xFFFFFFFC : Word).toNat = .nowhere ∨ (0xFFFFFFFC : Word).toNat % 4 ≠ 0 := by decide
theorem witness_write_misaligned : (0x00000001 : Word).toNat % 4 ≠ 0 := by decide
theorem witness_write_rws : (0 : Nat) < 8 ∧ 0 < groupWords 0 ∧
    (BitVec.ofNat 32 (tileAddr 60 (groupBase 0))).toNat = tileAddr 60 (groupBase 0 + 4 * 0) := by decide
theorem witness_write_w1c : on.powered 60 = true ∧ (∀ m, WriteSrc.mailbox = .core m → m = 60) ∧
    (BitVec.ofNat 32 (tileAddr 60 Reg.TC_ERR)).toNat = tileAddr 60 Reg.TC_ERR := by
  refine ⟨by decide, ?_, by decide⟩
  intro m h
  cases h
theorem witness_write_rwl : isRwl (BitVec.ofNat 32 Reg.ST_PROT).toNat = true ∧ (BitVec.ofNat 32 Reg.ST_PROT).toNat % 4 = 0 ∧
    on.steward.bootCode .mailbox = false ∧ ∀ m, WriteSrc.mailbox ≠ .core m := by
  refine ⟨by decide, by decide, by decide, ?_⟩
  intro m h
  cases h
theorem witness_write_wdog : on.powered 60 = true ∧ (BitVec.ofNat 32 (tileAddr 60 Reg.TC_WDOG)).toNat = tileAddr 60 Reg.TC_WDOG ∧
    fld (10 : Word) 0 5 = 10 ∧ fld (20 : Word) 0 5 = 20 ∧ fld (9 : Word) 0 5 < 10 ∧ 20 < fld (21 : Word) 0 5 := by decide

theorem witness_core_go : on.inReset = false ∧ on.powered 60 = true ∧ (on.tile 60).core.mode = .halted ∧
    (on.tile 60).freeze.coreWas = .halted ∧ (on.tile 60).freezeOn = false := by decide
def running : Tile := { tile0 with core := { tile0.core with mode := .running } }
theorem witness_freeze : (onTile running).powered 60 = true ∧ ((onTile running).tile 60).stitch.mode = .idle ∧
    ((onTile running).tile 60).core.mode ≠ .halted := by decide
def frozenTile : Tile := { tile0 with freeze := { tile0.freeze with soft := true, coreWas := .running } }
theorem witness_frozen : ((onTile frozenTile).tile 60).freezeOn = true ∧ ((onTile frozenTile).tile 60).stitch.mode = .idle ∧
    ((onTile frozenTile).tile 60).core.mode = .halted ∧ ((onTile frozenTile).tile 60).quiet = true ∧
    ((onTile frozenTile).tile 60).tokenLeft = false := by decide
theorem witness_thaw : (onTile frozenTile).powered 60 = true ∧ ((onTile frozenTile).tile 60).freeze.halt = false ∧
    ((onTile frozenTile).tile 60).freeze.slice = false ∧ ((onTile frozenTile).tile 60).freeze.coreWas ≠ .halted := by decide
def scanTile : Tile := { frozenTile with freeze := { frozenTile.freeze with frozen := true } }
theorem scan_tile_in_service (r : Nat) : scanTile.inService r = true := by
  have h : tileReset Reg.SP_PWR_STATE = 0 := by decide
  simp [h, Tile.inService, Tile.gated, Tile.waking', Tile.reg, scanTile, frozenTile, tile0, Tile.reset, Map.get, bitOf]
theorem witness_scan_out : (onTile scanTile).powered 60 = true ∧ scanTile.scannable = true ∧
    scanTile.freeze.soft = bitOf (0xC0000040 : Word) 31 ∧ bitOf (0xC0000040 : Word) 30 = true ∧ bitOf (0xC0000040 : Word) 29 = false ∧
    fld (0xC0000040 : Word) 26 2 = 0 ∧ fld (0xC0000040 : Word) 0 9 = 64 ∧ fld (scanTile.reg Reg.TC_SCAN_ADDR) 0 12 + 144 ≤ 4096 ∧
    scanTile.holdsEng 5 = false ∧ scanTile.freeze.slice = false ∧ ∀ r, scanTile.inService r = true :=
  ⟨by decide, by decide, by decide, by decide, by decide, by decide, by decide, by decide, by decide, by decide, scan_tile_in_service⟩
theorem witness_scan_in : scanTile.scannable = true ∧ scanTile.freeze.soft = bitOf (0xEC000040 : Word) 31 ∧
    bitOf (0xEC000040 : Word) 30 = true ∧ bitOf (0xEC000040 : Word) 29 = true ∧ fld (0xEC000040 : Word) 26 2 = 3 ∧
    fld (0xEC000040 : Word) 0 9 = 64 ∧ (List.replicate 16384 (0 : Word)).length = 16384 :=
  ⟨by decide, by decide, by decide, by decide, by decide, by decide, List.length_replicate⟩
def slicedTile : Tile := { scanTile with freeze := { scanTile.freeze with slice := true } }
/-- A scan in and a scan out that wait for the end of the slice that holds the tile. -/
theorem witness_scan_waits : (onTile slicedTile).powered 60 = true ∧ slicedTile.freeze.slice = true ∧
    slicedTile.freeze.soft = bitOf (0xEC000040 : Word) 31 ∧ bitOf (0xEC000040 : Word) 30 = true ∧ bitOf (0xEC000040 : Word) 29 = true ∧
    slicedTile.freeze.soft = bitOf (0xC0000040 : Word) 31 ∧ bitOf (0xC0000040 : Word) 29 = false := by decide
theorem witness_scan_refused : (onTile frozenTile).powered 60 = true ∧ frozenTile.freeze.frozen = false ∧
    frozenTile.freeze.soft = bitOf (0xEC000040 : Word) 31 := by decide
def scanBusyTile : Tile := { scanTile with freeze := { scanTile.freeze with scanBusy := true } }
theorem witness_scan_done : scanBusyTile.freeze.scanBusy = true ∧ scanBusyTile.freeze.scanLeft = 0 ∧
    scanBusyTile.freeze.scanAcks = [] ∧ scanBusyTile.sp.held = [] := by decide
theorem witness_scan_records : 8 < 9 ∧ ([] : List Word).length ≤ 2 ^ 20 ∧ [0xFFFFFFFF#32].length ≤ 2 ^ 20 := by decide

theorem witness_bank_gate : on.powered 60 = true ∧
    ((onTile (tile0.setReg Reg.SP_PWR_STATE 0x8001)).tile 60).gated 0 = true ∧
    ((onTile (tile0.setReg Reg.SP_PWR_STATE 0x8001)).tile 60).gated 15 = true := by decide
theorem witness_bank_gated : bitOf ((tile0.setReg Reg.SP_PWR 0x8000).reg Reg.SP_PWR) (15 : Fin 16).val = true ∧
    (tile0.setReg Reg.SP_PWR 0x8000).gated 15 = false ∧ (tile0.setReg Reg.SP_PWR 0x8000).waking' 15 = false ∧
    (tile0.setReg Reg.SP_PWR 0x8000).bankBusy 15 = false := by decide
/-- Bank 15 is waking and one write to its last row is held. -/
def wakingTile : Tile :=
  let t := tile0.setReg Reg.SP_PWR_STATE 0x80000000
  { t with sp := { t.sp with held := [{ row := 4095, off := 511, data := [7], poison := false, eng := 5 }] } }
theorem witness_bank_wake_end : wakingTile.waking' 15 = true ∧ wakingTile.gated 15 = false ∧
    (∀ h ∈ wakingTile.sp.held, h.off + h.data.length ≤ 512) ∧ wakingTile.sp.held.length = 1 ∧ bankOf 4095 = 15 ∧ bankOf 3839 = 14 := by decide
theorem witness_sleep : on.sleepable 60 = true ∧ (on.tile 60).asleep = false ∧ (on.tile 60).scrubbing = false := by decide
theorem witness_sleep_refused : on.inReset = false ∧ on.sleepable 0 = false := by decide
def asleepTile : Tile := { tile0 with asleep := true }
theorem witness_wake : (onTile asleepTile).sleepable 60 = true ∧ ((onTile asleepTile).tile 60).asleep = true := by decide
theorem witness_wake_done : ({ asleepTile with waking := true } : Tile).asleep = true ∧ on.steward.darning = none := by decide
theorem witness_kill_scrub : ({ tile0 with scrubbing := true } : Tile).scrubbing = true ∧ on.inSlice 60 = false ∧
    (on.tile 60).hemmed = false ∧ ∀ k, (60 : Site) ∉ on.claimed k :=
  ⟨by decide, by decide, by decide, fun k h => by simp [State.claimed, on, State.reset] at h⟩

/-! ## Witnesses: the tile core -/

/-- A tile whose core is about to run the instruction `w`. -/
def coreOn (w : Word) : Tile :=
  { tile0 with core := { tile0.core with mode := .running, imem := Memory.writeBytes [] 0 (leBytes 4 w.toNat) } }

/-- The core of site 60 may execute the standard instruction `w`. -/
def mayRun (w : Word) : Prop :=
  (onTile (coreOn w)).inReset = false ∧ (onTile (coreOn w)).coreRuns 60 = true ∧ (coreOn w).special = none ∧ (coreOn w).fetchIns = .ins w 4 w

/-- An instruction for each clause of `CoreExecutesItsInstructions`, at x1, x2, x3. -/
theorem witness_core_op : mayRun 0x003100B3 ∧ mayRun 0x403100B3 ∧ mayRun 0x403150B3 ∧ mayRun 0x023100B3 ∧ mayRun 0x023140B3 := by
  unfold mayRun; decide
theorem witness_core_op_imm : mayRun 0x00108093 ∧ mayRun 0x00109093 ∧ mayRun 0x0010D093 ∧ mayRun 0x4010D093 := by
  unfold mayRun; decide
theorem witness_core_jumps : mayRun 0x000010B7 ∧ mayRun 0x00001097 ∧ mayRun 0x008000EF ∧ mayRun 0x000080E7 ∧ mayRun 0x00208463 ∧ mayRun 0x0000000F := by
  unfold mayRun; decide
theorem witness_core_memory_system : mayRun 0x0000A083 ∧ mayRun 0x0020A023 ∧ mayRun 0x305090F3 ∧ mayRun 0x30200073 ∧ mayRun 0x00000073 ∧ mayRun 0x00100073 := by
  unfold mayRun; decide
theorem witness_core_ecc : ∀ b, CoreEcc.none ≠ .ueFetch b := by
  intro b h
  cases h
def loadAt (x1 : Word) : Tile := { coreOn 0x0000A083 with core := { (coreOn 0x0000A083).core with x := tile0.core.x.set 1 x1 } }
theorem witness_load_bounds : (((loadAt 0x13FFC).xreg 1 + immOf (fld (0x0000A083 : Word) 20 12) 12).toNat < 0x14000) ∧
    ((loadAt 0x14000).xreg 1 + immOf (fld (0x0000A083 : Word) 20 12) 12).toNat = 0x14000 ∧
    ((loadAt 0x30000).xreg 1 + immOf (fld (0x0000A083 : Word) 20 12) 12).toNat = 0x30000 ∧
    ((loadAt 2).xreg 1 + immOf (fld (0x0000A083 : Word) 20 12) 12).toNat % 2 ^ (fld (0x0000A083 : Word) 12 3 % 4) ≠ 0 := by decide
def storeAt (x1 : Word) : Tile := { coreOn 0x0020A023 with core := { (coreOn 0x0020A023).core with x := tile0.core.x.set 1 x1 } }
theorem witness_store_bounds : ((storeAt 0x10000).xreg 1 + immS 0x0020A023).toNat = 0x10000 ∧
    ((storeAt 0x13FFC).xreg 1 + immS 0x0020A023).toNat < 0x14000 ∧ ((storeAt 0xFFFC).xreg 1 + immS 0x0020A023).toNat < 0x10000 ∧
    ((storeAt 0x30000).xreg 1 + immS 0x0020A023).toNat = 0x30000 := by decide
theorem witness_core_bad : (onTile (coreOn 0)).coreRuns 60 = true ∧ ((onTile (coreOn 0)).tile 60).fetchIns = .bad 0 := by decide
theorem witness_core_undefined : (onTile (coreOn 0x7F)).coreRuns 60 = true ∧ ((onTile (coreOn 0x7F)).tile 60).special = none ∧
    ((onTile (coreOn 0x7F)).tile 60).fetchIns = .ins 0x7F 4 0x7F ∧
    fld (0x7F : Word) 0 7 ∉ [0x03, 0x0F, 0x13, 0x17, 0x23, 0x33, 0x37, 0x63, 0x67, 0x6F, 0x73] := by decide
def outside : Tile := { coreOn 0 with core := { (coreOn 0).core with pc := 0x10000 } }
theorem witness_core_fetch_fault : (onTile outside).coreRuns 60 = true ∧ ((onTile outside).tile 60).fetchIns = .fault 0x10000 := by decide
theorem witness_core_fetch_ue : (onTile (coreOn 0)).coreRuns 60 = true ∧ ((onTile (coreOn 0)).tile 60).core.pc.toNat < 0x10000 := by decide
def interrupted : Tile :=
  ({ coreOn 0 with core := { (coreOn 0).core with mie := true, meie := true } }.setReg Reg.TC_EVT 4).setReg Reg.TC_CFG 8
theorem witness_interrupt : (onTile interrupted).coreRuns 60 = true ∧ interrupted.meip = true ∧ interrupted.core.mie = true ∧
    interrupted.core.meie = true := by decide
/-- WFI, BK.YIELD, BK.ISSUE to the MU, BK.TRYISSUE, BK.WAIT, BK.POLL, BK.WAITU. -/
theorem witness_core_special : ∀ e ∈ [(6, 0x10500073#32), (5, 0x0000500B), (0, 0x0030808B), (1, 0x0030908B), (2, 0x0000A08B),
    (3, 0x0000B08B), (4, 0x0000C08B)], (onTile (coreOn e.2)).inReset = false ∧ (onTile (coreOn e.2)).coreRuns 60 = true ∧
    ((onTile (coreOn e.2)).tile 60).special = some e ∧ (coreOn e.2).core.bk = .none := by decide
def waiting : Tile := { interrupted with core := { interrupted.core with mode := .wfi } }
theorem witness_wfi_wake : (onTile waiting).powered 60 = true ∧ waiting.core.mode = .wfi ∧ waiting.meip = true ∧
    ({ waiting with core := { waiting.core with swpend := true } } : Tile).core.swpend = true := by decide

/-! ## Witnesses: issuing and waiting -/

/-- A command whose one word stands at data address 0x10000, x1 pointing at it. -/
def issuing (w : Word) : Tile :=
  let t := coreOn w
  { t with core := { t.core with x := t.core.x.set 1 0x10000, dmem := Memory.writeBytes [] 0 (leBytes 4 0x31000000) } }
theorem witness_issue : unitOfCode (fld (0x0030808B : Word) 25 3) = some .mu ∧
    (∃ words, (issuing 0x0030808B).commandWords .mu ((issuing 0x0030808B).xreg (fld (0x0030808B : Word) 15 5)) = .ok words) ∧
    (issuing 0x0030808B).core.bk = .none := ⟨by decide, ⟨_, rfl⟩, by decide⟩
theorem witness_command_accept : ({ tile0.core with bk := .issue .mu [1] 0 5, mode := .stalled } : CoreSt).bk = .issue .mu [1] 0 5 ∧
    tile0.room .mu = true := by decide
def waitingFor (tk : Word) : Tile := { tile0 with core := { tile0.core with mode := .stalled, bk := .wait tk 5 } }
theorem witness_wait_retire : (onTile (waitingFor 0)).powered 60 = true ∧ (waitingFor 0).core.bk = .wait 0 5 ∧
    fld ((waitingFor 0).ticketStatus 0) 28 4 ≠ 0xE := by decide
def waitingUnits : Tile := { tile0 with core := { tile0.core with mode := .stalled, bk := .waitu [(0, 0)] 1 5 } }
theorem witness_waitu_retire : (onTile waitingUnits).powered 60 = true ∧ waitingUnits.core.bk = .waitu [(0, 0)] 1 5 ∧
    ∀ e ∈ [(0, 0)], ∀ u : UnitC, e.1 = unitCode u → e.2 ≤ (waitingUnits.unit u).done := by
  refine ⟨by decide, by decide, ?_⟩
  intro e he u _
  rw [List.mem_singleton.1 he]
  exact Nat.zero_le _

/-! ## Witnesses: the command units -/

/-- A core command of a unit. -/
def cmd (words : List Word) : Cmd := { words := words, src := .core [] false, stamp := 0 }

/-- A tile with one command at the head of a unit's queue. -/
def queued (u : UnitC) (words : List Word) : Tile := tile0.setUnit u { UnitSt.reset with queue := [cmd words], issued := 1 }

/-- A tile with one command of a unit in progress. -/
def started (u : UnitC) (r : Run) : Tile := tile0.setUnit u { UnitSt.reset with running := [r], issued := 1 }

theorem witness_complete : ((onTile (started .sp { cmd := cmd [0x31000000] })).tile 60).runDone .sp { cmd := cmd [0x31000000] } = true ∧
    (started .sp { cmd := cmd [0x31000000] }).units.sp.running = [{ cmd := cmd [0x31000000] }] ∧
    (cmd [0x31000000]).src = .core [] false := by decide
/-- A rejected command of a firing, at the end of which the sequencer halts. -/
def seqRun : Run := { cmd := { cmd [0x35000000] with src := .seq 5 }, malformed := true }
def seqDone : Tile :=
  { started .sp seqRun with
    firings := [{ id := 5, unit := 3, tokens := [], emits := [], advs := [], poison := false, dropped := false }] }
theorem witness_complete_firing : (onTile seqDone).powered 60 = true ∧ seqDone.units.sp.running = [seqRun] ∧ seqRun.cmd.src = .seq 5 ∧
    seqDone.behind (unitCode .sp) 5 = false ∧ seqDone.runDone .sp seqRun = true ∧ ∃ f ∈ seqDone.firings, f.id = 5 := by decide
theorem witness_unpowered : (onTile { tile0 with asleep := true }).inReset = false ∧
    (onTile { tile0 with asleep := true }).powered 60 = false := by decide
theorem witness_not_complete : (started .sp { cmd := cmd [0x31000000], left := 1 }).runDone .sp { cmd := cmd [0x31000000], left := 1 } = false := by
  decide
theorem witness_reserved_op : (queued .sp [0x35000000]).units.sp.queue = [cmd [0x35000000]] ∧
    (queued .sp [0x35000000]).units.sp.running = [] ∧ (cmd [0x30000000]).op = 0 ∧ (cmd [0x35000000]).op = 5 := by decide
theorem witness_rejected : (queued .sp [0x21000000]).units.sp.queue.head? = some (cmd [0x21000000]) ∧ (cmd [0x21000000]).op = 1 ∧
    (cmd [0x21000000]).verOk = false ∧ ({ cmd [0x31000000] with src := .core [] true } : Cmd).badFence = true := by decide

/-- BF16 commands of the MU with one fed row and column, weights and inputs in tile registers where they may be. -/
def mmCmd : Cmd := cmd [0x31220408, 0x01000000, 0, 0, 1]
def mmwCmd : Cmd := cmd [0x32220400, 0x01000000, 0, 0, 1]
def diagCmd : Cmd := cmd [0x3322040C, 0x01000000, 0, 0, 1]
def muTile (c : Cmd) : Tile := { queued .mu c.words with trf := [(0, 0x3F80)] }
theorem witness_matrix : ∀ c ∈ [mmCmd, mmwCmd, diagCmd], (muTile c).muReady ((onTile (muTile c)).cycleOf 60) c = true ∧
    (muTile c).units.mu.queue.head? = some c ∧ c.badFence = false ∧ (muTile c).muMalformed c = false ∧ (muTile c).fenceMet c = true := by decide
theorem witness_matrix_ops : mmCmd.op = 1 ∧ mmwCmd.op = 2 ∧ diagCmd.op = 3 := by decide
theorem witness_diag_product : muFa diagCmd = 2 ∧ muFw diagCmd = 2 ∧ muAsrc diagCmd = true ∧ muWsrc diagCmd = true ∧
    muDmode diagCmd = 0 ∧ muBrep diagCmd = false ∧ 0 < muM diagCmd ∧ 0 < muNlen diagCmd ∧ bitOf (diagCmd.w 4) 0 = true ∧
    decodeElem 2 (((muTile diagCmd).trfGet (muAaddr diagCmd) (muI0 diagCmd + 0) 0).toNat % 2 ^ 16) = .fin 128 (-7) ∧
    decodeElem 2 (((muTile diagCmd).trfGet (muWaddr diagCmd) 0 0).toNat % 2 ^ 16) = .fin 128 (-7) := by decide

def word0 : EdgeWord := { cmd := 0, buf := true, elem := 1023, tag := 0, poison := false, wt := true, lsb := -300, sum := -1 }
theorem witness_edge_word : ({ tile0 with mu := { tile0.mu with edges := [word0] } } : Tile).mu.edges = word0 :: [] ∧ word0.elem < 1024 ∧
    -300 ≤ word0.lsb ∧ (∀ e ∈ [(20469, some EccKind.ce)], e.1 / 10 ≠ laKey word0.buf word0.elem) ∧
    Map.get noWeight tile0.la.weight (laRowKey word0.buf (word0.elem / 32)) + 32 ≤ 2 ^ 52 := by decide

def zeroCmd : Cmd := cmd [0x31001000, 0, 0, 1]
def preloadCmd : Cmd := cmd [0x32001120, 0, 0, 1]
def drainCmd : Cmd := cmd [0x33001128, 0, 0, 1]
def exportCmd : Cmd := cmd [0x34001108, 0, 0, 1]
theorem witness_accumulator : ∀ c ∈ [zeroCmd, preloadCmd, drainCmd, exportCmd], (queued .la c.words).laReady ((onTile (queued .la c.words)).cycleOf 60) c = true ∧
    (queued .la c.words).units.la.queue.head? = some c ∧ c.badFence = false ∧ laMalformed c = false ∧
    (queued .la c.words).fenceMet c = true := by decide
theorem witness_accumulator_ops : zeroCmd.op = 1 ∧ preloadCmd.op = 2 ∧ drainCmd.op = 3 ∧ exportCmd.op = 4 := by decide
theorem witness_preload_value : laLoc preloadCmd = true ∧ laMode preloadCmd = false ∧ 0 < laNrow preloadCmd ∧ bitOf (preloadCmd.w 3) 0 = true ∧
    ({ queued .la preloadCmd.words with trf := [(31, 0x3F800000)] } : Tile).trfVal (laFmt preloadCmd) (laAddr preloadCmd)
      (laRegRow preloadCmd (laRow0 preloadCmd + 0)) 31 = .fin 8388608 (-23) := by decide
theorem witness_drain_value : laLoc drainCmd = true ∧ laKeep drainCmd = true ∧ laFop drainCmd = 0 ∧ laRnd drainCmd = 0 ∧
    0 < laNrow drainCmd ∧ bitOf (drainCmd.w 3) 0 = true ∧ (queued .la drainCmd.words).la.bad = [] := by decide

/-- The identity of one FP32 entry of tile register 0, into tile register 0. -/
def vcCmd : Cmd := cmd [0x30F00080, 0x14001000, 0, 0, 0, 0x14001000, 0x043FC000]
theorem witness_vector : (queued .vc vcCmd.words).units.vc.queue.head? = some vcCmd ∧ vcCmd.badFence = false ∧
    (queued .vc vcCmd.words).vcMalformed vcCmd = false ∧ (queued .vc vcCmd.words).fenceMet vcCmd = true ∧
    (queued .vc vcCmd.words).vcReady vcCmd = true := by decide
theorem witness_trf_yield : ({ tile0 with trfRefused := (16, 0) } : Tile).trfRefused.1 = 16 ∧
    ({ tile0 with trfRefused := (3, 16) } : Tile).trfRefused.2 = 16 ∧ on.powered 60 = true := by decide
theorem witness_sf_held : ({ tile0 with sfHeld := some [] } : Tile).sfHeld.isSome = true ∧
    ({ tile0 with sfHeld := some [] } : Tile).sfOldRunning = false := by decide

def fillCmd : Cmd := cmd [0x31FFF000, 0xA5A5A5A5]
def pokeCmd : Cmd := cmd [0x3200007F, 1]
def scrubCmd : Cmd := cmd [0x33000FFF, 0]
def spadvCmd : Cmd := cmd [0x34000001, 0x04000000]
theorem witness_scratchpad : ∀ c ∈ [fillCmd, pokeCmd, scrubCmd, spadvCmd], (queued .sp c.words).units.sp.queue.head? = some c ∧
    c.badFence = false ∧ spMalformed c = false ∧ (queued .sp c.words).fenceMet c = true := by decide
/-- FILL of the last row while its bank is gated: the write is held. -/
theorem witness_fill_held : ((queued .sp fillCmd.words).setReg Reg.SP_PWR_STATE 0x8000).starts .sp 1 spMalformed fillCmd ∧
    ((queued .sp fillCmd.words).setReg Reg.SP_PWR_STATE 0x8000).inService 4095 = false ∧
    (queued .sp fillCmd.words).inService 4095 = true ∧ (queued .sp fillCmd.words).holdsEng 4 = false ∧ spRow fillCmd = 4095 := by
  unfold Tile.starts; decide
theorem witness_scratchpad_ops : fillCmd.op = 1 ∧ pokeCmd.op = 2 ∧ scrubCmd.op = 3 ∧ spadvCmd.op = 4 := by decide
/-- A spool of two rows that is enabled and flow-controlled, with `tail` rows in it. -/
def spooled (tail : Nat) : Tile :=
  (tile0.setGroup 3 { GroupSt.reset with active := [(57, 0xC0020000)] }).setSpool 0 { Spool.reset with tail := tail }
theorem witness_spadv_room : bitOf ((spooled 1).act 3 57) 31 = true ∧ fld ((spooled 1).act 3 57) 16 13 = 2 ∧
    (spooled 1).spoolCount 0 = 1 ∧ spArg spadvCmd + (spooled 1).spoolCount 0 + ((spooled 1).spool 0).rsv ≤ 2 := by decide
theorem witness_writeback : ({ tile0.sp with writeback := [262143] } : SpSt).writeback = 262143 :: [] := by decide
theorem witness_patrol : bitOf ((tile0.setReg Reg.SP_CFG 2).reg Reg.SP_CFG) 1 = true ∧
    (tile0.setReg Reg.SP_CFG 2).gated (bankOf (tile0.setReg Reg.SP_CFG 2).sp.patrol.toNat) = false ∧
    (tile0.setReg Reg.SP_CFG 2).waking' (bankOf (tile0.setReg Reg.SP_CFG 2).sp.patrol.toNat) = false := by decide
theorem witness_memories : (on.tile 60).memoriesWf = true ∧
    ({ tile0 with sp := { tile0.sp with mem := [(0, 1), (2097151, 255)] } } : Tile).memoriesWf = true := by decide

/-! ## Witnesses: the shuttle, transfers, warp words -/

def putCmd : Cmd := cmd [0x31110000, 0x00800000, 0x00020000, 0x01000000, 0, 0]
def getCmd : Cmd := cmd [0x3211D000, 0x00800000, 0x00020000, 0, 0, 0]
def skewCmd : Cmd := cmd [0x33220000, 0, 0x00008000, 0x01000000, 0, 0]
def gatherCmd : Cmd := cmd [0x34110000, 0, 0x00000400, 0x01000000, 0, 0x00000100]
def expfwdCmd : Cmd := cmd [0x35010000, 0, 0x00008000, 0x01000000, 0, 0]
def splitCmd : Cmd := cmd [0x36120000, 0, 0x00000400, 0x01000000, 0, 0x00000100]
theorem witness_shuttle : ∀ c ∈ [putCmd, getCmd, skewCmd, gatherCmd, expfwdCmd, splitCmd], (queued .sh c.words).units.sh.queue.head? = some c ∧
    c.badFence = false ∧ shMalformed c = false ∧ (queued .sh c.words).fenceMet c = true ∧ (queued .sh c.words).shReady c = true := by decide
theorem witness_shuttle_ops : putCmd.op = 1 ∧ getCmd.op = 2 ∧ skewCmd.op = 3 ∧ gatherCmd.op = 4 ∧ expfwdCmd.op = 5 ∧ splitCmd.op = 6 := by
  decide
theorem in_service_at_reset (r : Nat) : tile0.inService r = true := by
  have h : tileReset Reg.SP_PWR_STATE = 0 := by decide
  simp [h, Tile.inService, Tile.gated, Tile.waking', Tile.reg, tile0, Tile.reset, Map.get, bitOf]
theorem witness_put_moves : shSfmt putCmd = 1 ∧ shDfmt putCmd = 1 ∧ shKind putCmd = 0 ∧ (queued .sh putCmd.words).sp.bad = [] ∧
    ∀ r, (queued .sh putCmd.words).inService r = true := ⟨by decide, by decide, by decide, by decide, in_service_at_reset⟩
def expRow : ExpRow := { fmt := 1, vals := List.replicate 32 0, poison := false }
def expSt : ExpSt := { cmd := expfwdCmd, tag := 0, k := 0, row := 0, buf := [], bufBad := false, scales := [], scaleBad := [] }
theorem witness_put_holds_nothing : (queued .sh putCmd.words).sp.held = [] := rfl
theorem witness_export_row : ({ tile0.la with exports := [expRow] } : LaSt).exports = expRow :: [] ∧
    ({ tile0.sh with exps := [expSt] } : ShSt).exps = expSt :: [] := by decide

def transfer (row n : Nat) : Transfer := { src := 61, tag := 3, row := BitVec.ofNat 12 row, n := BitVec.ofNat 13 n }
theorem witness_transfer : tile0.knows 61 3 = false ∧ tile0.takesRows 1 = true ∧ tile0.takesRows 2 = false ∧
    tile0.flowSpool 0 = none ∧ (spooled 1).flowSpool 1 = some 0 ∧ (spooled 1).knows 61 3 = false := by decide
theorem witness_transfer_fits : (transfer 1 1).n.toNat + (spooled 1).spoolCount 0 + ((spooled 1).spool 0).rsv ≤ 2 ∧
    2 < (transfer 1 2).n.toNat + (spooled 1).spoolCount 0 := by decide
def dataRow : DataRow := { src := 61, tag := 3, row := 4095, rem := 0, off := 511, data := [0xAA], poison := false }
def expecting (ok : Bool) : Tile :=
  { tile0 with sp := { tile0.sp with inX := [{ src := 61, tag := 3, ok := ok, row := 4095, left := 1 }] } }

/-- A packet that stands whole in its ejection buffer, and the tile that it comes to. -/
def bringing (t : Tile) (src : InjPoint) (dst : Dest) (body : PktBody) : State :=
  { onTile t with net := [{ src := src, dst := dst, cls := 0, flits := 1, body := body, whole := true }] }

theorem witness_data_row : ∀ d ∈ [dataRow, { dataRow with skip := true }], ∀ ok ∈ [true, false], (expecting ok).spoolOf d = none ∧
    (expecting ok).sp.inX.find? (fun e => decide (e.src = d.src) && decide (e.tag = d.tag)) =
      some { src := 61, tag := 3, ok := ok, row := 4095, left := 1 } ∧
    d.off.toNat + d.data.length ≤ 512 ∧ on.bankTested 60 d.row.toNat = false ∧ (expecting ok).takesAdmitted 1 = true ∧
    (bringing (expecting ok) (.tile 61) (.site 60) (.data d)).mayGet
      (fun p => !(d ∈ (expecting ok).sp.arrived) && p.dst = .site 60 && p.body = .data d) = true := by decide
/-- A row that came over a warp link: no packet brings it. -/
theorem witness_arrived_row : dataRow ∈ ({ (expecting true).sp with arrived := [dataRow] } : SpSt).arrived ∧
    on.mayGet (fun p => !(dataRow ∈ [dataRow]) && p.dst = .site 60 && p.body = .data dataRow) = true := by decide
theorem witness_ack_packet : (bringing tile0 (.tile 61) (.site 60) (.ack 4095 1)).mayGet
    (fun p => p.dst = .site 60 && p.src = .tile 61 && p.body = .ack 4095 1) = true := by decide
def awaiting : Tile := started .sh { cmd := putCmd, left := 1, acks := [(61, 4095)] }
theorem witness_ack : (0 : BitVec 2).toNat < 2 ∧ (1 : BitVec 2).toNat < 2 ∧ ∃ r, awaiting.units.sh.running = r :: [] ∧
    ((61 : Site).val, 4095) ∈ r.acks := ⟨by decide, by decide, _, rfl, by decide⟩
theorem witness_warp_credit : (60 : Site) ≠ 61 ∧ (0 : Nat) = (tile0.portSt 4 3).gen := by decide
def warpWord : WarpWord := { side := 0, crossed := 1, body := .data dataRow }
def warping : State := { on with tiles := [(108, { tile0 with warpq := [warpWord] })] }
theorem witness_warp_word : ∃ m, warping.wordFrom warpWord 5 60 = some (m, 4) ∧ warping.steward.site (60 : Site).val ≠ 0 ∧ (60 : Site) ≠ m ∧
    bitOf ((warping.tile 60).passBits (60 : Site).val) (passBit warpWord.side.toNat) = false ∧ warping.seqTested 60 = false :=
  ⟨108, by decide, by decide, by decide, by decide, by decide⟩
/-- Five registers in a row pass; the word waits at the fifth, and one sent from nearer than that does not. -/
def passing : Tile := { tile0 with groups := [(7, { GroupSt.reset with active := [(0, 0xF)] })] }
def warpChain (first : Nat) : State :=
  { on with tiles := (List.range 6).map fun k => (60 + 48 * k, if k = first then { passing with warpq := [warpWord] } else passing) }
theorem witness_warp_hold : (warpChain 5).wordFrom warpWord 5 60 = some (300, 0) ∧ (warpChain 4).wordFrom warpWord 5 60 = some (252, 1) ∧
    bitOf ((warpChain 5).tile 60 |>.passBits (60 : Site).val) (passBit warpWord.side.toNat) = true ∧ (60 : Site) ≠ 300 := by decide +kernel
/-- A slice tests the sequencers of site 60, and then the last bank. -/
def slicing' (item : Nat) : Steward :=
  { Steward.reset with
    slice := some { site := 60, item := item, defers := 0, step := .freezing, result := none, discard := false, port := 0, bkt := 0, pbkt := 0 } }
theorem witness_slice_tests : (onSteward (slicing' 6)).seqTested 60 = true ∧ (onSteward (slicing' 0x1F)).bankTested 60 4095 = true ∧
    (onSteward (slicing' 0x1F)).bankTested 60 4094 = true ∧ (onSteward (slicing' 0x1F)).seqTested 60 = false := by decide

/-! ## Witnesses: tokens, sequencers, steering -/

def tokenOf (epoch kind : Nat) (poison : Bool) (payload : Nat) : QTok := ⟨mkToken epoch kind poison 0 payload, .loom 0 0⟩

/-- Every unit under its sequencer. -/
def sequenced : Tile := tile0.setGroup 6 { GroupSt.reset with active := [(0, 0x1F00)] }
def full (n : Nat) : Tile := sequenced.setQueue 4 7 { Queue.reset with toks := List.replicate n (tokenOf 0 1 false 0) }
theorem witness_token_queued : queueOk (4 : BitVec 4).toNat (7 : BitVec 3).toNat = true ∧ (full 15).takesTokens 4 = true ∧
    ((full 15).group (groupOfUnit 4)).patbad = false ∧ (full 15).hemmed = false ∧ ((full 15).queue 4 7).depth < 16 ∧
    16 ≤ ((full 16).queue 4 7).depth := by decide
theorem witness_token_arrives : (onTile (full 15)).powered 60 = true ∧ (onTile (full 15)).seqTested 60 = false ∧
    (bringing (full 15) (.tile 61) (.site 60) (.token 4 7 (mkToken 0 1 false 0 0) (.loom 0 0))).mayGet
      (fun p => p.dst = .site 60 && p.body = .token 4 7 (mkToken 0 1 false 0 0) (.loom 0 0)) = true ∧
    (bringing tile0 (.tile 61) (.site 60) (.credit 4 3 31 0)).mayGet (fun p => p.dst = .site 60 && p.body = .credit 4 3 31 0) = true := by
  decide +kernel
theorem witness_token_hemmed : (tile0.setReg Reg.TC_HEM 0x80000000).hemmed = true := by decide
def stale : Tile := tile0.setQueue 0 0 { Queue.reset with toks := [tokenOf 5 1 false 0] }
theorem witness_head_drop : stale.queue (0 : BitVec 4).toNat (0 : BitVec 3).toNat = { spills := [], back := [], toks := tokenOf 5 1 false 0 :: [] } ∧
    stale.headFate (0 : BitVec 4).toNat (0 : BitVec 3).toNat = .drop := by decide

/-- Unit 3 fires once for each token of queue 0; `c0` counts to 1. -/
def seqTile (poison : Bool) : Tile :=
  let g6 := sequenced
  let g := g6.setGroup 3 { GroupSt.reset with active := [(0, 0x80000000), (1, 1), (2, 1)] }
  (g.setSeq 3 { SeqSt.reset with run := true }).setQueue 3 0 { Queue.reset with toks := [tokenOf 0 1 poison 7] }
theorem witness_fire : (seqTile false).canFire .sp = true ∧ (seqTile true).canFire .sp = true ∧
    (∀ q, ((seqTile false).queue (unitCode .sp) q).spills = [] ∧ ((seqTile false).queue (unitCode .sp) q).back = []) := by
  refine ⟨by decide, by decide, ?_⟩
  intro q
  by_cases h : q = 0 <;> simp [seqTile, sequenced, Tile.queue, Tile.setQueue, Tile.setSeq, Tile.setGroup, Map.set, Map.drop,
    Map.insert, Map.get, noQueue, Queue.reset, unitCode, tile0, Tile.reset, tokenOf, h]
def droppedFiring : Firing :=
  { id := 1, unit := 2, tokens := [], emits := [{ port := 0, kind := 1, epoch := 0, aux := 0, payload := 9, fromStatus := false }], advs := [], poison := true, dropped := true }
def emitting : Tile := { tile0.setGroup 2 { GroupSt.reset with active := [(50, 0xC0000000 ||| (1#32 <<< 22) ||| (3#32 <<< 16))] } with firings := [droppedFiring] }
theorem witness_dropped_firing : emitting.hemmed = false ∧
    emitting.firings.find? (fun g => decide (g.unit = (2 : BitVec 4).toNat)) = some droppedFiring ∧ droppedFiring.dropped = true ∧
    2 ≤ fld (emitting.dstWord 2 0) 30 2 ∧
    (siteAt (fld (emitting.dstWord 2 0) 22 6) (fld (emitting.dstWord 2 0) 16 6)).isSome = true := by decide

/-- Steering unit 0 with two data queues, selecting the second, its ports into the weft. -/
def steering (mode : Word) : Tile :=
  { tile0 with
    groups := [(5, { GroupSt.reset with active := [(0, 0x90000000 ||| mode), (4, 0xC0430010), (5, 0xC0430010)] })]
    queues := [(64, { Queue.reset with toks := [tokenOf 0 3 false 1] }), (65, { Queue.reset with toks := [tokenOf 0 1 false 4] }),
      (66, { Queue.reset with toks := [tokenOf 0 1 true 5] })]
    ports := [(32, { PortSt.reset with credits := 1 })] }
theorem witness_steering_pair : (steering 0).mayFire = true ∧ bitOf ((steering 0).act 5 0) 31 = true ∧
    ((steering 0).queue 8 0).head = some (tokenOf 0 3 false 1).tok ∧
    ((steering 0).queue 8 ((selection (tokenOf 0 3 false 1).tok (fld ((steering 0).act 5 0) 28 2)).1 + 1)).head = some (tokenOf 0 1 true 5).tok ∧
    0 < ((steering 0).portSt 8 0).credits ∧ 2 ≤ fld ((steering 0).dstWord 8 0) 30 2 ∧ 2 ≤ fld ((steering 0).dstWord 8 1) 30 2 ∧
    (siteAt (fld ((steering 0).dstWord 8 0) 22 6) (fld ((steering 0).dstWord 8 0) 16 6)).isSome = true ∧
    (steering 0).headFate 8 0 = .consumable ∧ (steering 0).headFate 8 1 = .consumable ∧ (steering 0).headFate 8 2 = .consumable := by
  decide +kernel
theorem witness_steering_merge : (steering 0x40000000).mayFire = true ∧ bitOf ((steering 0x40000000).act 5 0) 31 = true ∧
    ((steering 0x40000000).queue 8 0).head = some (tokenOf 0 3 false 1).tok ∧
    ((steering 0x40000000).queue 8 ((selection (tokenOf 0 3 false 1).tok (fld ((steering 0x40000000).act 5 0) 28 2)).1 + 1)).head = some (tokenOf 0 1 true 5).tok ∧
    0 < ((steering 0x40000000).portSt 8 0).credits ∧ 2 ≤ fld ((steering 0x40000000).dstWord 8 0) 30 2 ∧ 2 ≤ fld ((steering 0x40000000).dstWord 8 1) 30 2 ∧
    (siteAt (fld ((steering 0x40000000).dstWord 8 0) 22 6) (fld ((steering 0x40000000).dstWord 8 0) 16 6)).isSome = true ∧
    (steering 0x40000000).headFate 8 0 = .consumable ∧ (steering 0x40000000).headFate 8 1 = .consumable ∧ (steering 0x40000000).headFate 8 2 = .consumable := by
  decide +kernel
theorem witness_steering_reserved : fld ((onTile tile0).tile 60 |>.act 5 0) 28 2 = 0 ∧ fld ((steering 0).act 5 0) 28 2 = 1 := by decide
theorem witness_steering_modes : bitOf ((steering 0).act 5 0) 30 = false ∧ bitOf ((steering 0).act 5 0) 27 = false ∧
    bitOf ((steering 0x40000000).act 5 0) 30 = true := by decide

/-! ## Witnesses: patterns, stitches, deadlock -/

/-- A record with its check word. -/
def record (ws : List Word) : List Word := ws ++ [crc32cWords ws]
def loading : Tile := { sequenced with stitch := { StitchSt.reset with num := 7, new := 1, mode := .loading } }
def slotRec : List Word := record [0x31600100, 0x00071000, 0, 0x1F00]
def codeRec : List Word := record [0x32000100, 0x00071000, 1, 0x13]
def endRec : List Word := record [0x34000100, 0x00071000, 2, 0x40000000]
theorem witness_slot_record : recType slotRec = 1 ∧ recCrcOk slotRec = true ∧ recFormOk slotRec 1 [] = true ∧ recType slotRec ≠ 4 ∧
    fld (slotRec.getD 1 0) 16 16 = loading.stitch.num.toNat := by decide +kernel
/-- The record's packet stands whole in the ejection buffer, or no packet brings it. -/
theorem witness_record_arrives : (bringing loading (.attach 0) (.site 60) (.pattern slotRec)).mayGetRecord 60 slotRec = true ∧
    (onTile loading).mayGetRecord 60 slotRec = true ∧ (onTile loading).powered 60 = true := by decide +kernel
theorem witness_code_record : recType codeRec = 2 ∧ recCrcOk codeRec = true ∧ recFormOk codeRec 1 [] = true ∧ recType codeRec ≠ 4 := by decide +kernel
theorem witness_record_fails : recType [0x31600100, 0x00071000, 0, 0x1F00, 0] ≠ 4 ∧ recCrcOk [0x31600100, 0x00071000, 0, 0x1F00, 0] = false ∧
    loading.stitch.mode = .loading ∧ loading.stitch.ended = false ∧ loading.stitch.failed = false := by decide +kernel
theorem witness_end_record : recType endRec = 4 ∧ recCrcOk endRec = true ∧ recFormOk endRec loading.stitch.new loading.stitch.seqnos = true ∧
    fld (endRec.getD 1 0) 16 16 = loading.stitch.num.toNat ∧ (∀ k, k < fld (endRec.getD 3 0) 0 12 → k ∈ loading.stitch.seqnos) ∧
    loading.badEpoch 0x40 loading.stitch.new = false := by decide +kernel
theorem witness_end_incomplete : recType (record [0x34000100, 0x00071000, 2, 0x40000003]) = 4 ∧
    recCrcOk (record [0x34000100, 0x00071000, 2, 0x40000003]) = true ∧
    fld ((record [0x34000100, 0x00071000, 2, 0x40000003]).getD 3 0) 0 12 = 3 ∧ 0 ∉ loading.stitch.seqnos ∧
    (onTile loading).mayGetRecord 60 endRec = true := by decide +kernel
theorem witness_image_check : crc32cWords (slotImage 6 (tile0.group 6).active) = (tile0.group 6).keptWord 6 ∧
    crc32cWords (slotImage 6 ((tile0.flipImage [{ group := 6, word := 3, bits := 1 }]).group 6).active) ≠
      (tile0.group 6).keptWord 6 := by decide +kernel

def armed : Tile := { tile0 with stitch := { StitchSt.reset with num := 7, new := 1, mode := .armed, gmask := 0x41, pend := 0x41 } }
theorem witness_commit : armed.stitch.mode = .armed ∧ armed.stitch.num = 7 ∧ armed.stitch.pend ≠ 0 ∧ bitOf armed.stitch.pend 7 = false := by
  decide
theorem witness_open_abort : tile0.stitch.mode = .idle ∧ tile0.freezeOn = false ∧ loading.stitch.mode = .loading ∧ loading.stitch.num = 7 := by
  decide
theorem witness_messages_to_tiles : (onTile armed).powered 60 = true ∧
    (bringing tile0 (.attach 0) (.site 60) (.ctrl (.openStitch 7 1))).getsCtrl 60 (.openStitch 7 1) ∧
    (bringing armed (.attach 0) (.site 60) (.ctrl (.commit 7))).getsCtrl 60 (.commit 7) ∧
    (bringing loading (.attach 0) (.site 60) (.ctrl (.abort 7))).getsCtrl 60 (.abort 7) := by
  unfold State.getsCtrl; decide
/-- A freeze written while the stitch is open. -/
def frozenLoading : Tile := { loading with freeze := { FreezeSt.reset with soft := true, coreWas := .running } }
theorem witness_abort_frozen : frozenLoading.freezeOn = true ∧ frozenLoading.stitch.mode = .loading ∧ frozenLoading.stitch.num = 7 := by decide
theorem witness_commit_flow : ({ armed with stitch := { armed.stitch with gmask := 0x80, pend := 0x80 } } : Tile).stitch.mode = .armed ∧
    bitOf ({ armed with stitch := { armed.stitch with gmask := 0x80, pend := 0x80 } } : Tile).stitch.pend 7 = true := by decide
def committed : Tile := { armed with stitch := { armed.stitch with mode := .committed, points := [(0, .atCommit), (6, .atCommit)] } }
theorem witness_switch : committed.stitch.mode = .committed ∧ bitOf committed.stitch.pend 0 = true ∧ committed.settled 0 = true ∧
    committed.stitch.points.find? (fun e => decide (e.1 = 0)) = some (0, .atCommit) ∧ bitOf committed.stitch.pend 5 = false := by decide
/-- Group 3 at its run's end, and with agreeing markers of the stitch at its needed queue. -/
def switching (p : SwitchPoint) (toks : List QTok) (run : Bool) : Tile :=
  let t := ((seqTile false).setQueue 3 0 { Queue.reset with toks := toks }).setSeq 3 { SeqSt.reset with run := run }
  { t with stitch := { StitchSt.reset with num := 7, new := 1, mode := .committed, gmask := 8, pend := 8, points := [(3, p)] } }
theorem witness_switch_at_run_end : (switching .runEnd [] false).stitch.mode = .committed ∧
    bitOf (switching .runEnd [] false).stitch.pend 3 = true ∧ (switching .runEnd [] false).settled 3 = true ∧
    (switching .runEnd [] false).running 3 = false ∧ ((switching .runEnd [] false).seq 3).halted = false := by decide +kernel
def atMarker : Tile := switching .marker [⟨mkMark 0 7 1, .loom 0 0⟩] true
theorem witness_switch_at_marker : atMarker.stitch.mode = .committed ∧ bitOf atMarker.stitch.pend 3 = true ∧ atMarker.settled 3 = true ∧
    atMarker.marksReady 3 .switchMark = true ∧ atMarker.headMarks 3 = [mkMark 0 7 1] ∧ marksAgree [mkMark 0 7 1] = true ∧
    tokPayload (mkMark 0 7 1) % 16 = atMarker.stitch.new.toNat ∧ atMarker.noHelds 3 = true := by
  decide +kernel
def marked : Tile := (seqTile false).setQueue 3 0 { Queue.reset with toks := [⟨mkMark 0 9 2, .loom 0 0⟩] }
theorem witness_re_epoch : marked.named 3 = false ∧ marked.running 3 = true ∧ marked.settled 3 = true ∧
    marked.marksReady 3 .reMark = true ∧ marksAgree (marked.headMarks 3) = true := by decide

def openStitch : Stitch := { num := 7, new := 1, sites := [60, 61], armed := [60], switchedS := [60], committed := false, owner := none }
def stitching (k : Stitch) : Steward := { Steward.reset with stitches := [k] }
theorem witness_steward_stitch : (stitching openStitch).stitch? 7 = some openStitch ∧ (7 : BitVec 16) ≠ 0xFFFF ∧
    (stitching openStitch).darning = none ∧ 61 ∈ openStitch.sites ∧ openStitch.committed = false ∧
    (stitching { openStitch with committed := true }).stitch? 7 = some { openStitch with committed := true } := by decide

theorem witness_messages_to_the_steward : ∀ m ∈ [CtrlMsg.armed 7, .failed 7 1, .switched 7, .segheld],
    (bringing tile0 (.tile 60) (.att 1) (.ctrl m)).getsAtt 60 m := by
  unfold State.getsAtt; decide
def blockedTile : Tile :=
  { tile0 with groups := [(4, { GroupSt.reset with active := [(3, 0x80)] }), (6, { GroupSt.reset with active := [(0, 0x1F00), (2, 0x00050001)] })]
               queues := [(39, { Queue.reset with toks := List.replicate 16 (tokenOf 0 1 false 0) })] }
theorem witness_deadlock : (∀ w, Map.get noCount (onSteward (boot2.setReg Reg.ST_DL_CFG 0x80000000)).steward.dlSpills w = 0) ∧
    (onTile blockedTile).weaveTiles 5 = [60] ∧ ((onTile blockedTile).tile 60).prog = false ∧
    ((onTile blockedTile).tile 60).blocked = true ∧ ((onTile blockedTile).tile 60).freezeOn = false ∧
    ((onTile blockedTile).tile 60).stitch.mode = .idle ∧ bitOf ((boot2.setReg Reg.ST_DL_CFG 0x80000000).reg Reg.ST_DL_CFG) 31 = true :=
  ⟨fun _ => rfl, by decide +kernel⟩
/-- The spill spool is spool 31 from reset on (R319). -/
def spillRoom : Tile := { blockedTile with groups := (3, { GroupSt.reset with active := [(88, 0xC0020000)] }) :: blockedTile.groups }
theorem witness_spill : (onTile blockedTile).powered 60 = true ∧
    (bringing blockedTile (.attach 0) (.site 60) (.ctrl (.spill 5))).mayGet
      (fun p => p.dst = .site 60 && (match p.body with | .ctrl (.spill _) => true | _ => false)) = true ∧
    blockedTile.toSpill = [(4, 7)] ∧ bitOf (blockedTile.act 3 88) 31 = false ∧ spillRoom.toSpill = [(4, 7)] ∧
    bitOf (spillRoom.act 3 88) 31 = true ∧ fld (spillRoom.act 3 88) 16 13 = 2 ∧ spillRoom.spoolCount 31 = 0 ∧
    (spillRoom.spool 31).rsv = 0 ∧ fld (spillRoom.act 6 3) 0 5 = 31 := by decide +kernel
theorem witness_no_room_report : let s := bringing tile0 (.tile 60) (.att 1) (.ctrl (.spilled true))
    (s.net.any fun p => decide (p.src = .tile 60) && decide (p.body = .ctrl (.spilled true))) = true ∧ s.getsAtt 60 (.spilled true) ∧
    (on.net.any fun p => decide (p.src = .tile 60) && decide (p.body = .ctrl (.spilled true))) = false := by
  unfold State.getsAtt; decide
def spilledTile : Tile :=
  tile0.setQueue 0 0 { Queue.reset with spills := [{ off := 0, count := 16, fetched := false, left := 16 }] }
theorem witness_spilled_tokens : (spilledTile.queue (0 : BitVec 4).toNat (0 : BitVec 3).toNat).spills =
    { off := 0, count := 16, fetched := false, left := 16 } :: [] ∧ (spilledTile.queue 0 0).back = [] := by decide

/-! ## Witnesses: the weft -/

def packet (dst : Site) : Pkt := { src := .tile 60, dst := .site dst, cls := 2, flits := 9, body := .ctrl .go }
def sending (dst : Site) (bkt : Word) : Tile := { tile0 with regs := [(Reg.WF_BKT + 8, bkt)], outq := [packet dst] }
theorem witness_inject : (onTile (sending 62 9)).holding (pointSite (.tile 60)) = false ∧
    ((onTile (sending 62 9)).tile (pointSite (.tile 60))).siteHem = false ∧
    (((((onTile (sending 62 9)).reports (.tile 60)).parted (.tile 60) 2).line (.tile 60))).find? (fun q => decide (q.cls = 2)) = some (packet 62) ∧
    (onTile (sending 62 9)).steward.off (pointSite (.tile 60)).val = false ∧ ∀ l, (packet 62).dst ≠ .rects l := by
  refine ⟨by decide +kernel, by decide +kernel, by decide +kernel, by decide +kernel, ?_⟩
  intro l h
  cases h
theorem witness_inject_path : weftPath Steward.reset.off 60 62 = some [61, 62] := by decide +kernel
theorem witness_inject_levels : fld ((onTile (sending 62 0xFFFF0000)).bucketReg (.tile 60) 2) 16 16 = 0xFFFF ∧
    (onTile (sending 62 9)).level (.tile 60) 2 < 9 := by decide
theorem witness_unreachable : weftPath (Steward.reset.setSite 62 0).off 60 62 = none := by decide +kernel

/-- A multicast that its source may send, one that it may not, and one that leaves the grid; with an unlimited and a short bucket. -/
def multi (src : InjPoint) (l : List (Nat × Nat × Nat × Nat)) : Pkt :=
  { src := src, dst := .rects l, cls := 0, flits := 1, body := .ctrl (.ping 0) }
def multiOn (bkt : Word) (src : InjPoint) (l : List (Nat × Nat × Nat × Nat)) : State :=
  onSteward { boot2.setReg Reg.ST_ABKT bkt with outq := [multi src l] }
theorem witness_multicast :
    ((((multiOn 0xFFFF0000 (.attach 0) [(0, 47, 0, 49)]).reports (.attach 0)).parted (.attach 0) 0).line (.attach 0)).find? (fun q => decide (q.cls = 0)) =
      some (multi (.attach 0) [(0, 47, 0, 49)]) ∧
    (multiOn 0xFFFF0000 (.attach 0) [(0, 47, 0, 49)]).holding (pointSite (.attach 0)) = false ∧
    ((multiOn 0xFFFF0000 (.attach 0) [(0, 47, 0, 49)]).tile (pointSite (.attach 0))).siteHem = false ∧
    boot2.off (pointSite (.attach 0)).val = false ∧ boot2.multiOk (multi (.attach 0) [(0, 47, 0, 49)]) [(0, 47, 0, 49)] = true ∧
    boot2.multiOk (multi (.tile 60) [(0, 47, 0, 49)]) [(0, 47, 0, 49)] = false ∧
    boot2.multiOk (multi (.attach 0) [(0, 48, 0, 49)]) [(0, 48, 0, 49)] = false ∧
    fld ((multiOn 0xFFFF0000 (.attach 0) [(0, 47, 0, 49)]).bucketReg (.attach 0) 0) 16 16 = 0xFFFF ∧
    (multiOn 0x00010001 (.attach 0) [(0, 47, 0, 49)]).level (.attach 0) 0 < 2 := by decide +kernel

def flit0 (crc : BitVec 16) : Flit := { ctl := 0, payload := 0, crc := crc }
theorem witness_flit : stepSide 60 0 = some 12 ∧ (60 : Site) ≠ 12 ∧ on.steward.off 60 = false ∧ on.steward.off 12 = false ∧
    (on.tile 60).siteHem = false ∧ bitOf (on.tile 60).router.down 0 = false ∧
    ((on.tile 60).router.buf (on.onLink 12 0 (flit0 0)).side (on.onLink 12 0 (flit0 0)).vch (on.onLink 12 0 (flit0 0)).lane).length <
      bufCap (on.onLink 12 0 (flit0 0)).vch ∧
    (on.tile 60).router.fails.getD 0 0 = 0 := by decide +kernel
/-- After two failures on side 0 only the flit that the replay buffer of site 12 begins with is taken. -/
def failing : State :=
  { on with tiles := [(12, { tile0 with router := { tile0.router with sent := [{ side := 2, vch := 0, flit := flit0 5 }] } }),
                      (60, { tile0 with router := { tile0.router with fails := [2, 0, 0, 0] } })] }
theorem witness_flit_replay : (failing.tile 60).router.fails.getD 0 0 = 2 ∧
    (failing.tile 12).router.replay 2 = [{ side := 2, vch := 0, flit := flit0 5 }] ∧ (flit0 5).crc ≠ (flit0 6).crc := by
  decide +kernel
theorem witness_flit_crc (c : BitVec 16) (h : flitCrc 0 0 = c) : (flit0 c).crc = flitCrc (flit0 c).ctl (flit0 c).payload ∧
    (flit0 (c + 1)).crc ≠ flitCrc (flit0 (c + 1)).ctl (flit0 (c + 1)).payload := by
  simp only [flit0, h, true_and]
  bv_omega
def holdingTile : Tile := { tile0 with router := { tile0.router with heldPk := [packet 62] } }
theorem witness_held_packets : (∀ p ∈ holdingTile.router.heldPk, pointSite p.src = 60) ∧
    ∀ p ∈ [multi (.tile 60) [(0, 1, 0, 1)]], pointSite p.src = 60 ∧ p.dst = .rects [(0, 1, 0, 1)] := by decide
def route : RouteSt := { side := 4, vch := 3, src := 61, ctl := 0, outs := [], started := [], todo := [], here := true }
def routing : Tile := { tile0 with router := { tile0.router with routes := [route] } }
theorem witness_head_timeout : routing.router.route (4 : Fin 5).val (3 : Fin 4).val = some route ∧
    routing.router.front (4 : Fin 5).val (3 : Fin 4).val = none ∧ route.here = true ∧ route.src = (61 : Site).val := by decide +kernel
/-- The same on the detour lane, with nothing on the other. -/
theorem witness_head_timeout_lane : let r := { tile0.router with routes := [{ route with lane := true }] }
    r.route 4 3 true = some { route with lane := true } ∧ r.front 4 3 true = none ∧ r.route 4 3 = none := by decide +kernel
theorem witness_drop_packet : (bringing tile0 (.tile 61) (.site 60) (.drop 1 4095)).mayGet
    (fun p => p.dst = .site 60 && p.src = .tile 61 && p.body = .drop 1 4095) = true := by decide
theorem witness_drop_row : ∃ r, awaiting.units.sh.running = r :: [] ∧ r.acks = ((61 : Site).val, (4095 : BitVec 12).toNat) :: [] :=
  ⟨_, rfl, by decide⟩

/-! ## Witnesses: ports -/

def upPort : Port := { Port.reset.setReg Reg.GL_STAT 0xFF00 with mode := .up, version := 0x31 }
theorem witness_port_takes : upPort.inService 7 = true ∧ upPort.mode = .up ∧ (upPort.lane 7).fails < 2 ∧ (upPort.lane 7).failsPeriod < 63 := by
  decide
/-- A C header flit of number 5, and an IDLE flit that returns 7 header and 15 data credits of class 4. -/
def flit5 : GlFlit := { sb := 0x7822105003800000, body := 0 }
def idleFlit : GlFlit := { sb := 0xCE430000027F0000, body := 0 }
/-- A group that waits for the replay of flit 5, and one at its third failure. -/
def lane5 (fails : Nat) (discarding : Bool) : Port := upPort.setLane 7 { upPort.lane 7 with seqIn := 5, fails := fails, discarding := discarding }
theorem witness_lane_states : ((lane5 1 true).lane 7).discarding = true ∧ ((lane5 1 true).lane 7).seqIn = 5 ∧
    2 ≤ ((lane5 2 true).lane 7).fails ∧ (lane5 2 true).inService 7 = true ∧ glSeq flit5 = 5 ∧ glSeq idleFlit = 0 ∧ glFt flit5 = 1 ∧
    glFt idleFlit = 0 ∧ fld idleFlit.sb 23 3 = 4 ∧ bitOf idleFlit.sb 35 = false ∧ bitOf flit5.sb 35 = false := by decide
set_option maxRecDepth 20000 in
/-- Their CRCs were worked out by hand from R338's polynomial. -/
theorem witness_good_flits : ∀ f ∈ [flit5, idleFlit], fld f.sb 48 16 = (glCrc f.sb f.body).toNat := by decide +kernel
theorem witness_idle_port : upPort.backlog = [] ∧ upPort.rxHeld = [] ∧ upPort.idleGroup = none ∧
    ∀ r, upPort.stripeDue.getD r none = none := by
  refine ⟨by decide, by decide, by decide, ?_⟩
  intro r
  by_cases h : r < 4
  · interval_cases r <;> rfl
  · exact List.getD_eq_default _ _ (by simpa [upPort, Port.reset, Port.setReg] using h)
/-- A message of the host's: DOORBELL of stream 5. -/
def doorbellHdr : BitVec 256 := mkHeader 0x20 0 false 0 0 0 0 0 0x31 (1 ||| 5 <<< 16 ||| 9 <<< 32)
theorem witness_header_good : headerBad Steward.reset 0x31 2 doorbellHdr = false ∧ msgBad doorbellHdr = false ∧ bitOf doorbellHdr 20 = false ∧
    fld doorbellHdr 0 8 = 0x20 ∧ msgBad (doorbellHdr ||| (1#256 <<< 192)) = true ∧
    headerBad Steward.reset 0x31 2 (doorbellHdr ||| (1#256 <<< 192)) = false := by decide +kernel
theorem witness_header_bad : headerBad Steward.reset 0x31 0 doorbellHdr = true ∧
    headerBad Steward.reset 0x31 1 (mkHeader 0x10 5 false 0 1 0 0 0 0x31 0) = true ∧ answered 0x10 = true ∧
    fld (mkHeader 0x10 5 false 0 1 0 0 0 0x31 0) 0 8 = 0x10 := by decide +kernel
theorem witness_header_passed : headerBad Steward.reset 0x31 0 (mkHeader 1 5 false 0 0 512 511 0 0x31 0) = false ∧
    fld (mkHeader 1 5 false 0 0 512 511 0 0x31 0) 0 8 = 1 := by decide +kernel
/-- Headers of host origin that only a steward may send, and one that comes while the chiplet is locked. -/
theorem witness_header_origin : headerBad Steward.reset 0x31 1 (mkHeader 0x10 5 true 0 0 0 0 0 0x31 0) = false ∧ bitOf (mkHeader 0x10 5 true 0 0 0 0 0 0x31 0) 20 = true ∧
    headerBad Steward.reset 0x31 0 (mkHeader 1 5 false 0 0 512 511 0 0x31 0) = false ∧ answered 1 = true ∧
    fld ((Steward.reset.setReg Reg.ST_BOOT 3).reg Reg.ST_BOOT) 0 2 = 3 := by decide +kernel
theorem witness_lane_outcomes : let p := upPort.setLane 7 { upPort.lane 7 with own := some 0, peer := some 2 }
    (p.lane 7).own ≠ none ∧ (p.lane 7).peer = some 2 ∧ (upPort.lane 7).own = none ∧ upPort.removed 7 = false ∧
    fld ((upPort.setReg (spareReg false 7) 0xA2000000).reg (spareReg false 7)) 24 8 = 162 := by decide
/-- The stripe of role 0 with every flit of the old one taken, and with its STRIPE marker held on each group. -/
def striped : Port := { upPort with rxStripe := [0x80, 0, 0, 0], rxHeld := [(7, { sb := 0x600000000500, body := 0 })] }
theorem witness_stripe : upPort.rxHeld = [] ∧ upPort.backlog = [] ∧ upPort.idleGroup = none ∧ upPort.mode = .up ∧ upPort.stripeDue.length = 4 ∧
    striped.rxHeld ≠ [] ∧ (∀ e ∈ striped.rxHeld, isMarker 0 e.2 = true) ∧
    (∀ k ∈ striped.peerStripe 0, striped.inService k = true → ∃ e ∈ striped.rxHeld, e.1.val = k) ∧ striped.idleGroup = none := by decide +kernel
theorem witness_roles : ({ upPort with rolesPending := true } : Port).mode = .up ∧ upPort.rolesPending = false ∧
    ({ upPort with rolesPending := true } : Port).rolesPending = true := by decide
theorem witness_restarts : (([0, 0, 0] : List Nat).filter fun k => decide (on.periods - k ≤ 100)).length = 3 ∧
    ((on.port 0).restartAt.filter fun k => decide (on.periods - k ≤ 100)).length < 3 := by decide
theorem witness_train_fails : ∀ g, g < 8 →
    2 ≤ ((List.replicate 8 ({ rx := [33, 34], tx := [], clk := false } : GroupTest)).getD g { rx := [], tx := [], clk := false }).rx.length ∧
    ((List.replicate 8 ({ rx := [33, 34], tx := [], clk := false } : GroupTest)).getD g { rx := [], tx := [], clk := false }).clk = false ∧
    ([] : List GroupTest).getD g { rx := [], tx := [], clk := false } = { rx := [], tx := [], clk := false } := by decide
theorem witness_agreement : on.steward.committed = false ∧ (0x31 : BitVec 8).toNat ≥ 0x30 ∧
    ({ Steward.reset with committed := true } : Steward).committed = true ∧
    (0x8000000000000000 : BitVec 64) &&& ~~~Steward.reset.ownFeatures ≠ 0 ∧ on.steward.assigned = false ∧
    (Steward.reset.setReg Reg.GL_DISC 3).slot ≠ (4 : BitVec 4).toNat := by decide
theorem witness_k2_deliver : (bringing tile0 (.port 1) (.port 0) (.k2 0 [7])).mayGet
    (fun p => p.dst = .port 0 && p.src = .port 1 && p.body = .k2 0 [7]) = true := by decide
def retraining : Port := upPort.setReg Reg.GL_STAT 0x8000FF00
theorem witness_lanes : (Port.reset.setReg Reg.GL_STAT 0x800000).inRetrain 7 = true ∧ (Port.reset.setReg Reg.GL_STAT 0x800000).removed 7 = false ∧
    fld ((Port.reset.setReg Reg.GL_STAT 0x800000).reg (spareReg false 7)) 24 8 < 128 ∧ upPort.inService 7 = true ∧
    retraining.removed 7 = true := by decide
theorem witness_port_start : (on.port 0).mode = .down ∧ (on.port 0).stays = false ∧ (on.port 0).hemmed = false ∧ on.portOn 0 = true ∧
    (on.port 0).restarts = 0 := by decide
def training : Port := { Port.reset with mode := .train, aliveIn := true, aliveOut := true }
theorem witness_train : training.mode = .train ∧ training.aliveIn = true ∧ training.aliveOut = true ∧ on.steward.discovered = false ∧
    0x30 ≤ (0x31 : BitVec 8).toNat := by decide
theorem witness_discovery : ({ Port.reset with mode := .discover } : Port).mode = .discover ∧ on.steward.assigned = false ∧
    fld (on.steward.reg Reg.GL_DISC) 8 8 = 0 ∧ (0 : BitVec 64) &&& ~~~on.steward.ownFeatures = 0 ∧
    0x30 ≤ (on.steward.linkVersion 0x31 0x31).toNat := by decide
theorem witness_k2 : (Steward.reset.setReg Reg.GL_FEAT_AGR_LO 4).feature 2 = true ∧ fld (0xBE00 : BitVec 16) 4 2 = 0 ∧
    fld (0xBE00 : BitVec 16) 6 3 + 1 ≤ 2 ∧ fld (0xBE00 : BitVec 16) 9 7 = (95 : PortIx).val := by decide

/-! ## Witnesses: reach -/

def hdr : ReachHdr := { rtag := 7, addr := 0x100000001200, len := 63, stream := 5, sv := true, orig := false }
/-- The cache is on and range 0 holds the first megabyte of slot 1 for stream 5. -/
def cachePort : Port :=
  { Port.reset with mode := .up
                    regs := [(Reg.GL_RCCFG, 3), (Reg.GL_PFCFG, 0x00010001), (Reg.GL_RORNG, 0x1000000), (Reg.GL_RORNG + 4, 0x80050000)] }
def sector : Sector := { addr := 0x100000001200 / 512, stream := 5, data := List.replicate 512 7 }
theorem witness_cacheable : cachePort.cacheable on.steward hdr = some 0 ∧ Port.reset.cacheable on.steward hdr = none ∧
    cachePort.sector? (0x100000001200 / 512) 5 = none ∧ cachePort.filling (0x100000001200 / 512) 5 = none ∧
    cachePort.setFull (0x100000001200 / 512) = false ∧ cachePort.reqs.length < 4096 := by decide +kernel
theorem witness_cache_hit : ({ cachePort with cache := [sector] } : Port).sector? (0x100000001200 / 512) 5 = some sector := by decide +kernel
def fillReq : PortReq := { tag := 3, write := false, fill := true, prefetch := false, install := true, addr := 0x1200, stream := 5, waits := [(60, hdr, 6)] }
theorem witness_reach_packets : (∀ b ∈ [PktBody.greq hdr, .preq hdr [1] [false]],
      (bringing tile0 (.tile 60) (.port 0) b).mayGet (fun p => p.dst = .port 0 && p.src = .tile 60 && p.body = b) = true) ∧
    (∀ b ∈ [PktBody.gdata 9 0 [1] [false], .pdone 9 1],
      (bringing tile0 (.port 0) (.site 60) b).mayGet (fun p => p.dst = .site 60 && p.body = b) = true) ∧
    (∀ b ∈ [PktBody.rrd hdr, .rwr hdr [1] false],
      (bringing tile0 (.port 0) (.site 60) b).mayGet (fun p => p.dst = .site 60 && p.src = .port 0 && p.body = b) = true) ∧
    (bringing tile0 (.tile 60) (.port 0) (.rrsp 9 0 [1] false)).mayGet (fun p => p.dst = .port 0 && p.body = .rrsp 9 0 [1] false) = true := by
  decide
theorem witness_no_tag : 4096 ≤ (List.replicate 4096 fillReq).length := by rw [List.length_replicate]
theorem witness_fill_response : [fillReq].find? (fun r => decide (r.tag = 3) && !r.write) = some fillReq ∧
    [{ fillReq with write := true }].find? (fun r => decide (r.tag = 3) && r.write) = some { fillReq with write := true } := by decide
def getting : Tile :=
  { started .sh { cmd := getCmd, left := 1 } with
    sh := { ShSt.reset with out := [{ rtag := 9, user := .cmd 0, goff := 0, len := 512 }]
                            gets := [{ cmd := getCmd, parts := [], left := 1, done := [] }] } }
theorem witness_get_answer : getting.sh.out.find? (fun o => decide (o.rtag = 9)) = some { rtag := 9, user := .cmd 0, goff := 0, len := 512 } ∧
    getting.sh.gets.find? (fun g => decide (g.cmd.stamp = 0)) = some { cmd := getCmd, parts := [], left := 1, done := [] } ∧
    shSame getCmd = true ∧ sameBytes getCmd = 512 := by decide
def prefetching : Port :=
  { cachePort with prefetchers := [(15, some { site := 60, stream := 5, next := 0x8000000A, stride := 1, lo := 0x80000000, hi := 0x800007FF, used := 0, turn := 0 })] }
theorem witness_prefetch : prefetching.mode = .up ∧ fld (prefetching.reg Reg.GL_RCCFG) 0 2 = 3 ∧ prefetching.demandWaits = false ∧
    (prefetching.reqs.filter fun r => r.prefetch).length < fld (prefetching.reg Reg.GL_PFCFG) 16 8 ∧
    prefetching.nextPrefetch.isSome = true ∧ (prefetching.prefetcher 15).isSome = true := by decide +kernel
theorem witness_invack : [((4 : BitVec 12), 8, 9)].find? (fun e => decide (e.1 = 4)) = some (4, 8, 9) ∧
    (0xFFFF : BitVec 32).toNat < 65536 := by decide
theorem witness_stream_end : (0 : PortIx) ∈ ({ Ctx.reset with portsLeft := [0] } : Ctx).portsLeft := by decide
theorem witness_cache_config : on.portOn 0 = true ∧ fld (0x00000020 : Word) 0 6 = 32 ∧ fld (0x00000021 : Word) 0 6 = 33 := by decide
theorem witness_incoming : [(0xAA : Byte)].length = (0 : BitVec 10).toNat + 1 ∧ on.steward.ownSite (60 * 2 ^ 21 + 511) 1 = some 60 ∧
    on.steward.ownSite (2400 * 2 ^ 21) 1 = none ∧ on.steward.off (on.steward.darned 60).val = false ∧
    (60 * 2 ^ 21 + 511) % 512 + ((0 : BitVec 10).toNat + 1) ≤ 512 ∧ upPort.incoming.length < 256 ∧
    fld (boot2.reg Reg.ST_BOOT) 0 2 ≠ 3 := by decide +kernel
def inReq : InReq := { tag := 5, orig := false, write := false, order := [3], left := [3], status := 0, parts := [] }
theorem witness_part_answer : [inReq].find? (fun r => r.left.contains 3) = some inReq ∧ inReq.left = [3] ∧ inReq.order = [3] ∧
    inReq.parts = [] := by decide
theorem witness_part_tag : upPort.partTags 1 = [0] := by decide +kernel
def windowed : Tile := { tile0 with groups := [(3, { GroupSt.reset with active := [(56, 1), (89, 0xB0001FFF)] })] }
theorem witness_window : windowed.admits 4095 false false = true ∧ windowed.admits 4095 false true = true ∧
    windowed.admits 4094 false true = false ∧ windowed.admits 4095 true false = false ∧ windowed.asleep = false ∧ windowed.hemmed = false := by
  decide +kernel

/-! ## Witnesses: the loom -/

/-- A descriptor of operation `op` with the bytes of words 1 on. -/
def descOf (op : Nat) (rest : List Byte) : Desc :=
  Desc.load 0 (leBytes 4 (0x30000000 + op * 0x1000000) ++ rest ++ List.replicate (60 - rest.length) 0)
def ctxOf (d : Desc) : Ctx := { Ctx.reset with mode := .running, rlog := 3, pidx := 1, desc := some d }
/-- Stream 0 is running with a descriptor in progress, ready, and holds site 60. -/
def serving (d : Desc) : State :=
  { on with loom := { ctxs := [(0, ctxOf d)], sites := [(60, { LoomSite.reset with stream := some 0, credits := [1, 1, 0, 0] })], ready := [0], refused := [] } }
def nopDesc : Desc := descOf 1 []
def claimDesc : Desc := descOf 2 (leBytes 4 0 ++ leBytes 8 0x1FE ++ leBytes 2 1)
def releaseDesc : Desc := descOf 3 (leBytes 4 0 ++ leBytes 8 0x1FE ++ leBytes 2 2400)
def stitchDesc : Desc := descOf 4 (leBytes 4 0 ++ leBytes 8 0x1FE ++ leBytes 2 1 ++ leBytes 2 7 ++ leBytes 4 1 ++ leBytes 8 0x1000 ++ leBytes 4 8)
def tokensDesc : Desc := descOf 5 ([60, 0, 0, 4] ++ leBytes 8 0x1F0 ++ leBytes 4 1)
def sliceDesc : Desc := descOf 6 ([60, 0, 0, 0] ++ leBytes 8 0x1000 ++ leBytes 4 1 ++ leBytes 4 0x11)
def waitDesc : Desc := descOf 7 (leBytes 4 9 ++ leBytes 4 1)
def endDesc : Desc := descOf 8 []
def servesNow (d : Desc) (op : Nat) : Prop :=
  (serving d).inReset = false ∧ (serving d).served 0 = true ∧ ((serving d).ctx 0).current = some d ∧ d.op = op ∧ d.listErr = false ∧
    (serving d).descBad 0 d = false
theorem witness_serves_nop : servesNow nopDesc 1 := by unfold servesNow; decide +kernel
theorem witness_serves_claim : servesNow claimDesc 2 := by unfold servesNow; decide +kernel
theorem witness_serves_release : servesNow releaseDesc 3 := by unfold servesNow; decide +kernel
theorem witness_serves_stitch : servesNow stitchDesc 4 := by unfold servesNow; decide +kernel
theorem witness_serves_tokens : servesNow tokensDesc 5 := by unfold servesNow; decide +kernel
theorem witness_serves_slice : servesNow sliceDesc 6 := by unfold servesNow; decide +kernel
theorem witness_serves_wait : servesNow waitDesc 7 := by unfold servesNow; decide +kernel
theorem witness_serves_end : servesNow endDesc 8 := by unfold servesNow; decide +kernel
theorem witness_bad_descriptor : (serving (descOf 0 [])).served 0 = true ∧ ((serving (descOf 0 [])).ctx 0).current = some (descOf 0 []) ∧
    (descOf 0 []).stage = .fresh ∧ (descOf 0 []).pos = 0 ∧ (descOf 0 []).count = 0 ∧ (serving (descOf 0 [])).descBad 0 (descOf 0 []) = true := by
  decide +kernel
theorem witness_token_target : (serving tokensDesc).descSite tokensDesc = some 60 ∧ (serving tokensDesc).targetHeld 0 tokensDesc = true ∧
    tokensDesc.count = 0 ∧ tokensDesc.pos = 0 ∧ fmtMx sliceDesc.fmt = false ∧ sliceDesc.num 16 4 = 1 ∧
    (serving sliceDesc).targetHeld 0 sliceDesc = true := by decide +kernel
theorem witness_token_credit : (serving tokensDesc).hasCredit 60 1 = true ∧ (serving tokensDesc).hasCredit 60 2 = false ∧
    ({ serving tokensDesc with steward := Steward.reset.setReg (Reg.ST_ABKT + 4) 0xFFFF0000 } : State).bucketOpen 60 1 = true := by
  decide +kernel
theorem witness_claim_one : claimDesc.num 16 2 = 1 ∧ on.free 60 = true ∧ (on.tile 60).asleep = false ∧ numAt (leBytes 2 60) 0 2 = 60 := by
  decide +kernel
theorem witness_wait_timeout : ((serving waitDesc).ctx 0).mode = .running ∧ waitMet (ctxOf waitDesc) waitDesc = false ∧
    waitMet { ctxOf waitDesc with evt := 9 } waitDesc = true ∧ waitDesc.num 8 4 = 1 := by decide +kernel
def stitchListed : Desc := { stitchDesc with stage := .list, list := leBytes 2 60 }
theorem witness_stitch_list : stitchListed.status = none ∧ stitchListed.list.length = 2 * stitchListed.num 16 2 ∧
    numAt stitchListed.list 0 2 = 60 ∧ ((serving stitchListed).loomSite ((serving stitchListed).steward.darned 60)).stream = some 0 ∧
    (serving stitchListed).inSlice 60 = false ∧ stitchListed.num 18 2 = 7 ∧ (serving stitchListed).steward.numberOpen 7 = false ∧
    (stitching openStitch).numberOpen 7 = true ∧ ({ stitchDesc with status := some (0, 1) } : Desc).status ≠ none := by decide +kernel
def live0 : Ctx := { Ctx.reset with mode := .running, rlog := 3, cidx := 4, pidx := 6 }
theorem witness_doorbell : live0.mode = .running ∧ ((12 : Word) - live0.pidx).toNat < 2 ^ 31 ∧ ((12 : Word) - live0.cidx).toNat ≤ 2 ^ live0.rlog ∧
    2 ^ live0.rlog < ((13 : Word) - live0.cidx).toNat ∧ ¬((live0.pidx + 0x80000000) - live0.pidx).toNat < 2 ^ 31 := by decide
theorem witness_start : (64 : BitVec 64).toNat % 64 = 0 ∧ (64 : BitVec 64).toNat < 2 ^ 60 ∧ (on.ctx 0).mode = .idle ∧ (on.ctx 0).park = .none ∧
    boot2.noStart = false := by decide
def contextBytes : List Byte := leBytes 4 0x38030000 ++ leBytes 4 0 ++ leBytes 8 0x4000 ++ List.replicate 48 0
theorem witness_context_record : recordOk contextBytes = true ∧ recordOk (List.replicate 64 0) = false ∧ (Park.started 64).isStarted = true := by
  decide +kernel
theorem witness_kill_resume : live0.mode = .running ∧ ({ live0 with mode := .halted } : Ctx).mode = .halted ∧
    ({ live0 with mode := .killing, teardown := .done } : Ctx).teardown = .done := by decide
def fetching : State := { on with loom := { ctxs := [(0, live0)], sites := [], ready := [0], refused := [] } }
theorem witness_host_messages : ∀ ty ∈ [1#8, 2, 3, 4, 5],
    (bringing tile0 (.port 0) (.att 1) (.ctrl (.streamMsg ty 0 12 64))).getsMsg ty 0 (fun a b => a == 12 && b == 64) := by
  unfold State.getsMsg; decide
theorem witness_fetch : fetching.served 0 = true ∧ (fetching.ctx 0).desc = none ∧ (fetching.ctx 0).slots = [] ∧
    ({ live0 with park := .fetch, retried := true } : Ctx).park = .fetch := by decide
def written : WriteBack := { index := 4, word := statusWord 0 0 1, notify := true, vec := 3, stale := false }
theorem witness_writeback_ack : ({ live0 with completes := [written] } : Ctx).completes = written :: [] ∧ written.stale = false ∧
    fld (statusWord 1 0 0) 48 8 = 1 := by decide
theorem witness_error_report : ((serving nopDesc).loomSite 60).stream = some 0 ∧ ((serving nopDesc).ctx 0).errs ≤ 0xFFFF ∧
    ((serving nopDesc).ctx 0).mode ≠ .idle := by decide +kernel

/-! ## Witnesses: faults, hems, darning, self-test -/

theorem witness_fault : fld (Steward.reset.reg (Reg.ST_FPOL + 4 * 0x0D)) 8 2 < 4 ∧ on.steward.site 60 = 1 ∧ (on.tile 60).hemmed = false ∧
    on.steward.darning = none ∧ on.steward.darnQueue = [] := by decide
theorem witness_fault_packet : (bringing tile0 (.tile 60) (.att 1) (.ctrl (.fault { code := 5, unit := 4, reg := 9, us := 0 }))).mayGet
    (fun p => pointSite p.src = 60 && (match p.body with
      | .ctrl (.fault g) => sameFault g { code := 5, unit := 4, reg := 9, us := 3 } | _ => false)) = true := by decide
theorem witness_steward_messages : (∀ m ∈ [CtrlMsg.hem 1, .seghold 5 0, .seggo 5 0, .go, .ping 3],
      (bringing tile0 (.attach 1) (.site 60) (.ctrl m)).getsCtrl 60 m) ∧
    (bringing tile0 (.tile 60) (.att 1) (.ctrl (.pong 3))).getsAtt 60 (.pong 3) := by
  unfold State.getsCtrl State.getsAtt; decide
theorem witness_watchdog : unitOfCode (4 : BitVec 4).toNat = some .sh ∧ (started .sh { cmd := putCmd }).units.sh.running ≠ [] ∧
    (waitingFor 0).core.mode = .stalled := by decide
theorem witness_silent : on.steward.site (60 : Site).val = 1 ∧ on.steward.site (0 : Site).val = 2 ∧ (on.tile 60).siteHem = false := by decide
theorem witness_hem : on.inSlice 60 = false ∧ (1 : BitVec 8).toNat < 2 ∧ siteOfPort 41 ≠ siteOfPort 42 := by decide
theorem witness_segment : (tile0.setReg Reg.TC_STREAM 0x80000005).stream? = some 5 ∧ (tile0.setReg Reg.TC_STREAM 0x80000005).weave = 0 ∧
    (tile0.setReg Reg.TC_STREAM 0x80000005).hemmed = false := by decide
def darning : Darning :=
  { failed := 60, holder := 60, spare := 12, kind := 0, step := .entry, image := 0, ibytes := 0, wrow := 0, nrows := 0, weights := 0
    recs := none, tries := 0, refused := 0, stream := none, weave := 0, logId := 0, asked := false, gets := 0, getErrs := [], bad := 0 }
def entryBytes : List Byte := leBytes 8 0x1000 ++ leBytes 4 8 ++ leBytes 4 0x80001000 ++ leBytes 8 0x8000 ++ leBytes 8 0
theorem witness_darning : darnEntryOk entryBytes = true ∧ darnEntryOk (List.replicate 32 0) = false ∧ darning.step = .entry ∧
    ({ darning with step := .restream } : Darning).asked = false ∧ ({ darning with step := .restream, asked := true } : Darning).gets = 0 := by
  decide +kernel
/-- The image has come, while the spare is awake and while it still sleeps. -/
theorem witness_darning_image : imageRecs 24577 (bytesOfWords slotRec) = some [slotRec] ∧
    ({ darning with step := .image } : Darning).recs = none ∧ ({ darning with step := .image } : Darning).refused = 0 ∧
    tile0.asleep = false ∧ ({ tile0 with asleep := true } : Tile).asleep = true := by decide +kernel
def slicing : Slice := { site := 60, item := 0, defers := 0, step := .freezing, result := none, discard := false, port := 0, bkt := 0, pbkt := 0 }
theorem witness_slice : slicing.step = .freezing ∧ (on.tile 60).freeze.frozen = false ∧ (on.tile 60).scrubbing = false ∧
    itemFreezes slicing.item = true ∧ on.condOk 60 { vcore := 7700, vsram := 7500, clock := 1800 } = true := by decide
def held0 : Tile := { tile0 with freeze := { FreezeSt.reset with slice := true } }
theorem witness_slice_frozen : held0.freezeOn = true ∧ held0.stitch.mode = .idle ∧ held0.core.mode = .halted ∧ held0.quiet = true ∧
    held0.tokenLeft = false ∧ sliceParts slicing.item ≠ [] ∧ sliceParts 3 = [] ∧ ({ slicing with step := .saving } : Slice).step = .saving ∧
    on.inSlice 60 = false := by decide
def rotating : State := onSteward { boot2.setReg Reg.BT_CFG 0x80000000 with rotSite := 60 }
/-- With `r` the second component. -/
theorem witness_slice_start : rotating.takeItem.1 = some (60, 0, 0) ∧ rotating.takeItem.2.sliceable 60 0 = true ∧
    bitOf (rotating.steward.reg Reg.BT_CFG) 31 = true ∧ rotating.steward.slice = none ∧ rotating.steward.sdRunning = false := by decide +kernel
/-- A bank's spare row, free, used by an earlier repair, and of another site. -/
theorem witness_repair : fld (0x10000003C : BitVec 64) 0 12 = 60 ∧ boot2.spareFree 0x10000003C = true ∧
    ({ boot2 with repairs := [0x10000003C] } : Steward).spareFree 0x10000003C = false ∧ fld (0x10000003D : BitVec 64) 0 12 ≠ 60 := by
  decide +kernel
/-- A slice that is testing; and at its end, with no scan that waits and with one. -/
theorem witness_slice_ends : ({ slicing with step := .testing } : Slice).step = .testing ∧ tile0.scrubbing = false ∧
    tile0.freeze.scanPend = none ∧ slicedTile.freeze.scanPend = none ∧
    ({ slicedTile.freeze with scanPend := some 0xC0000040 } : FreezeSt).scanPend ≠ none ∧
    ({ slicing with step := .restoring, discard := true } : Slice).discard = true := by decide
theorem witness_test_codes : (∀ f : FieldNo, Steward.reset.vidBusy f = false ∧ fld (Steward.reset.vset f) 0 6 ≠ 0) ∧
    Steward.reset.vidPlan = [[], [], [], []] := by decide
theorem witness_shutdown : on.steward.sdRunning = false ∧ on.steward.slice = none ∧ on.steward.darning = none ∧ on.allIdle = true ∧
    (∀ k ∈ [1, 2, 5, 6, 7, 12, 15, 16], ({ Steward.reset with sdStep := k } : Steward).sdStep = k) ∧ Steward.reset.xi = none ∧
    ({ Steward.reset with xi := some [] } : Steward).xi ≠ none ∧ (onSteward (slicing' 6)).allIdle = true ∧
    (slicing' 6).slice.isSome = true := by decide

/-! ## Witnesses: mailbox, attestation, firmware update -/

def request (cmd n arg : Nat) : List Byte := leBytes 4 1 ++ leBytes 8 cmd ++ leBytes 4 n ++ leBytes 4 arg ++ List.replicate 44 0
def mailing (h : List Byte) : Steward := { boot2 with mbox := { ack := 0, req := some h } :: List.replicate 3 { ack := 0, req := none } }
theorem witness_mailbox : boot2.mbox.length = 4 ∧ (mailing (request 1 1 0)).request 0 1 = some (request 1 1 0) ∧
    1 ≤ numAt (request 1 1 0) 12 4 ∧ (mailing (request 2 1 0)).request 0 2 = some (request 2 1 0) ∧ badRequest (request 1 1 0) = false ∧
    badRequest (request 1 2033 0) = true := by decide +kernel
/-- The poll after the lock: a new header, and one that has been taken up. -/
theorem witness_poll : let x := { boot2.setReg Reg.ST_LOCK 1 with mbox := List.replicate 4 { ack := 0, req := none } }
    x.locked = true ∧ fld (x.reg Reg.ST_BOOT) 0 2 = 2 ∧ x.mbox.length = 4 ∧ wordAt (request 1 1 0) 0 ≠ (x.mslot 0).ack ∧
    (mailing (request 1 1 0)).mslot 0 = { ack := 0, req := some (request 1 1 0) } := by decide +kernel
/-- A certificate of the length that the directory names. -/
theorem witness_certificate : numAt (List.replicate 48 0 ++ leBytes 4 8192) 48 4 = 8192 ∧ (0 : Fin 4) ∉ boot2.attests ∧
    (∃ pub, ({ boot2 with xi := some [] } : Steward).public = some pub) := ⟨by decide +kernel, by decide, _, rfl⟩
theorem witness_attest : (mailing (request 3 0 0)).request 0 3 = some (request 3 0 0) ∧ (mailing (request 3 0 0)).attests = [] := by
  decide +kernel
theorem witness_firmware : (mailing (request 4 0 0)).request 0 4 = some (request 4 0 0) ∧ (mailing (request 5 0 0)).request 0 5 = some (request 5 0 0) ∧
    boot2.loading = none ∧ boot2.switching = none ∧ boot2.confirmWait = none ∧ boot2.region < 2 ∧ boot2.regions.length = 2 := by
  decide +kernel
theorem witness_role_d : (({ on with ports := [(0, upPort)], steward := boot2.setReg Reg.ST_PROT 8 } : State).roleD 0) = true ∧
    roleDOk 0xFC 4 = true ∧ roleDOk 0xFC 8 = false ∧ on.setupRead 0 = some (on.readSteward 0) := by decide +kernel

/-! ## Witnesses: clauses over a boundary -/

theorem witness_throttle_taken : Steward.reset.sustLow.length = 4 ∧ Steward.reset.thermLow.length = 4 ∧
    (∀ f : FieldNo, fld (Steward.reset.vset f) 16 12 + Steward.reset.lowered false f < 4096 ∧
      fld (Steward.reset.vset f) 16 12 + Steward.reset.lowered true f < 4096) ∧
    ({ Steward.reset with thermLow := [50, 0, 0, 0] } : Steward).lowered true 0 = 50 := by decide
def runningCore : State := onTile { tile0 with core := { tile0.core with mode := .running } }
theorem witness_misaligned_core_write : runningCore.coreRuns 60 = true ∧ (2 : Word).toNat % 4 ≠ 0 ∧ on.coreRuns 60 = false := by decide
theorem witness_scan_engines : (on.tile 60).holdsEng 7 = false ∧ (on.tile 60).freeze.slice = false := by decide
theorem witness_errors_to_report : (∃ k ∈ ({ tile0 with errCounts := [0, 1, 0, 0, 0, 0] } : Tile).errCounts, k ≠ 0) ∧
    tile0.reported = false ∧ ∀ q ∈ tile0.outq, q.cls ≠ (2 : Fin 8) := ⟨⟨1, by decide, by decide⟩, by decide, by decide⟩

/-- A stitch that stream 0 asked for, which may be killed. -/
def asked : Stitch := { openStitch with owner := some 0 }
theorem witness_stitch_owner : (stitching asked).stitch? 7 = some asked ∧ asked.owner.isSome = true ∧ asked.committed = false ∧
    ((serving stitchDesc).ctx 0).commits = [] ∧ ((serving stitchDesc).ctx 0).teardown = .none ∧ ((serving stitchDesc).ctx 0).mode = .running ∧
    (serving stitchDesc).getsMsg 4 0 (fun _ _ => true) ∧ stitchDesc.op = 4 ∧ stitchDesc.num 18 2 = (7 : BitVec 16).toNat ∧
    ({ stitchDesc with stage := .image } : Desc).stage = .image ∧
    (∀ j ∈ (stitching { asked with committed := true }).stitches, j.num = 7 → j = { asked with committed := true }) := by
  unfold State.getsMsg; decide +kernel

def spilledToks : List QTok := [tokenOf 0 1 false 3, tokenOf 0 1 true 4]
def spilledRow : Tile :=
  { tile0.setQueue 0 0 { Queue.reset with spills := [{ off := 0, count := 2, fetched := false, left := 2 }] } with
    sp := { tile0.sp with mem := Memory.writeBytes [] 0 (spillRow 0 0 spilledToks) } }
theorem witness_spill_row : spilledToks.length = 2 ∧ spilledRow.inService 0 = true ∧ spilledRow.rowPoison 0 = false ∧
    spilledRow.sp.bad = [] ∧ ∀ i, i < 512 → spilledRow.spByte 0 i = (spillRow 0 0 spilledToks).getD i 0 := by decide +kernel

/-- A failed flit of the number after the last, while the group waits for a replay. -/
theorem witness_lane_skips : let p := upPort.setLane 7 { upPort.lane 7 with seqIn := 3, discarding := true, later := 5 }
    (p.lane 7).discarding = true ∧ glFt flit5 ≠ 0 ∧ glSeq flit5 = (p.lane 7).later ∧ glSeq flit5 ≠ (p.lane 7).seqIn := by decide
theorem witness_lane_64th : (upPort.setLane 7 { upPort.lane 7 with failsPeriod := 63 } |>.lane 7).failsPeriod = 63 ∧
    (upPort.lane 7).failsPeriod < 63 := by decide
/-- A STRIPE marker of role 0 with map 0x80, on a group whose stripe has no other. -/
def marker5 : GlFlit := { sb := 0x0000600500000500, body := 0x8000 }
def marker0 (map : Nat) : GlFlit :=
  { sb := if map = 0x80 then 0xDFF3600000000500 else 0x8BF5600000000500, body := BitVec.ofNat 1024 (256 * map) }
def stripes7 : Port := { upPort with rxStripe := [0x80, 0, 0, 0] }
def stripes67 : Port := { upPort with rxStripe := [0xC0, 0, 0, 0], rxHeld := [(6, marker0 0xC0)], stripeDue := [some 0xC0, none, none, none] }
set_option maxRecDepth 20000 in
/-- Their CRCs were worked out from R338's polynomial, outside the model. -/
theorem witness_stripe_marker : ∀ m ∈ [0x80, 0xC0], fld (marker0 m).sb 48 16 = (glCrc (marker0 m).sb (marker0 m).body).toNat ∧
    glSeq (marker0 m) = 0 ∧ bitOf (marker0 m).sb 35 = false ∧ isMarker 0 (marker0 m) = true ∧ fld (marker0 m).body 8 8 = m := by decide +kernel
theorem witness_stripe_turns : stripes7.inService 7 = true ∧ stripes7.mode = .up ∧ (stripes7.lane 7).seqIn = 0 ∧ stripes7.peerStripe 0 = [7] ∧
    stripes7.stripeDue.length = 4 ∧ stripes7.rxHeld = [] ∧ (∀ k ∈ [0, 1, 2, 3], stripes7.stripeDue.getD k none = none) ∧
    stripes67.peerStripe 0 = [6, 7] ∧ stripes67.stripeDue.getD 0 none = some 0xC0 ∧ stripes67.inService 6 = true ∧
    (stripes67.rxHeld.map (·.1)).Nodup ∧ ({ upPort with stripeFlits := true } : Port).stripeFlits = true := by decide +kernel

/-- Every TAG carries a read of the loom's or the steward's, and one more waits. -/
def taggedOut : List (Option (BitVec 12) × Out) := (List.range 4096).map fun k => (some (BitVec.ofNat 12 k), Out.stewardRd none 0 1)
theorem witness_no_tag_free : ({ cachePort with loomReqs := taggedOut ++ [(none, .stewardRd none 0 1)] } : Port).tagged = 4096 ∧
    (taggedOut ++ [(none, Out.stewardRd none 0 1)]).find? (fun e => e.1.isNone) = some (none, .stewardRd none 0 1) := by
  have h1 : taggedOut.length = 4096 := by rw [taggedOut, List.length_map, List.length_range]
  have h2 : ∀ e ∈ taggedOut, e.1.isSome = true := by
    intro e he
    obtain ⟨k, -, rfl⟩ := List.mem_map.1 he
    rfl
  constructor
  · simp only [Port.tagged, List.filter_append, List.length_append, List.filter_eq_self.2 h2, h1]
    rfl
  · rw [List.find?_append, List.find?_eq_none.2 (by
      intro e he h
      have h2' := h2 e he
      rw [Option.isNone_iff_eq_none.1 h] at h2'
      cases h2')]
    rfl
theorem witness_not_served : cachePort.served on.steward hdr none = false ∧ cachePort.tagged < 4096 ∧
    (∀ e ∈ cachePort.loomReqs, e.1.isSome = true) ∧
    ({ cachePort with reqs := [{ fillReq with addr := 0x100000001200 }] } : Port).filling (0x100000001200 / 512) 5 =
      some { fillReq with addr := 0x100000001200 } := by decide +kernel
theorem witness_stream_commits : Ctx.reset.commits = [] ∧ (live0.commits = []) := by decide
/-- A remote write to a bank that is waking. -/
theorem witness_write_waits : (tile0.setReg Reg.SP_PWR_STATE 0x8000).inService 4095 = false ∧
    (tile0.setReg Reg.SP_PWR_STATE 0x8000).holdsEng 3 = false := by decide
theorem witness_row_waits : ∃ e, (expecting true).sp.inX = [e] ∧ e.ok = true ∧
    ((expecting true).setReg Reg.SP_PWR_STATE 0x8000).inService dataRow.row.toNat = false := ⟨_, rfl, by decide, by decide⟩

def reporting : State := bringing tile0 (.tile 60) (.att 1) (.ctrl (.errors [0, 1, 0, 0, 0, 2]))
theorem witness_report_packet : reporting.net.find? (fun p => decide (p.src = .tile 60) && p.body.errors.isSome && reporting.mayTake p) =
      some { src := .tile 60, dst := .att 1, cls := 0, flits := 1, body := .ctrl (.errors [0, 1, 0, 0, 0, 2]), whole := true } ∧
    (PktBody.ctrl (.errors [0, 1, 0, 0, 0, 2])).errors = some [0, 1, 0, 0, 0, 2] ∧
    on.net.find? (fun p => decide (p.src = .tile 60) && p.body.errors.isSome && on.mayTake p) = none := by decide
/-- Port 41 lies at a site of the west edge or another; its tile has lost the link on its east. -/
def portLink : Tile := { tile0 with router := { tile0.router with linkFaults := [1] } }
theorem witness_link_fault : isPortSite (siteOfPort 41).val = true ∧ portLink.router.linkFaults = 1 :: [] ∧
    (∃ m, stepSide (siteOfPort 41) 1 = some m ∧ on.steward.site m.val = 1 ∧ (on.tile m).hemmed = false) ∧ isPortSite (60 : Site).val = false :=
  ⟨by decide, rfl, ⟨_, rfl, by decide, by decide⟩, by decide⟩

def anaGood : AnaTest := { cycles := 36000, mcycle := 36000, temp := 0, refErr := 10, voltErr := -100 }
theorem witness_slice_results : testFits 0 .fail = true ∧ testFits 0x21 .fail = false ∧ testFits 0x21 (.ana anaGood) = true ∧
    on.settleTest 60 (.ana anaGood) = .pass ∧ on.settleTest 60 (.ana { anaGood with refErr := 11 }) = .fail ∧ on.settleTest 60 .fail = .fail ∧
    on.condOk 60 { vcore := 7275, vsram := 7275, clock := 1200 } = true ∧ on.condOk 60 { vcore := 7274, vsram := 7500, clock := 2200 } = false := by
  decide +kernel
/-- The records of the saved part are missing, or the tile sleeps. -/
theorem witness_slice_restore : sliceParts 6 = [1] ∧ slicedTile.partsOk [1] [] = false ∧ slicedTile.asleep = false ∧
    ({ tile0 with asleep := true } : Tile).asleep = true := by decide +kernel

theorem witness_boundary_pads : padAt [(55297, true), (55298, true)] 55297 = true ∧ padAt [(55297, true), (55298, true)] 55298 = true ∧
    State.reset.inReset = true ∧ padAt [] 55298 = false := by decide
theorem witness_test_gate : ({ Steward.reset.fuses with mfgtest := false } : Fuses).mfgtest = false ∧ bitOf ((Steward.reset.setReg Reg.ST_PROT 8).reg Reg.ST_PROT) 3 = true := by decide
theorem witness_image_slots : boot2.fwManifest.length = 2 ∧ (mailing (request 2 1 0)).mbox.length = 4 ∧ numAt (request 2 1 0) 12 4 = 1 ∧
    numAt (request 2 1 3) 16 4 % 4 ≠ 0 ∧ numAt (request 2 1 0) 16 4 % 4 = 0 := by decide +kernel

/-! ## Well-formedness: one ill-formed command for each check -/

def upset (w : Nat) : Upset := { word := w, kind := .ce }
theorem test_ill_sp_word : (Instr.fill 60 { sp := [upset 262144] }).wf = false ∧ (Instr.fill 60 { sp := [upset 262143] }).wf = true := by decide
theorem test_ill_la_word : (Instr.drain 60 { la := [upset 20480] }).wf = false ∧ (Instr.drain 60 { la := [upset 20479] }).wf = true := by decide
theorem test_ill_boot_directory : (Instr.firmwareLoad { dir3 with dir := [0] }).wf = false := by decide +kernel
theorem test_ill_scan_record : (Instr.scanIn 60 0 [[0, 0, 0]]).wf = false ∧ (Instr.scanIn 60 0 [[0, 0, 0, 0]]).wf = true := by decide
theorem test_ill_pattern_record : (Instr.patternRecord 60 []).wf = false ∧ (Instr.patternEndRecord 60 [1, 2, 3]).wf = false := by decide
theorem test_ill_transfer : (Instr.incomingTransfer 60 (transfer 0 0)).wf = false ∧ (Instr.incomingTransfer 60 (transfer 0 4096)).wf = true ∧
    (Instr.incomingTransfer 60 (transfer 0 4097)).wf = false := by decide
theorem test_ill_row : (Instr.dataRowWrite 60 dataRow {}).wf = true ∧ (Instr.dataRowWrite 60 { dataRow with data := [1, 2] } {}).wf = false ∧
    (Instr.dataRowWrite 60 { dataRow with data := [] } {}).wf = false := by decide
theorem test_ill_warp_word : (Instr.warpWordHold 60 { warpWord with crossed := 6 }).wf = false ∧ (Instr.warpWordHold 60 warpWord).wf = true := by
  decide
theorem test_ill_queue_code : (Instr.tokenArrive 60 5 0 0 (.loom 0 0)).wf = false ∧ (Instr.creditArrive 60 12 0 1 0).wf = false ∧
    (Instr.headTokenDrop 60 11 4).wf = true := by decide
theorem test_ill_image_word : (Instr.activeImageCheck 60 [{ group := 6, word := 4, bits := 1 }]).wf = false := by decide
theorem test_ill_port_tests : (Instr.portTrainEnd 0 0 []).wf = false ∧ (Instr.k2Flit 0 0 []).wf = false ∧ (Instr.k2Deliver 0 1 0 []).wf = false := by
  decide
theorem test_ill_reach_lengths : (Instr.preq 0 60 hdr [] []).wf = false ∧ (Instr.rwr 60 0 hdr [1] false).wf = false ∧
    (Instr.rrd 60 0 { hdr with addr := 511, len := 1 } {}).wf = false := by decide
theorem test_ill_answers : (Instr.gdata 60 0 1 [1] []).wf = false ∧ (Instr.gdata 60 0 0 [] []).wf = false ∧
    (Instr.rrsp 0 0 0 (List.replicate 513 0) false).wf = false ∧ (Instr.contextRecord 0 0 (List.replicate 65 0) false).wf = false ∧
    (Instr.darnEntryRead 0 [] false).wf = false ∧ (Instr.darnImageRead 1 [0] false).wf = false := by decide +kernel
theorem test_ill_incoming : (Instr.incomingWr 0 0 0 false [] []).wf = false ∧ (Instr.dwr 0 0 0 []).wf = false := by decide
theorem test_ill_tap : (Instr.samplePreload ⟨[], [(55333, true)]⟩).wf = false ∧ (Instr.samplePreload ⟨[(55333, true)], []⟩).wf = false ∧
    (Instr.extest ⟨[], [(55332, true)]⟩).wf = true ∧ (Instr.bypass ⟨0x20, []⟩).wf = false ∧ (Instr.bypass ⟨0x21, []⟩).wf = true := by decide
theorem test_ill_mailbox : (Instr.mailboxPoll []).wf = false ∧ (Instr.fwloadDone 0 [] []).wf = false ∧
    (Instr.regwr 0 (List.replicate 2033 0)).wf = false := by decide +kernel

/-! ## The spec's own examples -/

/-- The example under R22: site (25,24) is 1,177, lies in field F1, and its home port is 54, three hops away. -/
theorem test_site_example : 24 * 48 + 25 = 1177 ∧ fieldOf 1177 = 1 ∧ homePort 1177 = 54 ∧ siteDist 1177 (siteOfPort 54).val = 3 := by decide
/-- R302: the CRC-32C of "123456789". -/
theorem test_crc32c : crc32c [0x31, 0x32, 0x33, 0x34, 0x35, 0x36, 0x37, 0x38, 0x39] = 0xE3069283#32 := by decide +kernel
/-- R338: the CRC-16 of "123456789". -/
theorem test_crc16 : crc16Bits (0x313233343536373839#72) 72 0xFFFF#16 = 0x29B1#16 := by decide +kernel
/-- The example under R50: 1 + 0.375 * 2^-7 to BF16, draws 0xB3C1 and 0x21F0. -/
theorem test_stochastic_rounding : (encodeElem 2 (some 0xB3C1) (.fin 1027 (-10))).code = 0x3F81 ∧
    (encodeElem 2 (some 0x21F0) (.fin 1027 (-10))).code = 0x3F80 := by decide +kernel
/-- The example under R59, by the binary32 codes of 15.5, 13.7, 0.02, -3.3 and 0.0001. -/
def packed : Block := packBlock 5 [] (([0x41780000, 0x415B3333, 0x3CA3D70A, 0xC0533333, 0x38D1B717].map fp32) ++ List.replicate 27 .zero)
theorem test_pack_example : packed.scale = 0x7A ∧ packed.codes.take 6 = [0x7E, 0x7E, 0x32, 0xED, 0x02, 0] ∧ packed.sat = true ∧
    packed.nanBlk = false := by decide +kernel
/-- The example of the matrix unit: E4M3 by E2M1, row scale 0x7C, column scale 0x81. -/
theorem test_column_pass : colPass 5 9 0x7C 0x81
    [((decodeElem 5 0x3C, false), (decodeElem 9 0x5, false)), ((decodeElem 5 0xA8, false), (decodeElem 9 0x7, false)),
     ((decodeElem 5 0x01, false), (decodeElem 9 0x1, false))] = { tag := 0, lsb := -11, sum := 3073, poison := false } := by decide +kernel
/-- The example of the long accumulator: -1.5, the edge word above, a BF16 product, and the two drains. -/
def example197 : LaElem := (((LaElem.zero.addVal (decodeElem 2 0xBFC0)).addVal (.fin 3073 (-11))).addVal (.fin (2 ^ 14) (-143)))
theorem test_accumulator_example : (encodeElem 1 none example197.val).code = 0x3A000000 ∧
    (encodeElem 1 none (fuse 1 example197.val (fp32 0xBA000000))).code = 0x00100000 ∧
    (encodeElem 2 none (fuse 1 example197.val (fp32 0xBA000000))).code = 0x0010 := by decide +kernel
/-- The example of R198: BK.ISSUE with rd = x10, rs1 = x11, rs2 = x12 to the vector chain. -/
theorem test_bk_issue_encoding : bkDecode 0x04C5850B = some 0 ∧ unitOfCode (fld (0x04C5850B : Word) 25 3) = some .vc ∧
    fld (0x04C5850B : Word) 7 5 = 10 ∧ fld (0x04C5850B : Word) 15 5 = 11 ∧ fld (0x04C5850B : Word) 20 5 = 12 := by decide
/-- The example under R350: from (10,30) to (40,12) around the fenced (18,30), 50 hops. -/
theorem test_detour_example : (weftPath (Steward.reset.setSite (30 * 48 + 18) 0).off (30 * 48 + 10) (12 * 48 + 40)).map List.length = some 50 := by
  decide +kernel
/-- The example of the spools: BASE 3,840, SIZE 64, HEAD 40, TAIL 56. -/
def spool5 : Tile :=
  { tile0 with groups := [(3, { GroupSt.reset with active := [(62, 0xC0400F00)] })]
               sp := { tile0.sp with spools := [(5, { Spool.reset with head := 40, tail := 56 })] } }
theorem test_spool_example : spool5.spoolCount 5 = 16 ∧ ((spool5.incoming true (transfer 3896 16)).spool 5).rsv = 16 ∧
    ((spool5.spoolAdvance 5 false 16).1.spool 5).head = 56 ∧ (spool5.spoolAdvance 5 false 16).2 = true ∧
    (spool5.spoolAdvance 5 false 17).2 = false := by decide +kernel

/-! ## One step each -/

def after (c : Instr) (s : State) : State :=
  match exec c s with
  | .next t => t
  | _ => s
/-- FILL of the last row writes its word from the first byte on (R214). -/
theorem test_fill : ((after (.fill 60 {}) (onTile (queued .sp fillCmd.words))).tile 60).spByte 4095 3 = 0xA5 ∧
    ((after (.fill 60 {}) (onTile (queued .sp fillCmd.words))).tile 60).spByte 4094 3 = 0 := by decide +kernel
/-- POKE of the last word of row 0 (R214). -/
theorem test_poke : ((after (.poke 60 {}) (onTile (queued .sp pokeCmd.words))).tile 60).sp.mem = [(508, 1)] := by decide +kernel
/-- DIAG of 1.0 by 1.0 in BF16: the product of the significands at element 0 (R80). -/
theorem test_diag : ((after (.diag 60 {}) (onTile (muTile diagCmd))).tile 60).mu.edges.map (fun e => (e.elem, e.tag, e.sum * 2 ^ (e.lsb + 14).toNat)) =
    [(0, 0, 2 ^ 14)] := by decide +kernel
/-- ADDI wraps at 32 bits: x1 = 0xFFFFFFFF + 1 (R190). -/
def addiTile : Tile := { coreOn 0x00108093 with core := { (coreOn 0x00108093).core with x := (List.replicate 32 0).set 1 0xFFFFFFFF } }
theorem test_addi_wraps : ((after (.rvInstruction 60 .none) (onTile addiTile)).tile 60).core.x.getD 1 5 = 0 ∧
    ((after (.rvInstruction 60 .none) (onTile addiTile)).tile 60).core.pc = 4 := by decide +kernel
/-- ECALL with HALTTRAP clear, mtvec 0x100 and MIE set: cause 11, pc and MIE saved (R197). -/
def ecallTile : Tile := ({ coreOn 0x73 with core := { (coreOn 0x73).core with mtvec := 0x100, mie := true } } : Tile).setReg Reg.TC_CFG 0
theorem test_ecall : (((after (.rvInstruction 60 .none) (onTile ecallTile)).tile 60).core.mcause,
    ((after (.rvInstruction 60 .none) (onTile ecallTile)).tile 60).core.pc, ((after (.rvInstruction 60 .none) (onTile ecallTile)).tile 60).core.mpie) =
    (11, 0x100, true) := by decide +kernel
/-- A 17th token is dropped with OVERRUN (R262). -/
theorem test_token_overrun : ((after (.tokenArrive 60 4 7 (mkToken 0 1 false 0 0) (.loom 0 0)) (onTile (full 16))).tile 60).reg Reg.TC_WV_ERR = 1 := by
  decide +kernel
/-- The identity of 1.5 in FP32 is written where it stood (R141, R154). -/
theorem test_vector_identity : ((after (.vcOperation 60 {}) (onTile { queued .vc vcCmd.words with trf := [(0, 0x3FC00000)] })).tile 60).trf =
    [(0, 0x3FC00000)] := by decide +kernel
/-- An exact zero is written as +0, whatever its sign was (R47, R148). -/
theorem test_vector_zero : ((after (.vcOperation 60 {}) (onTile { queued .vc vcCmd.words with trf := [(0, 0x80000000)] })).tile 60).trf = [] := by
  decide +kernel
/-- PUT moves one element from row 8 to row 16 (R216, R217). -/
def putTile : Tile := { queued .sh [0x31110000, 0x00800000, 0x400, 0x01000000, 0, 0] with sp := { tile0.sp with mem := [(4099, 0x5A), (4100, 1)] } }
theorem test_put : ((after (.put 60 {}) (onTile putTile)).tile 60).sp.mem = [(4099, 0x5A), (4100, 1), (8195, 0x5A)] := by decide +kernel
/-- DOORBELL of a running stream (R434). -/
theorem test_doorbell : ((after (.doorbell 0 7) fetching).ctx 0).pidx = 7 ∧ ((after (.doorbell 0 13) fetching).ctx 0).errs = 1 := by decide +kernel
/-- NOP writes its status word at 56 B into its slot (R441). -/
theorem test_nop : ((after (.nop 0) (serving nopDesc)).out.head?) = some (.loomWr none 0 56 [0, 0, 0, 0, 0, 0, 0, 0x80]) := by decide +kernel
/-- IDCODE shifts out 0x24B3356F, least significant bit first (R552). -/
theorem test_idcode : (after .idcode on).out = [.tdo (bitsOf 0x24B3356F#32)] := by decide +kernel
/-- A restart raises ALIVE and waits for the PLL's lock (R386, R387). -/
theorem test_port_restart : ((after (.portRestart 0) on).port 0).mode = .lock ∧ ((after (.portRestart 0) on).port 0).aliveOut = true := by
  decide +kernel
/-- THERMAL_SAMPLE at 115 degrees drives THERMTRIPn and throttles (R547). -/
theorem test_thermtrip : (after (.thermalSample 60 { temp := 115, vmon := 0, freq := 0 }) on).out = [.thermtrip] ∧
    ((after (.thermalSample 60 { temp := 115, vmon := 0, freq := 0 }) on).tile 60).thermThr = 4 := by decide +kernel
/-- A FAULT is logged as entry 0 (R488). -/
theorem test_fault_log : (after (.fault 60 { code := 5, unit := 4, reg := 9, us := 0 }) on).steward.flog.map (fun e => (e.id, e.code, e.reg)) =
    [(0, 5, 9)] := by decide +kernel
/-- STITCH_OPEN of an idle tile (R306). -/
theorem test_stitch_open : ((after (.stitchOpen 60 7 1) on).tile 60).stitch.mode = .loading := by decide +kernel
/-- A step takes the front command and leaves the rest. -/
theorem test_step_queue : (match step { on with pending := [.idcode, .wsp] } with | .next t => t.pending | _ => []) = [.wsp] := by decide +kernel

end Sys2Proof.Tests
end

/-! ## What a command leaves of the queue -/

namespace Sys2Proof.Machine

@[simp] theorem State.tapBypass_pending (s : State) (bits : List Bool) : (s.tapBypass bits).pending = s.pending := by
  unfold State.tapBypass
  split <;> rfl

/-- The commands that act in reset or on the TAP alone leave the queue. -/
theorem exec_special_pending (c : Instr) (h : Instr.special c = true) (s : State) :
    ∃ t, exec c s = .next t ∧ t.pending = s.pending := by
  cases c
  case resetRelease => exact ⟨_, rfl, by split <;> rfl⟩
  case resetAssert => exact ⟨_, rfl, by split <;> rfl⟩
  case idcode => exact ⟨_, rfl, rfl⟩
  case samplePreload => exact ⟨_, rfl, by split <;> simp⟩
  case extest => exact ⟨_, rfl, by split <;> simp⟩
  case sitesel => exact ⟨_, rfl, by split <;> simp⟩
  case wsp => exact ⟨_, rfl, by split <;> simp⟩
  case fuserd => exact ⟨_, rfl, rfl⟩
  case bypass => exact ⟨_, rfl, by split <;> simp⟩
  all_goals exact Bool.noConfusion h

/-- So does every change of a running chiplet. -/
theorem live_pending (s : State) (f : State → State) : ∃ t, live s f = .next t ∧ t.pending = s.pending :=
  ⟨_, rfl, by split <;> rfl⟩

/-- Settles O2, by the two kinds of commands: those that change a running chiplet, and those that act in reset or on the TAP. -/
theorem everyCommandLeavesTheQueue : Obligations.EveryCommandLeavesTheQueue := by
  intro c s
  cases hc : Instr.special c
  case true => exact exec_special_pending c hc s
  case false =>
    obtain ⟨f, hf⟩ := exec_live c hc
    rw [hf s]
    exact live_pending s f

end Sys2Proof.Machine


/-! ## What a tile cycle leaves of the queue and the count of cycles -/

namespace Sys2Proof.Machine

/-- The waiting commands and the count of tile cycles: what neither the loom nor the weft changes. -/
def State.clock (s : State) : List Instr × Nat := (s.pending, s.cycles)

/-- What every step of a fold keeps, the fold keeps. -/
theorem foldl_keeps {α β γ : Type} (p : β → γ) {f : β → α → β} (hf : ∀ b x, p (f b x) = p b) (l : List α) (b : β) :
    p (l.foldl f b) = p b := by
  induction l generalizing b with
  | nil => rfl
  | cons x xs ih => exact (ih (f b x)).trans (hf b x)

@[simp] theorem State.onTile_clock (s : State) (n : Site) (f : Tile → Tile) : (s.onTile n f).clock = s.clock := rfl
@[simp] theorem State.setPort_clock (s : State) (n : PortIx) (p : Port) : (s.setPort n p).clock = s.clock := rfl
@[simp] theorem State.onPort_clock (s : State) (n : PortIx) (f : Port → Port) : (s.onPort n f).clock = s.clock := rfl
@[simp] theorem State.onSteward_clock (s : State) (f : Steward → Steward) : (s.onSteward f).clock = s.clock := rfl
@[simp] theorem State.setCtx_clock (s : State) (n : StreamNo) (c : Ctx) : (s.setCtx n c).clock = s.clock := rfl
@[simp] theorem State.onCtx_clock (s : State) (n : StreamNo) (f : Ctx → Ctx) : (s.onCtx n f).clock = s.clock := rfl
@[simp] theorem State.send_clock (s : State) (o : List Out) : (s.send o).clock = s.clock := rfl
@[simp] theorem State.refuseLoom_clock (s : State) (ix : PortIx) : (s.refuseLoom ix).clock = s.clock := rfl
@[simp] theorem State.unready_clock (s : State) (n : StreamNo) : (s.unready n).clock = s.clock := rfl

@[simp] theorem State.onTiles_clock (s : State) (l : List Site) (f : Site → Tile → Tile) : (s.onTiles l f).clock = s.clock :=
  foldl_keeps State.clock (fun s n => s.onTile_clock n (f n)) l s

/-! ### Ports -/

@[simp] theorem State.pumpPort_clock (s : State) (ix : PortIx) : (s.pumpPort ix).clock = s.clock := rfl
@[simp] theorem State.portLine_clock (s : State) (ix : PortIx) (o : Out) (tag : BitVec 12) (rank : Nat) :
    (s.portLine ix o tag rank).clock = s.clock := by simp [State.portLine]

@[simp] theorem State.startOwn_clock (s : State) (ix : PortIx) : (s.startOwn ix).clock = s.clock := by
  unfold State.startOwn
  dsimp only
  repeat' split
  all_goals simp

@[simp] theorem State.portSend_clock (s : State) (ix : PortIx) (o : Out) (rank : Nat) : (s.portSend ix o rank).clock = s.clock := by
  unfold State.portSend
  split <;> simp [State.ownSend]

@[simp] theorem State.pickDiscovery_clock (s : State) : s.pickDiscovery.clock = s.clock := by
  unfold State.pickDiscovery
  dsimp only
  repeat' split
  all_goals simp

@[simp] theorem State.portDown_clock (s : State) (ix : PortIx) : (s.portDown ix).clock = s.clock := by
  unfold State.portDown
  split <;> simp

/-! ### Changes of site states -/

@[simp] theorem State.routerOff_clock (s : State) (n : Site) : (s.routerOff n).clock = s.clock := by
  unfold State.routerOff
  dsimp only
  split
  · rw [State.portDown_clock]
    exact foldl_keeps State.clock (fun s side => by split <;> rfl) [0, 1, 2, 3] _
  · exact foldl_keeps State.clock (fun s side => by split <;> rfl) [0, 1, 2, 3] _

@[simp] theorem State.routerUp_clock (s : State) (n : Site) : (s.routerUp n).clock = s.clock := by
  unfold State.routerUp
  dsimp only
  split <;> simp

@[simp] theorem State.applySites_clock (s : State) (l : List (Site × BitVec 2)) : (s.applySites l).clock = s.clock := by
  unfold State.applySites
  dsimp only
  split
  · rfl
  · refine (foldl_keeps State.clock (fun (s : State) (e : Site × BitVec 2) => s.routerUp_clock e.1) _ _).trans ?_
    exact foldl_keeps State.clock (fun (s : State) (e : Site × BitVec 2) => s.routerOff_clock e.1) _ _

@[simp] theorem State.clearDarn_clock (s : State) (f : Site) : (s.clearDarn f).clock = s.clock := by simp [State.clearDarn]

/-! ### The loom's answers -/

@[simp] theorem State.loomSend_clock (s : State) (n : StreamNo) (mk : Option PortIx → Out) : (s.loomSend n mk).clock = s.clock := by
  unfold State.loomSend
  split <;> simp

@[simp] theorem State.tellState_clock (s : State) (n : StreamNo) (cause cls : Nat) : (s.tellState n cause cls).clock = s.clock :=
  s.loomSend_clock n _

@[simp] theorem State.ready_clock (s : State) (n : StreamNo) : (s.ready n).clock = s.clock := by
  unfold State.ready
  split <;> rfl

@[simp] theorem State.wakeStream_clock (s : State) (n : StreamNo) : (s.wakeStream n).clock = s.clock := by simp [State.wakeStream]

@[simp] theorem State.haltStream_clock (s : State) (n : StreamNo) (cause cls : Nat) : (s.haltStream n cause cls).clock = s.clock := by
  unfold State.haltStream
  split <;> simp

@[simp] theorem State.streamErr_clock (s : State) (n : StreamNo) (cls : Nat) : (s.streamErr n cls).clock = s.clock := by
  unfold State.streamErr
  dsimp only
  split <;> simp

@[simp] theorem State.complete_clock (s : State) (n : StreamNo) (d : Desc) (status info : Nat) :
    (s.complete n d status info).clock = s.clock := by simp [State.complete]

@[simp] theorem State.stitchAbort_clock (s : State) (n : StreamNo) (d : Desc) (status : Nat) :
    (s.stitchAbort n d status).clock = s.clock := by simp [State.stitchAbort]

@[simp] theorem State.commitReleased_clock (s : State) (n : StreamNo) : (s.commitReleased n).clock = s.clock := by
  unfold State.commitReleased
  dsimp only
  split
  · rfl
  · rw [foldl_keeps State.clock State.clearDarn_clock]
    simp

/-- A descriptor whose list could not be read ends at once. -/
theorem State.stepOp_clock_of_listErr (s : State) (n : StreamNo) (d : Desc) (h : d.listErr = true) :
    (s.stepOp n d).clock = s.clock := by
  rw [State.stepOp, if_pos h]
  split <;> simp

theorem State.writtenBack_clock (s : State) (n : StreamNo) (ok : Bool) : (s.writtenBack n ok).clock = s.clock := by
  unfold State.writtenBack
  dsimp only
  repeat' split
  all_goals simp

theorem State.fetched_clock (s : State) (n : StreamNo) (ok : Bool) (data : List Byte) : (s.fetched n ok data).clock = s.clock := by
  unfold State.fetched
  dsimp only
  repeat' split
  all_goals simp

theorem State.contextIn_clock (s : State) (n : StreamNo) (ok : Bool) (data : List Byte) : (s.contextIn n ok data).clock = s.clock := by
  unfold State.contextIn
  dsimp only
  repeat' split
  all_goals simp

theorem State.listRead_clock (s : State) (n : StreamNo) (ok : Bool) (data : List Byte) : (s.listRead n ok data).clock = s.clock := by
  unfold State.listRead
  dsimp only
  repeat' split
  all_goals simp [State.stepOp_clock_of_listErr]

/-- The loom's handling of a refused request leaves the queue and the count of cycles. -/
theorem State.loomRefused_clock (s : State) (o : Out) : (s.loomRefused o).clock = s.clock := by
  unfold State.loomRefused
  repeat' split
  case h_1 => exact s.writtenBack_clock _ _
  all_goals simp [State.fetched_clock, State.listRead_clock, State.contextIn_clock]

theorem State.takeRefusals_clock (s : State) : s.takeRefusals.clock = s.clock :=
  foldl_keeps State.clock State.loomRefused_clock _ _

theorem State.takeRefusals_of_none (s : State) (h : s.loom.refused = []) : s.takeRefusals = s := by
  unfold State.takeRefusals
  rw [h]
  change { s with loom := { s.loom with refused := [] } } = s
  rw [← h]

/-! ### The weft -/

/-- The state without its tiles and the packets on the weft: what the weft's cycles leave as it is. -/
def State.offWeft (s : State) : State := { s with tiles := [], net := [] }

theorem State.eq_of_offWeft {s t : State} (h : t.offWeft = s.offWeft) : t = { s with tiles := t.tiles, net := t.net } := by
  cases s
  cases t
  simpa [State.offWeft] using h

theorem State.clock_of_offWeft {s t : State} (h : t.offWeft = s.offWeft) : t.clock = s.clock := 
  show t.offWeft.clock = s.offWeft.clock from congrArg State.clock h

@[simp] theorem State.onTile_offWeft (s : State) (n : Site) (f : Tile → Tile) : (s.onTile n f).offWeft = s.offWeft := rfl
@[simp] theorem State.setTile_offWeft (s : State) (n : Site) (x : Tile) : (s.setTile n x).offWeft = s.offWeft := rfl
@[simp] theorem State.deliver_offWeft (s : State) (p : Pkt → Bool) : (s.deliver p).offWeft = s.offWeft := rfl
@[simp] theorem State.arrived_offWeft (s : State) (n : Site) (q : Pkt) : (s.arrived n q).offWeft = s.offWeft := rfl
@[simp] theorem State.takeFlit_offWeft (s : State) (n m : Site) (b : BufFlit) : (s.takeFlit n m b).offWeft = s.offWeft := rfl

@[simp] theorem State.onTiles_offWeft (s : State) (l : List Site) (f : Site → Tile → Tile) : (s.onTiles l f).offWeft = s.offWeft :=
  foldl_keeps State.offWeft (fun s n => s.onTile_offWeft n (f n)) l s

@[simp] theorem State.linkCycle_offWeft (s : State) (n : Site) : (s.linkCycle n).offWeft = s.offWeft := by
  unfold State.linkCycle
  split
  · rfl
  · refine foldl_keeps State.offWeft (fun s o => ?_) _ s
    dsimp only
    repeat' split
    all_goals simp

@[simp] theorem State.output_offWeft (s : State) (n : Site) (o : Nat) : (s.output n o).offWeft = s.offWeft := by
  unfold State.output
  dsimp only
  repeat' split
  all_goals simp

@[simp] theorem State.retire_offWeft (s : State) (n : Site) (side v : Nat) (lane : Bool) :
    (s.retire n side v lane).offWeft = s.offWeft := by
  unfold State.retire
  dsimp only
  split <;> simp

@[simp] theorem State.releaseIn_offWeft (s : State) (n : Site) (m : StreamNo) : (s.releaseIn n m).offWeft = s.offWeft := by
  unfold State.releaseIn
  split
  · simp [State.startScrub]
  · rfl

@[simp] theorem State.takeRelease_offWeft (s : State) (n : Site) : (s.takeRelease n).offWeft = s.offWeft := by
  unfold State.takeRelease
  repeat' split
  all_goals simp

@[simp] theorem State.routerCycle_offWeft (s : State) (n : Site) : (s.routerCycle n).offWeft = s.offWeft := by
  unfold State.routerCycle
  split
  · rfl
  · dsimp only
    rw [State.takeRelease_offWeft, foldl_keeps State.offWeft (fun s (e : Nat × Nat × Bool) => s.retire_offWeft n e.1 e.2.1 e.2.2),
      foldl_keeps State.offWeft (fun s o => s.output_offWeft n o), State.onTile_offWeft]

theorem State.weftCycle_offWeft (s : State) : s.weftCycle.offWeft = s.offWeft :=
  (foldl_keeps State.offWeft State.routerCycle_offWeft _ _).trans (foldl_keeps State.offWeft State.linkCycle_offWeft _ s)

/-! ### A tile cycle -/

/-- A tile cycle with nothing commanded, before the loom and the weft have theirs. -/
def State.tileCycles (s : State) : State :=
  { s with cycles := s.cycles + 1 }.onTiles (s.sitesWhere fun t => !t.asleep) fun n t => t.cycle (s.cycleOf n)

theorem State.tileCycles_offWeft (s : State) : s.tileCycles.offWeft = { s with cycles := s.cycles + 1 }.offWeft :=
  State.onTiles_offWeft _ _ _

theorem tick_of_live (s : State) (h : s.inReset = false) : tick s = s.tileCycles.takeRefusals.weftCycle := by
  rw [tick, if_neg (by simp [h])]
  rfl

theorem tick_clock (s : State) (h : s.inReset = false) : (tick s).clock = (s.pending, s.cycles + 1) := by
  rw [tick_of_live s h, State.clock_of_offWeft (State.weftCycle_offWeft _), State.takeRefusals_clock,
    State.clock_of_offWeft s.tileCycles_offWeft]
  rfl

/-- While no refusal waits for the loom, a tile cycle changes the count, the tiles and the packets on the weft alone. -/
theorem tick_offWeft (s : State) (h : s.inReset = false) (hr : s.loom.refused = []) :
    (tick s).offWeft = { s with cycles := s.cycles + 1 }.offWeft := by
  have hl : s.tileCycles.loom.refused = [] :=
    (congrArg (fun t : State => t.loom.refused) s.tileCycles_offWeft).trans hr
  rw [tick_of_live s h, State.takeRefusals_of_none _ hl, State.weftCycle_offWeft, s.tileCycles_offWeft]

/-- Settles O1: the front command is what `step` matches on; for the empty queue, what each part of `tick` leaves as it was. -/
theorem stepRunsFrontCommand : Obligations.StepRunsFrontCommand := by
  refine ⟨fun c s => rfl, fun s hp => ⟨tick s, by rw [step, hp], fun hr => by rw [tick, if_pos hr], fun hr => ?_⟩⟩
  obtain ⟨hpend, hcyc⟩ := Prod.mk.inj (tick_clock s hr)
  refine ⟨hcyc, hpend.trans hp, fun hn => ?_⟩
  have hw := State.eq_of_offWeft (tick_offWeft s hr hn)
  rw [hcyc]
  exact hw

end Sys2Proof.Machine


/-! ## A steering unit whose destination holds the reserved PATH 3 (R289, R14; assumption 81) -/

namespace Sys2Proof.Machine

/-- A token of weave epoch 0 that the loom has sent. -/
def loomToken (kind payload : Nat) : QTok := ⟨mkToken 0 kind false 0 payload, .loom 0 0⟩

/-- Steering unit 0 in PAIR mode over two data queues, ready to fire, with PATH 3 in the destinations of both ports. -/
def reservedPathTile : Tile :=
  { Tile.reset with
    groups := [(5, { GroupSt.reset with active := [(0, 0x90000000), (4, 0xC0430010), (5, 0xC0430010)] })]
    queues := [(64, { Queue.reset with toks := [loomToken 3 0] }), (65, { Queue.reset with toks := [loomToken 1 4] }),
      (66, { Queue.reset with toks := [loomToken 1 5] })]
    ports := [(32, { PortSt.reset with credits := 1 })] }

/-- A running chiplet with that tile at site 60. -/
def reservedPathChip : State := { State.reset with inReset := false, tiles := [(60, reservedPathTile)] }

/-- What holds of every listed value and of those that unlisted keys read as holds of what any key reads as. -/
theorem Map.get_of_forall {α : Type} {p : α → Prop} {d : Nat → α} {m : Map α} (hm : ∀ e ∈ m, p e.2) (hd : ∀ k, p (d k))
    (k : Nat) : p (Map.get d m k) := by
  induction m with
  | nil => exact hd k
  | cons e m ih =>
    rw [Map.get_cons]
    split
    · exact hm e List.mem_cons_self
    · exact ih fun e he => hm e (List.mem_cons_of_mem _ he)

/-- Nothing of the tile's tokens has been spilled. -/
theorem reservedPathTile_unspilled (q : Nat) :
    (reservedPathTile.queue 8 q).spills = [] ∧ (reservedPathTile.queue 8 q).back = [] :=
  Map.get_of_forall (p := fun x : Queue => x.spills = [] ∧ x.back = []) (by decide) (fun _ => ⟨rfl, rfl⟩) (8 * 8 + q)

/-- The firing forwards nothing: what stands at the tile afterwards are the credits of the tokens it took. -/
theorem reservedPath_sends_no_token :
    ((reservedPathTile.pairFire (reservedPathChip.env 60) 0).outq.all fun p => p.body.kind != 3) = true := by decide +kernel

theorem reservedPath_fires : exec (.steerPairFire 60 0) reservedPathChip =
    .next (reservedPathChip.onTile 60 fun t => t.pairFire (reservedPathChip.env 60) 0) := by
  rw [exec, execSteerPairFire, live_out _ _ rfl, State.onUnits, if_pos (by decide), leaves_onTile _ _ _ rfl]
  rfl

/-- Refutes O30: the statement asks of the destinations only that PATH is at least 2, and with PATH 3, which only a pattern record can
store, a unit that meets every hypothesis takes its tokens and sends none (R14, R289; assumption 81). -/
theorem not_steeringUnitsForwardTheSelectedToken : ¬ Obligations.SteeringUnitsForwardTheSelectedToken := by
  intro h
  have hpair := (h.2 reservedPathChip 60 0 (loomToken 3 0).tok (loomToken 1 4).tok ⟨3 * 48 + 1, by decide⟩ rfl (by decide) (by decide)
    (by decide) (by decide) reservedPathTile_unspilled (by decide) (by decide) (by decide) (by decide) (by decide)).1
  obtain ⟨t, ht, -, ⟨-, -, -, -, -, p, hp, -, x, y, src, hbody⟩, -⟩ := hpair (by decide) (by decide) (by decide)
  rw [reservedPath_fires, Host.Outcome.next.injEq] at ht
  rw [← ht, State.tile_onTile_same] at hp
  have hkind := List.all_eq_true.1 reservedPath_sends_no_token p hp
  simp [hbody, PktBody.kind] at hkind

end Sys2Proof.Machine


/-! # Set-up writes: the address, the tile, the steward, then the clauses of O10 -/

namespace Sys2Proof.Machine

/-! ## Where a set-up write goes (R559 to R561) -/

theorem siteOf_val (n : Site) : siteOf n.val = some n := dif_pos n.isLt

/-- The set-up address of a word of a tile space names that word. -/
theorem setupAt_tileAddr (n : Site) {o : Nat} (ho : o < 0x10000) : setupAt (tileAddr n o) = .tile n o := by
  have hsite : (tileAddr n o - 0x1000000) / 0x10000 = n.val := by unfold tileAddr; omega
  have hoff : tileAddr n o % 0x10000 = o := by unfold tileAddr; omega
  have hlo : 0x1000000 ≤ tileAddr n o := by unfold tileAddr; omega
  unfold setupAt
  rw [if_neg (by omega), if_neg (by simp; omega), if_pos hlo, hsite, siteOf_val, hoff]

theorem tileAddr_aligned (n : Site) {o : Nat} (ho : o % 4 = 0) : tileAddr n o % 4 = 0 := by
  unfold tileAddr
  omega

/-- An aligned REG_WRITE is a set-up write. -/
theorem regWrite_aligned {s : State} (src : WriteSrc) {addr : Word} (val : Word) (h : s.inReset = false) (ha : addr.toNat % 4 = 0) :
    exec (.regWrite src addr val) s = .next (s.leaves (s.setupWrite src addr.toNat val).1) := by
  rw [exec, execRegWrite, live_out _ _ h, if_pos ha]

theorem setupWrite_nowhere {s : State} (src : WriteSrc) {a : Nat} (w : Word) (h : setupAt a = .nowhere) :
    s.setupWrite src a w = (s, .unmapped) := by
  unfold State.setupWrite
  rw [h]

/-- A write of a tile space by its own core, or by any writer that is no core. -/
theorem setupWrite_tile {s : State} {src : WriteSrc} {n : Site} {o : Nat} (w : Word) (hsrc : ∀ m, src = .core m → m = n)
    (ho : o < 0x10000) (hm : tileMapped n o = true) : s.setupWrite src (tileAddr n o) w = s.writeTile src n o w := by
  unfold State.setupWrite
  rw [setupAt_tileAddr n ho]
  cases src
  case core m => simp [hsrc m rfl, hm]
  all_goals simp [hm]

/-- A write of a tile space goes to that tile, or is none. -/
theorem setupWrite_tile_or {s : State} (src : WriteSrc) (n : Site) {o : Nat} (w : Word) (ho : o < 0x10000) :
    (s.setupWrite src (tileAddr n o) w).1 = (s.writeTile src n o w).1 ∨ (s.setupWrite src (tileAddr n o) w).1 = s := by
  unfold State.setupWrite
  rw [setupAt_tileAddr n ho]
  dsimp only
  split
  · split
    · exact .inl rfl
    · exact .inr rfl
  · split
    · exact .inl rfl
    · exact .inr rfl

theorem site_ne_zero_of_powered {s : State} {n : Site} (h : s.powered n = true) : s.steward.site n.val ≠ 0 := by
  intro h0
  simp [State.powered, h0] at h

/-- A write of a powered tile's own registers, apart from the group windows and the port block. -/
theorem writeTile_reg {s : State} (src : WriteSrc) {n : Site} {o : Nat} (w : Word) (hp : s.powered n = true) (ho : o < 0x2000)
    (hw : windowOf o = none) : s.writeTile src n o w = (s.writeTileReg src n o w, .ok) := by
  unfold State.writeTile
  rw [if_neg (by rw [hp]; simpa using site_ne_zero_of_powered hp), hw]
  exact if_neg (by omega)

/-- A write of a group window changes the tile by `Tile.writeWindow`, or nothing. -/
theorem writeTile_window {s : State} (src : WriteSrc) (n : Site) {o g k : Nat} (w : Word) (hw : windowOf o = some (g, k)) :
    (s.writeTile src n o w).1 = s.onTile n (fun t => t.writeWindow n g k w) ∨ (s.writeTile src n o w).1 = s := by
  unfold State.writeTile
  rw [hw]
  split
  · exact .inr rfl
  · exact .inl rfl

/-! ## Flags -/

theorem Tile.flagBit_groups (t : Tile) (off bit : Nat) : (t.flagBit off bit).groups = t.groups := by rw [t.flagBit_frame]

/-- A flag bit of a register that is no unit's error register. -/
theorem Tile.reg_flagBit (t : Tile) {off : Nat} (bit a : Nat) (h : isUnitErr off = false) :
    (t.flagBit off bit).reg a = if a = off then t.reg off ||| at32 1 bit else t.reg a := by
  rw [Tile.flagBit, Tile.flag, if_neg (by simp [h]), Tile.reg_setReg]

theorem bitOf_flag (w : Word) {i : Nat} (hi : i < 32) : bitOf (w ||| at32 1 i) i = true := by
  simp [bitOf_or, bitOf_at32, hi]

/-! ## Writes of a group window (R297, R573) -/

theorem groupBase_aligned : ∀ g < 8, groupBase g % 4 = 0 := by decide

theorem groupBase_end : ∀ g < 8, groupBase g + 4 * groupWords g ≤ 0x10000 := by decide

/-- Every image word of a group stands in a window. -/
theorem windowOf_isSome {g k : Nat} (hg : g < 8) (hk : k < groupWords g) : (windowOf (groupBase g + 4 * k)).isSome = true := by
  rw [windowOf, List.findSome?_isSome_iff]
  refine ⟨g, by simp; omega, ?_⟩
  rw [if_pos (by simp; omega)]
  rfl

/-- A change of a group that leaves its active image leaves every active word. -/
theorem Tile.act_setGroup (t : Tile) (g : Nat) {x : GroupSt} (hx : x.active = (t.group g).active) (j i : Nat) :
    (t.setGroup g x).act j i = t.act j i := by
  unfold Tile.act Tile.group Tile.setGroup
  rw [Map.get_set]
  split
  next hj => rw [hx, hj, Tile.group]
  next => rfl

theorem Tile.act_writeStandby (t : Tile) (g k : Nat) (mask w : Word) (j i : Nat) : (t.writeStandby g k mask w).act j i = t.act j i := by
  unfold Tile.writeStandby
  dsimp only
  split
  all_goals
    apply t.act_setGroup g
    rfl

theorem Tile.act_of_groups {t u : Tile} (h : u.groups = t.groups) (j i : Nat) : u.act j i = t.act j i := by
  unfold Tile.act Tile.group
  rw [h]

/-- A window write reaches no active slot (R297). -/
theorem Tile.act_writeWindow (t : Tile) (n : Site) (g k : Nat) (w : Word) (j i : Nat) :
    (t.writeWindow n g k w).act j i = t.act j i := by
  unfold Tile.writeWindow
  dsimp only
  rw [Tile.act_writeStandby]
  apply Tile.act_of_groups
  repeat' split
  all_goals simp [Tile.flagBit_groups]

/-! ## Registers of a tile that a set-up write changes (R10, R14) -/

/-- The error registers of a tile whose flags a written 1 clears. -/
def tileErrRegs : List Nat :=
  [Reg.TC_ERR, Reg.TC_WV_ERR, Reg.TC_EP_ERR, Reg.MU_ERR, Reg.LA_ERR, Reg.VC_ERR, Reg.SF_ERR, Reg.SP_ERR, Reg.SH_ERR, Reg.WF_ERR]

theorem tileErrRegs_place : ∀ o ∈ tileErrRegs, o < 0x2000 ∧ o % 4 = 0 ∧ windowOf o = none := by decide

theorem tileMapped_of_errReg (n : Site) {o : Nat} (ho : o ∈ tileErrRegs) : tileMapped n o = true := by
  simp only [tileErrRegs, List.mem_cons, List.not_mem_nil, or_false] at ho
  rcases ho with rfl | rfl | rfl | rfl | rfl | rfl | rfl | rfl | rfl | rfl <;> rfl

theorem writeTileReg_errReg (s : State) (src : WriteSrc) (n : Site) {o : Nat} (w : Word) (ho : o ∈ tileErrRegs) :
    s.writeTileReg src n o w = s.onTile n fun t => t.setReg o (t.reg o &&& ~~~(w &&& tileW1C o)) := by
  simp only [tileErrRegs, List.mem_cons, List.not_mem_nil, or_false] at ho
  rcases ho with rfl | rfl | rfl | rfl | rfl | rfl | rfl | rfl | rfl | rfl <;> rfl

theorem writeTileReg_wdog (s : State) (src : WriteSrc) (n : Site) (w : Word) :
    s.writeTileReg src n Reg.TC_WDOG w = s.onTile n fun t => t.writeRW Reg.TC_WDOG w := rfl

/-- A bit of a W1C register after a write (R10). -/
theorem bitOf_clear (r w m : Word) (i : Nat) : bitOf (r &&& ~~~(w &&& m)) i = (bitOf r i && !(bitOf w i && bitOf m i)) := by
  rw [bitOf_and, bitOf_not, bitOf_and]
  by_cases hi : i < 32
  · simp [hi]
  · have hr : bitOf r i = false := BitVec.getLsbD_of_ge _ _ (by omega)
    simp [hr]

/-- A field under a mask takes the written value where the mask is 1 throughout it, and stays where it is 0. -/
theorem fld_mergeMask (m old new : Word) (lo len : Nat) (b : Bool) (hm : ∀ i < len, bitOf m (lo + i) = b) (hl : lo + len ≤ 32) :
    fld (mergeMask m old new) lo len = if b then fld new lo len else fld old lo len := by
  rw [← apply_ite (fun w : Word => fld w lo len)]
  apply Nat.eq_of_testBit_eq
  intro i
  rw [testBit_fld, testBit_fld]
  by_cases hi : i < len
  · have hbit : bitOf (mergeMask m old new) (lo + i) = bitOf (if b then new else old) (lo + i) := by
      rw [mergeMask, bitOf_or, bitOf_and, bitOf_and, bitOf_not, hm i hi]
      have h32 : lo + i < 32 := by omega
      cases b <;> simp [h32]
    simp only [bitOf] at hbit
    rw [hbit]
  · simp [hi]

/-! ## The traps of a core (R197) -/

theorem Tile.reg_raise_haltCore (t : Tile) (me : Site) (code unit : Nat) (w : Word) (a : Nat) :
    (t.haltCore.raise me code unit w).reg a = t.reg a := rfl

/-- Under HALTTRAP a core halts and reports (R197). -/
theorem Tile.trapped_of_halttrap (t : Tile) (me : Site) (intr : Bool) {cause : Nat} (tval : Word) (hc : cause < 16)
    (hh : bitOf (t.reg Reg.TC_CFG) 0 = true) : t.trapped (t.trap me intr cause tval) intr cause := by
  unfold Tile.trapped Tile.trap
  rw [if_pos hh, if_pos hh, Nat.mod_eq_of_lt hc]
  refine ⟨rfl, rfl, rfl, rfl, rfl, rfl, ?_, ?_, ⟨_, List.mem_append_right _ (List.mem_singleton_self _), _, rfl, rfl, rfl⟩⟩
  · rw [Tile.reg_raise_haltCore, Tile.reg_flagBit _ _ _ rfl, if_pos rfl, bitOf_flag _ (by decide)]
  · rw [Tile.reg_raise_haltCore, Tile.reg_flagBit _ _ _ rfl, if_neg (by decide), Tile.setReg_reg_same]

/-- Without HALTTRAP it goes on at mtvec. -/
theorem Tile.trapped_of_no_halttrap (t : Tile) (me : Site) (intr : Bool) (cause : Nat) (tval : Word)
    (hh : ¬bitOf (t.reg Reg.TC_CFG) 0 = true) : t.trapped (t.trap me intr cause tval) intr cause := by
  unfold Tile.trapped Tile.trap
  rw [if_neg hh, if_neg hh]
  exact ⟨rfl, rfl, rfl, rfl, rfl, rfl, rfl, rfl, rfl, rfl, rfl, rfl, rfl, rfl, rfl, fun _ _ => rfl⟩

theorem Tile.trapped_trap (t : Tile) (me : Site) (intr : Bool) {cause : Nat} (tval : Word) (hc : cause < 16) :
    t.trapped (t.trap me intr cause tval) intr cause := by
  by_cases hh : bitOf (t.reg Reg.TC_CFG) 0 = true
  · exact t.trapped_of_halttrap me intr tval hc hh
  · exact t.trapped_of_no_halttrap me intr cause tval hh

/-! ## RWL registers of the steward (R522) -/

theorem inWords_iff (a base n : Nat) : inWords a base n = true ↔ base ≤ a ∧ a < base + 4 * n := by simp [inWords]

/-- An aligned RWL register is a word of the steward's registers, and neither ST_PROTERR nor its count. -/
theorem rwl_place {a : Nat} (h : isRwl a = true) (ha : a % 4 = 0) :
    a < 0x1000 ∧ stewardMapped a = true ∧ a ≠ Reg.ST_PROTERR ∧ a ≠ Reg.ST_PROTVIOL_COUNT := by
  simp only [isRwl, Reg.ST_LOCK, Reg.ST_PROT, Reg.ST_MBOX_LO, Reg.ST_MBOX_HI, Reg.BT_REC_LO, Reg.BT_REC_HI, Reg.ST_FOVR,
    Bool.or_eq_true, beq_iff_eq, inWords_iff] at h
  simp only [stewardMapped, Reg.ST_PROTERR, Reg.ST_PROTVIOL_COUNT, Bool.or_eq_true, inWords_iff]
  omega

theorem writeSrc_code_lt (src : WriteSrc) : (WriteSrc.code src).1 < 2 ^ 3 := by
  cases src <;> simp [WriteSrc.code]

theorem Steward.reg_violation_ne (x : Steward) (src : WriteSrc) (a : Nat) {b : Nat} (h : b ≠ Reg.ST_PROTERR)
    (hc : b ≠ Reg.ST_PROTVIOL_COUNT) : (x.violation src a).reg b = x.reg b := by
  simp [Steward.violation, Steward.count, Steward.flagBit, Steward.reg_setReg, h, hc]

theorem Steward.violation_count (x : Steward) (src : WriteSrc) (a : Nat) :
    (x.violation src a).reg Reg.ST_PROTVIOL_COUNT = satAdd (x.reg Reg.ST_PROTVIOL_COUNT) 1 := by
  have hne : Reg.ST_PROTVIOL_COUNT ≠ Reg.ST_PROTERR := by decide
  simp [Steward.violation, Steward.count, Steward.flagBit, Steward.reg_setReg, hne]

/-- ST_PROTERR after a violation: RWL set, and the writer and the word's address in their fields (R522, R535). -/
theorem Steward.violation_proterr (x : Steward) (src : WriteSrc) (a : Nat) :
    (x.violation src a).reg Reg.ST_PROTERR =
      setFld (setFld (setFld (x.reg Reg.ST_PROTERR) 26 3 (WriteSrc.code src).1) 14 12 (WriteSrc.code src).2) 0 12 (a / 4) |||
        at32 1 31 := by
  have hne : Reg.ST_PROTERR ≠ Reg.ST_PROTVIOL_COUNT := by decide
  simp [Steward.violation, Steward.count, Steward.flagBit, Steward.reg_setReg, hne]

/-- A write of an RWL register of the steward by other than boot code is a violation and nothing else. -/
theorem setupWrite_rwl {s : State} {src : WriteSrc} {a : Nat} (w : Word) (h : isRwl a = true) (ha : a % 4 = 0)
    (hb : s.steward.bootCode src = false) (hc : ∀ m, src ≠ .core m) :
    (s.setupWrite src a w).1 = s.onSteward fun x => x.violation src a := by
  obtain ⟨hlt, hmap, -, -⟩ := rwl_place h ha
  have hat : setupAt a = .steward a := if_pos hlt
  have hw : s.writeSteward src a w = (s.onSteward fun x => x.violation src a, .ignored) := by
    rw [State.writeSteward, if_pos h, if_neg (by simp [hb])]
  unfold State.setupWrite
  rw [hat]
  cases src
  case core m => exact absurd rfl (hc m)
  all_goals simp [hmap, hw]

/-! ## The clauses of O10 -/

/-- At an unmapped address, or a misaligned one of no running core, nothing is written (R560). -/
theorem regWrite_ignored {s : State} {src : WriteSrc} {addr : Word} (val : Word) (h : s.inReset = false)
    (hn : (setupAt addr.toNat = .nowhere ∧ addr.toNat % 4 = 0) ∨
      (addr.toNat % 4 ≠ 0 ∧ ∀ n, src = .core n → s.coreRuns n = false)) :
    Completes (.regWrite src addr val) s fun t => t = s := by
  rcases hn with ⟨hat, ha⟩ | ⟨ha, hsrc⟩
  · exact ⟨_, regWrite_aligned src val h ha, by rw [setupWrite_nowhere src val hat, leaves_self s h]⟩
  · refine completes_live (by rw [exec, execRegWrite]) h ?_
    rw [if_neg ha]
    cases src
    case core n =>
      dsimp only
      rw [if_neg (by simp [hsrc n rfl]), leaves_self s h]
    all_goals exact leaves_self s h

/-- A running core's misaligned write takes the access fault of a store (R560, R197). -/
theorem regWrite_misaligned {s : State} {n : Site} {addr : Word} (val : Word) (h : s.inReset = false) (ha : addr.toNat % 4 ≠ 0)
    (hr : s.coreRuns n = true) :
    Completes (.regWrite (.core n) addr val) s fun t => s.onlyTile t n ∧ (s.tile n).trapped (t.tile n) false 7 := by
  refine completes_live (by rw [exec, execRegWrite]) h ?_
  rw [if_neg ha]
  dsimp only
  rw [if_pos hr]
  refine ⟨onlyTile_onTile s n _ h, ?_⟩
  rw [State.tile_leaves, State.tile_onTile_same]
  exact (s.tile n).trapped_trap n false _ (by decide)

/-- A write into a group window changes no active slot and no other tile (RWS). -/
theorem regWrite_window {s : State} (src : WriteSrc) {n : Site} {g k : Nat} {addr : Word} (val : Word) (h : s.inReset = false)
    (hg : g < 8) (hk : k < groupWords g) (ha : addr.toNat = tileAddr n (groupBase g + 4 * k)) :
    Completes (.regWrite src addr val) s fun t => s.onlyTile t n ∧ ∀ j i, (t.tile n).act j i = (s.tile n).act j i := by
  have hend := groupBase_end g hg
  have hbase := groupBase_aligned g hg
  obtain ⟨⟨g', k'⟩, hw⟩ := Option.isSome_iff_exists.1 (windowOf_isSome hg hk)
  have hres : (s.setupWrite src addr.toNat val).1 = s.onTile n (fun t => t.writeWindow n g' k' val) ∨
      (s.setupWrite src addr.toNat val).1 = s := by
    rw [ha]
    rcases setupWrite_tile_or src n val (o := groupBase g + 4 * k) (by omega) with hs | hs
    · rw [hs]
      exact writeTile_window src n val hw
    · exact .inr hs
  refine ⟨_, regWrite_aligned src val h (ha ▸ tileAddr_aligned n (by omega)), ?_⟩
  rcases hres with hs | hs
  · rw [hs]
    refine ⟨onlyTile_onTile s n _ h, fun j i => ?_⟩
    rw [State.tile_leaves, State.tile_onTile_same, Tile.act_writeWindow]
  · rw [hs, leaves_self s h]
    exact ⟨onlyTile_self s n, fun _ _ => rfl⟩

/-- A write of a register of a powered tile, by its own core or by no core. -/
theorem regWrite_tileReg {s t' : State} {src : WriteSrc} {n : Site} {o : Nat} {addr : Word} (val : Word) (h : s.inReset = false)
    (hp : s.powered n = true) (hsrc : ∀ m, src = .core m → m = n) (ho : o < 0x2000) (h4 : o % 4 = 0) (hw : windowOf o = none)
    (hm : tileMapped n o = true) (ha : addr.toNat = tileAddr n o) (ht : s.writeTileReg src n o val = t') :
    exec (.regWrite src addr val) s = .next (s.leaves t') := by
  rw [regWrite_aligned src val h (ha ▸ tileAddr_aligned n h4), ha, setupWrite_tile val hsrc (by omega) hm,
    writeTile_reg src val hp ho hw, ht]

/-- An error flag is cleared by a written 1 and by nothing else (W1C). -/
theorem regWrite_errReg {s : State} {src : WriteSrc} {n : Site} {o : Nat} {addr : Word} (val : Word) (h : s.inReset = false)
    (hp : s.powered n = true) (hsrc : ∀ m, src = .core m → m = n) (ho : o ∈ tileErrRegs) (ha : addr.toNat = tileAddr n o) :
    Completes (.regWrite src addr val) s fun t => s.onlyTile t n ∧
      (∀ i, bitOf ((t.tile n).reg o) i = (bitOf ((s.tile n).reg o) i && !(bitOf val i && bitOf (tileW1C o) i))) ∧
      t.tile n = { s.tile n with regs := (t.tile n).regs } ∧ ∀ a, a ≠ o → (t.tile n).reg a = (s.tile n).reg a := by
  obtain ⟨hlt, h4, hw⟩ := tileErrRegs_place o ho
  refine ⟨_, regWrite_tileReg val h hp hsrc hlt h4 hw (tileMapped_of_errReg n ho) ha (writeTileReg_errReg s src n val ho),
    onlyTile_onTile s n _ h, ?_⟩
  rw [State.tile_leaves, State.tile_onTile_same]
  refine ⟨fun i => ?_, rfl, fun a hne => ?_⟩
  · rw [Tile.setReg_reg_same, bitOf_clear]
  · rw [Tile.reg_setReg, if_neg hne]

/-- An RWL register written by other than boot code keeps its value, and the violation is recorded and counted. -/
theorem regWrite_rwl {s : State} {src : WriteSrc} {addr : Word} (val : Word) (h : s.inReset = false)
    (hr : isRwl addr.toNat = true) (ha : addr.toNat % 4 = 0) (hb : s.steward.bootCode src = false) (hc : ∀ m, src ≠ .core m) :
    Completes (.regWrite src addr val) s fun t => s.onlySteward t ∧ t.steward.reg addr.toNat = s.steward.reg addr.toNat ∧
      bitOf (t.steward.reg Reg.ST_PROTERR) 31 = true ∧ fld (t.steward.reg Reg.ST_PROTERR) 0 12 = addr.toNat / 4 ∧
      fld (t.steward.reg Reg.ST_PROTERR) 26 3 = (WriteSrc.code src).1 ∧
      t.steward.reg Reg.ST_PROTVIOL_COUNT = satAdd (s.steward.reg Reg.ST_PROTVIOL_COUNT) 1 := by
  obtain ⟨hlt, -, hne, hnc⟩ := rwl_place hr ha
  refine ⟨_, regWrite_aligned src val h ha, ?_⟩
  rw [setupWrite_rwl val hr ha hb hc]
  refine ⟨onlySteward_onSteward s _ h, ?_⟩
  rw [State.leaves_steward, State.onSteward_steward, Steward.violation_proterr]
  refine ⟨Steward.reg_violation_ne _ src _ hne hnc, bitOf_flag _ (by decide), ?_, ?_, Steward.violation_count _ src _⟩
  · rw [fld_or_at32 _ _ _ _ _ (by decide) (by decide), fld_setFld _ _ _ _ (by decide), Nat.mod_eq_of_lt (by omega)]
  · rw [fld_or_at32 _ _ _ _ _ (by decide) (by decide), fld_setFld_ne _ _ _ _ _ _ (by decide),
      fld_setFld_ne _ _ _ _ _ _ (by decide), fld_setFld _ _ _ _ (by decide), Nat.mod_eq_of_lt (writeSrc_code_lt src)]

/-- A write whose encoding is not reserved (R14). -/
theorem Tile.writeRW_of_keep_zero {t : Tile} {o : Nat} {w : Word} (h : tileKeep o (t.reg o) w = 0) :
    t.writeRW o w = t.setReg o (mergeMask (tileRW o &&& ~~~0) (t.reg o) w) := by
  rw [Tile.writeRW, h]
  rfl

/-- A write with a reserved encoding sets the set-up error flag, and the bits that it keeps stay as they are (R14, R578). -/
theorem Tile.writeRW_of_keep {t : Tile} {o : Nat} {w k : Word} (h : tileKeep o (t.reg o) w = k) (hk : k ≠ 0) :
    t.writeRW o w = (t.flagBit (tileFlag o).1 (tileFlag o).2).setReg o
      (mergeMask (tileRW o &&& ~~~k) ((t.flagBit (tileFlag o).1 (tileFlag o).2).reg o) w) := by
  rw [Tile.writeRW, h]
  simp only [if_neg hk]

/-- LIMLOG as TC_WDOG takes it, 10 to 20; a reserved value is kept out and flagged (R14, R485). -/
theorem Tile.writeRW_wdog (t : Tile) (w : Word) :
    if 10 ≤ fld w 0 5 ∧ fld w 0 5 ≤ 20 then
      fld ((t.writeRW Reg.TC_WDOG w).reg Reg.TC_WDOG) 0 5 = fld w 0 5 ∧ (t.writeRW Reg.TC_WDOG w).reg Reg.TC_ERR = t.reg Reg.TC_ERR
    else fld ((t.writeRW Reg.TC_WDOG w).reg Reg.TC_WDOG) 0 5 = fld (t.reg Reg.TC_WDOG) 0 5 ∧
      bitOf ((t.writeRW Reg.TC_WDOG w).reg Reg.TC_ERR) 4 = true := by
  have hne : Reg.TC_ERR ≠ Reg.TC_WDOG := by decide
  have hkeep : tileKeep Reg.TC_WDOG (t.reg Reg.TC_WDOG) w = keepIf w 0 5 fun v => v < 10 || 20 < v := if_pos rfl
  split
  next hok =>
    rw [keepIf, if_neg (by simp; omega)] at hkeep
    rw [Tile.writeRW_of_keep_zero hkeep, Tile.setReg_reg_same, Tile.reg_setReg, if_neg hne,
      fld_mergeMask _ _ _ 0 5 true (by decide) (by decide)]
    exact ⟨rfl, rfl⟩
  next hbad =>
    rw [keepIf, if_pos (by simp; omega)] at hkeep
    rw [Tile.writeRW_of_keep hkeep (by decide), Tile.setReg_reg_same, Tile.reg_setReg, if_neg hne,
      fld_mergeMask _ _ _ 0 5 false (by decide) (by decide)]
    exact ⟨congrArg (fld · 0 5) (Tile.reg_flagBit t 4 Reg.TC_WDOG rfl), by
      rw [show (tileFlag Reg.TC_WDOG) = (Reg.TC_ERR, 4) from rfl, Tile.reg_flagBit _ _ _ rfl, if_pos rfl, bitOf_flag _ (by decide)]⟩

/-- Settles O10 by its clauses: nowhere and misaligned, a running core's misaligned write, RWS, W1C, RWL and the reserved LIMLOG. -/
theorem setupWriteFollowsTheAccessCode : Obligations.SetupWriteFollowsTheAccessCode := by
  refine ⟨fun s src addr val h hn => regWrite_ignored val h hn, fun s n addr val h ha hr => regWrite_misaligned val h ha hr,
    fun s src n g k addr val h hg hk ha => regWrite_window src val h hg hk ha,
    fun s src n o addr val h hp hsrc ho ha => regWrite_errReg val h hp hsrc ho ha,
    fun s src addr val h hr ha hb hc => regWrite_rwl val h hr ha hb hc, fun s src n addr val h hp hsrc ha => ?_⟩
  refine ⟨_, regWrite_tileReg val h hp hsrc (by decide) (by decide) (by decide) rfl ha (writeTileReg_wdog s src n val),
    onlyTile_onTile s n _ h, ?_⟩
  rw [State.tile_leaves, State.tile_onTile_same]
  exact (s.tile n).writeRW_wdog val

end Sys2Proof.Machine


/-! # Operations of the weave: what they may change (R262 to R274) -/

namespace Sys2Proof.Machine

/-! ## Commands of a site's units (R25) -/

theorem onUnits_of_powered {s : State} {n : Site} (f : Tile → Tile) (hp : s.powered n = true) : s.onUnits n f = s.onTile n f := by
  rw [State.onUnits, if_pos hp]

theorem onUnits_of_unpowered {s : State} {n : Site} (f : Tile → Tile) (hp : s.powered n = false) : s.onUnits n f = s := by
  rw [State.onUnits, if_neg (by simp [hp])]

/-- A command of the units of a powered site changes its tile and nothing else. -/
theorem completes_onUnits {c : Instr} {s : State} {n : Site} {f : State → Tile → Tile} {p : State → Prop}
    (he : exec c s = live s fun s => s.onUnits n (f s)) (h : s.inReset = false) (hp : s.powered n = true)
    (hq : ∀ t : State, s.onlyTile t n → t.tile n = f s (s.tile n) → p t) : Completes c s p := by
  refine completes_live he h ?_
  rw [onUnits_of_powered _ hp]
  exact hq _ (onlyTile_onTile s n _ h) (by rw [State.tile_leaves, State.tile_onTile_same])

/-- At a site without compute power it changes nothing. -/
theorem completes_unpowered {c : Instr} {s : State} {n : Site} {f : State → Tile → Tile}
    (he : exec c s = live s fun s => s.onUnits n (f s)) (h : s.inReset = false) (hp : s.powered n = false) :
    Completes c s fun t => t = s :=
  completes_live he h (by rw [onUnits_of_unpowered _ hp, leaves_self s h])

/-! ## Flags and counters as they are read back -/

theorem Tile.bitOf_setReg_or (t : Tile) (a b i : Nat) (w : Word) (h : bitOf (t.reg b) i = true) :
    bitOf ((t.setReg a (t.reg a ||| w)).reg b) i = true := by
  rw [Tile.reg_setReg]
  split
  next hb => rw [bitOf_or, ← hb, h, Bool.true_or]
  next => exact h

/-- A flag clears no bit of any register. -/
theorem Tile.bitOf_flag_of_set (t : Tile) (off : Nat) (w : Word) (a i : Nat) (h : bitOf (t.reg a) i = true) :
    bitOf ((t.flag off w).reg a) i = true := by
  unfold Tile.flag
  dsimp only
  split
  · exact Tile.bitOf_setReg_or _ _ _ _ _ (t.bitOf_setReg_or _ _ _ _ h)
  · exact t.bitOf_setReg_or _ _ _ _ h

theorem Tile.bitOf_flagBit_self (t : Tile) (off : Nat) {bit : Nat} (hb : bit < 32) : bitOf ((t.flagBit off bit).reg off) bit = true := by
  have hset : bitOf ((t.setReg off (t.reg off ||| at32 1 bit)).reg off) bit = true := by
    rw [Tile.setReg_reg_same, bitOf_flag _ hb]
  unfold Tile.flagBit Tile.flag
  dsimp only
  split
  · exact Tile.bitOf_setReg_or _ _ _ _ _ hset
  · exact hset

/-- A flag of a unit's error register is also seen in TC_EVT (R224). -/
theorem Tile.bitOf_flagBit_evt (t : Tile) {off : Nat} (bit : Nat) (h : isUnitErr off = true) :
    bitOf ((t.flagBit off bit).reg Reg.TC_EVT) 0 = true := by
  unfold Tile.flagBit Tile.flag
  dsimp only
  rw [if_pos h, Tile.setReg_reg_same, bitOf_or, Bool.or_eq_true]
  exact .inr (by decide)

theorem Tile.reg_flagBit_ne (t : Tile) {off a : Nat} (bit : Nat) (h : a ≠ off) (he : a ≠ Reg.TC_EVT) :
    (t.flagBit off bit).reg a = t.reg a := by
  unfold Tile.flagBit Tile.flag
  dsimp only
  split
  · rw [Tile.reg_setReg, if_neg he, Tile.reg_setReg, if_neg h]
  · rw [Tile.reg_setReg, if_neg h]

theorem Tile.reg_count_ne (t : Tile) {off a : Nat} (k : Nat) (h : a ≠ off) : (t.count off k).reg a = t.reg a := by
  rw [Tile.count, Tile.reg_setReg, if_neg h]

theorem isUnitErr_errReg (u : UnitC) : isUnitErr (errReg u) = true := by cases u <;> rfl

/-! ## What an operation of the weave may change -/

/-- What `a` has reported stands in `b` too: no packet that waits to leave is lost, and no flag of TC_EP_ERR is cleared. -/
def Tile.keepsReports (a b : Tile) : Prop :=
  a.outq ⊆ b.outq ∧ ∀ i, bitOf (a.reg Reg.TC_EP_ERR) i = true → bitOf (b.reg Reg.TC_EP_ERR) i = true

theorem Tile.keepsReports.refl (a : Tile) : a.keepsReports a := ⟨fun _ h => h, fun _ h => h⟩

theorem Tile.keepsReports.trans {a b c : Tile} (h : a.keepsReports b) (k : b.keepsReports c) : a.keepsReports c :=
  ⟨fun _ hp => k.1 (h.1 hp), fun i hi => k.2 i (h.2 i hi)⟩

/-- The patterns of `a`, and what it has reported, outlast the change to `b`. -/
def Tile.outlasts (a b : Tile) : Prop := b.groups = a.groups ∧ a.keepsReports b

theorem Tile.outlasts.refl (a : Tile) : a.outlasts a := ⟨rfl, .refl a⟩

theorem Tile.outlasts.trans {a b c : Tile} (h : a.outlasts b) (k : b.outlasts c) : a.outlasts c := ⟨k.1.trans h.1, h.2.trans k.2⟩

/-- Tile `b` is `a` after operations on tokens, credits, firings, sequencers and spool ends: registers, queues, ports and what waits to
leave the tile may differ, but no unit, no memory and no pattern. -/
def Tile.weaves (a b : Tile) : Prop :=
  b = { a with regs := b.regs, sp := { a.sp with spools := b.sp.spools }, queues := b.queues, helds := b.helds, seqs := b.seqs
               ports := b.ports, firings := b.firings, spillOrder := b.spillOrder, outq := b.outq, warpq := b.warpq
               wires := b.wires } ∧ a.outlasts b

theorem Tile.weaves.refl (a : Tile) : a.weaves a := ⟨rfl, .refl a⟩

theorem Tile.weaves.trans {a b c : Tile} (h : a.weaves b) (k : b.weaves c) : a.weaves c := by
  obtain ⟨hf, ho⟩ := h
  obtain ⟨kf, ko⟩ := k
  refine ⟨?_, ho.trans ko⟩
  rw [kf, hf]

theorem Tile.weaves.units {a b : Tile} (h : a.weaves b) : b.units = a.units := by rw [h.1]
theorem Tile.weaves.core {a b : Tile} (h : a.weaves b) : b.core = a.core := by rw [h.1]
theorem Tile.weaves.spMem {a b : Tile} (h : a.weaves b) : b.sp.mem = a.sp.mem := by rw [h.1]
theorem Tile.weaves.trf {a b : Tile} (h : a.weaves b) : b.trf = a.trf := by rw [h.1]
theorem Tile.weaves.mu {a b : Tile} (h : a.weaves b) : b.mu = a.mu := by rw [h.1]
theorem Tile.weaves.la {a b : Tile} (h : a.weaves b) : b.la = a.la := by rw [h.1]

/-- Many such operations, one for each element of a list, are one. -/
theorem Tile.weaves.foldl {α : Type} {a b : Tile} {f : Tile → α → Tile} (l : List α) (h : a.weaves b) (hf : ∀ (t : Tile) x, t.weaves (f t x)) :
    a.weaves (l.foldl f b) :=
  List.foldlRecOn l f h fun t ht x _ => ht.trans (hf t x)

theorem Tile.flagBit_weaves (t : Tile) (off bit : Nat) : t.weaves (t.flagBit off bit) := by
  have hf := t.flagBit_frame off bit
  refine ⟨?_, t.flagBit_groups off bit, ?_, fun i => t.bitOf_flag_of_set off _ _ i⟩
  · rw [hf]
  · rw [hf]
    exact fun _ hp => hp

theorem Tile.count_weaves (t : Tile) {off : Nat} (k : Nat) (h : Reg.TC_EP_ERR ≠ off) : t.weaves (t.count off k) :=
  ⟨rfl, rfl, fun _ hp => hp, fun i hi => by rw [t.reg_count_ne k h]; exact hi⟩

theorem Tile.post_weaves (t : Tile) (p : Pkt) : t.weaves (t.post p) :=
  ⟨rfl, rfl, List.subset_append_left _ _, fun _ hi => hi⟩

theorem Tile.raise_weaves (t : Tile) (me : Site) (code unit : Nat) (w : Word) : t.weaves (t.raise me code unit w) := t.post_weaves _

theorem Tile.setPortSt_weaves (t : Tile) (u p : Nat) (x : PortSt) : t.weaves (t.setPortSt u p x) :=
  ⟨rfl, rfl, fun _ hp => hp, fun _ hi => hi⟩

theorem Tile.setQueue_weaves (t : Tile) (u q : Nat) (x : Queue) : t.weaves (t.setQueue u q x) :=
  ⟨rfl, rfl, fun _ hp => hp, fun _ hi => hi⟩

theorem Tile.setSeq_weaves (t : Tile) (u : Nat) (x : SeqSt) : t.weaves (t.setSeq u x) :=
  ⟨rfl, rfl, fun _ hp => hp, fun _ hi => hi⟩

theorem Tile.endCurrent_weaves (t : Tile) (u : Nat) : t.weaves (t.endCurrent u) := ⟨rfl, rfl, fun _ hp => hp, fun _ hi => hi⟩

/-! ## Credits and tokens (R262, R265, R266) -/

theorem Tile.addCredits_frame (t : Tile) (u p k gen : Nat) : t.addCredits u p k gen = { t with ports := (t.addCredits u p k gen).ports } := by
  unfold Tile.addCredits
  dsimp only
  split <;> rfl

theorem Tile.addCredits_weaves (t : Tile) (u p k gen : Nat) : t.weaves (t.addCredits u p k gen) := by
  unfold Tile.addCredits
  dsimp only
  split
  · exact t.setPortSt_weaves u p _
  · exact .refl t

theorem Tile.returnCredit_weaves (t : Tile) (me : Site) (src : TokSrc) : t.weaves (t.returnCredit me src) := by
  unfold Tile.returnCredit
  split
  · exact .refl t
  · cases src with
    | seq site u p path gen =>
      dsimp only
      split
      · exact t.addCredits_weaves _ _ _ _
      · split
        · exact ⟨rfl, rfl, fun _ hp => hp, fun _ hi => hi⟩
        · exact t.post_weaves _
    | loom a p => exact t.post_weaves _

/-- The return of a credit leaves the firings and the sequencers alone. -/
theorem Tile.returnCredit_firings (t : Tile) (me : Site) (src : TokSrc) :
    (t.returnCredit me src).firings = t.firings ∧ (t.returnCredit me src).seqs = t.seqs := by
  unfold Tile.returnCredit
  split
  · exact ⟨rfl, rfl⟩
  · cases src with
    | seq site u p path gen =>
      dsimp only
      split
      · rw [t.addCredits_frame]
        exact ⟨rfl, rfl⟩
      · split <;> exact ⟨rfl, rfl⟩
    | loom a p => exact ⟨rfl, rfl⟩

theorem Tile.release_weaves (t : Tile) (me : Site) : t.weaves (t.release me) := by
  unfold Tile.release
  exact .foldl _ ⟨rfl, rfl, fun _ hp => hp, fun _ hi => hi⟩ fun t h => t.returnCredit_weaves me h.src

theorem Tile.release_firings (t : Tile) (me : Site) : (t.release me).firings = t.firings ∧ (t.release me).seqs = t.seqs := by
  unfold Tile.release
  refine List.foldlRecOn (motive := fun b : Tile => b.firings = t.firings ∧ b.seqs = t.seqs) _ _ ⟨rfl, rfl⟩ fun b hb h _ => ?_
  obtain ⟨hf, hs⟩ := b.returnCredit_firings me h.src
  exact ⟨hf.trans hb.1, hs.trans hb.2⟩

theorem Tile.dropToken_weaves (t : Tile) (me : Site) (flag : Nat) (tok : BitVec 64) (src : TokSrc) :
    t.weaves (t.dropToken me flag tok src) := by
  have hcount : t.weaves ((t.flagBit Reg.TC_WV_ERR flag).count Reg.TC_WVDROP_COUNT 1) :=
    (t.flagBit_weaves _ _).trans (Tile.count_weaves _ 1 (by decide))
  unfold Tile.dropToken Tile.dropCredit
  split
  · exact hcount
  · exact hcount.trans (Tile.returnCredit_weaves _ me src)

theorem Tile.tokenArrive_weaves (t : Tile) (me : Site) (u q : Nat) (tok : BitVec 64) (src : TokSrc) :
    t.weaves (t.tokenArrive me u q tok src) := by
  unfold Tile.tokenArrive
  dsimp only
  split
  · exact t.count_weaves 1 (by decide)
  · split
    · exact t.dropToken_weaves me 1 tok src
    · split
      · split
        · exact (t.flagBit_weaves _ _).trans (Tile.count_weaves _ 1 (by decide))
        · exact t.setQueue_weaves u q _
      · split
        · exact t.dropToken_weaves me 0 tok src
        · exact t.setQueue_weaves u q _

theorem Tile.emit_weaves (t : Tile) (e : Env) (u p : Nat) (tok : BitVec 64) : t.weaves (t.emit e u p tok) := by
  unfold Tile.emit
  dsimp only
  split
  · exact .refl t
  · split
    · exact t.tokenArrive_weaves _ _ _ _ _
    · split
      · split
        · exact t.post_weaves _
        · split
          · exact ⟨rfl, rfl, fun _ hp => hp, fun _ hi => hi⟩
          · exact (t.flagBit_weaves _ _).trans (Tile.count_weaves _ 1 (by decide))
      · split
        · split
          · exact t.post_weaves _
          · exact .refl t
        · exact .refl t

/-! ## Spool ends (R241, R243, R274, R320) -/

theorem Tile.setSpool_weaves (t : Tile) (n : Nat) (x : Spool) : t.weaves (t.setSpool n x) := ⟨rfl, rfl, fun _ hp => hp, fun _ hi => hi⟩

theorem Tile.advanceTo_weaves (t : Tile) (n : Nat) (tailEnd : Bool) (rows : Nat) : t.weaves (t.advanceTo n tailEnd rows) := by
  unfold Tile.advanceTo
  dsimp only
  split <;> exact t.setSpool_weaves n _

theorem Tile.spoolAdvance_weaves (t : Tile) (n : Nat) (tailEnd : Bool) (rows : Nat) : t.weaves (t.spoolAdvance n tailEnd rows).1 := by
  unfold Tile.spoolAdvance
  split
  · exact t.advanceTo_weaves n tailEnd rows
  · exact t.flagBit_weaves Reg.SP_ERR 4

/-- The head of the spill spool passes rows by advances of a spool. -/
theorem Tile.passSpills_weaves (t : Tile) (l : List (Nat × Bool)) : t.weaves (t.passSpills l) := by
  induction l generalizing t with
  | nil => exact ⟨rfl, rfl, fun _ hp => hp, fun _ hi => hi⟩
  | cons x rest ih =>
    unfold Tile.passSpills
    split
    · exact (t.spoolAdvance_weaves _ false 1).trans (ih _)
    · exact ⟨rfl, rfl, fun _ hp => hp, fun _ hi => hi⟩

theorem Tile.freeSpill_weaves (t : Tile) (off : Nat) : t.weaves (t.freeSpill off) := t.passSpills_weaves _

theorem Tile.emptyQueues_weaves (t : Tile) (me : Site) (u : Nat) : t.weaves (t.emptyQueues me u) :=
  .foldl _ (.refl t) fun t q =>
    .foldl _ (.foldl _ (t.setQueue_weaves u q _) fun t r => t.freeSpill_weaves r.off) fun t k => t.dropToken_weaves me 1 k.tok k.src

/-! ## Firings (R272 to R274) -/

theorem Tile.emitAll_weaves (t : Tile) (e : Env) (f : Firing) (poison : Bool) (value : BitVec 16) :
    t.weaves (t.emitAll e f poison value) := .foldl _ (.refl t) fun t _ => t.emit_weaves e _ _ _

theorem Tile.unreserve_weaves (t : Tile) (f : Firing) : t.weaves (t.unreserve f) :=
  .foldl _ (.refl t) fun t _ => t.addCredits_weaves _ _ _ _

theorem Tile.unuse_weaves (t : Tile) (me : Site) (f : Firing) : t.weaves (t.unuse me f) :=
  Tile.weaves.trans ⟨rfl, rfl, fun _ hp => hp, fun _ hi => hi⟩ (Tile.release_weaves _ me)

/-- A firing whose use of its tokens has ended is a firing no more. -/
theorem Tile.unuse_firings (t : Tile) (me : Site) (f : Firing) : (t.unuse me f).firings = t.firings.filter fun g => g.id ≠ f.id :=
  (Tile.release_firings _ me).1

theorem Tile.applyAdvs_weaves (t : Tile) (f : Firing) : t.weaves (t.applyAdvs f) := by
  have hadv : ∀ (v : Tile) (a : Nat × Bool × Nat),
      v.weaves (if t.advanceOk a.1 a.2.1 a.2.2 then v.advanceTo a.1 a.2.1 a.2.2 else v.flagBit Reg.SP_ERR 4) := by
    intro v a
    split
    · exact v.advanceTo_weaves _ _ _
    · exact v.flagBit_weaves _ _
  unfold Tile.applyAdvs
  dsimp only
  split
  · split
    · split
      · exact (hadv _ _).trans (hadv _ _)
      · exact (hadv _ _).trans (hadv _ _)
    · exact (t.spoolAdvance_weaves _ _ _).trans (Tile.spoolAdvance_weaves _ _ _ _)
  · exact .foldl _ (.refl t) fun t _ => t.spoolAdvance_weaves _ _ _

/-- A malformed command halts its sequencer and reports it, once its firing has ended (R273). -/
def Tile.haltSeq (t : Tile) (me : Site) (u : Nat) : Tile :=
  let t := (((t.setSeq u { t.seq u with run := false, halted := true }).endCurrent u).release me).flagBit Reg.TC_WV_ERR 2
  t.raise me 0x07 u (t.reg ((unitOfCode u).elim Reg.TC_WV_ERR errReg))

theorem Tile.haltSeq_weaves (t : Tile) (me : Site) (u : Nat) : t.weaves (t.haltSeq me u) :=
  ((((t.setSeq_weaves u _).trans (Tile.endCurrent_weaves _ u)).trans (Tile.release_weaves _ me)).trans
    (Tile.flagBit_weaves _ _ _)).trans (Tile.raise_weaves _ me _ _ _)

theorem Tile.seq_setSeq (t : Tile) (u : Nat) (x : SeqSt) : (t.setSeq u x).seq u = x := Map.get_set_same _ _ _ _

/-- What halts the sequencer leaves its firings. -/
theorem Tile.haltSeq_spec (t : Tile) (me : Site) (u : Nat) :
    (t.haltSeq me u).firings = t.firings ∧ ((t.haltSeq me u).seq u).halted = true ∧ ((t.haltSeq me u).seq u).run = false ∧
      bitOf ((t.haltSeq me u).reg Reg.TC_WV_ERR) 2 = true := by
  let x : SeqSt := { t.seq u with run := false, halted := true }
  obtain ⟨hf, hs⟩ := Tile.release_firings ((t.setSeq u x).endCurrent u) me
  have hframe := Tile.flagBit_frame (((t.setSeq u x).endCurrent u).release me) Reg.TC_WV_ERR 2
  have hseqs : (t.haltSeq me u).seqs = (t.setSeq u x).seqs := (congrArg Tile.seqs hframe).trans hs
  have hseq : (t.haltSeq me u).seq u = x := by
    rw [Tile.seq, hseqs]
    exact t.seq_setSeq u x
  refine ⟨(congrArg Tile.firings hframe).trans hf, by rw [hseq], by rw [hseq], ?_⟩
  exact Tile.bitOf_flagBit_self _ _ (by decide)

/-- The three ends of a firing: none of that number, a command without effect, and one whose tokens go out. -/
theorem Tile.endFiring_cases (t : Tile) (e : Env) (u id : Nat) (r : Run) :
    (t.firings.find? (fun f => f.id = id) = none ∧ t.endFiring e u id r = t) ∨
    ∃ f, f.id = id ∧
      ((r.malformed = true ∧ t.endFiring e u id r = ((t.unreserve f).unuse e.me f).haltSeq e.me u) ∨
       (r.malformed = false ∧ ∃ v, t.weaves v ∧ t.endFiring e u id r = v.unuse e.me f)) := by
  unfold Tile.endFiring
  split
  next hnone => exact .inl ⟨hnone, rfl⟩
  next f hsome =>
    refine .inr ⟨f, by simpa using List.find?_some hsome, ?_⟩
    cases hm : r.malformed
    · refine .inr ⟨rfl, ?_⟩
      cases ha : r.aborted
      · exact ⟨_, (t.emitAll_weaves e f _ _).trans (Tile.applyAdvs_weaves _ f), rfl⟩
      · exact ⟨_, t.unreserve_weaves f, rfl⟩
    · exact .inl ⟨rfl, rfl⟩

/-- The end of a firing is the weave's alone: no unit, memory or pattern changes. -/
theorem Tile.endFiring_weaves (t : Tile) (e : Env) (u id : Nat) (r : Run) : t.weaves (t.endFiring e u id r) := by
  rcases t.endFiring_cases e u id r with ⟨-, h⟩ | ⟨f, -, ⟨-, h⟩ | ⟨-, v, hv, h⟩⟩
  · rw [h]
    exact .refl t
  · rw [h]
    exact ((t.unreserve_weaves f).trans (Tile.unuse_weaves _ _ f)).trans (Tile.haltSeq_weaves _ _ u)
  · rw [h]
    exact hv.trans (v.unuse_weaves e.me f)

theorem Tile.unuse_ends (t : Tile) (me : Site) (f : Firing) : ∀ g ∈ (t.unuse me f).firings, g.id ≠ f.id := by
  intro g hg
  rw [Tile.unuse_firings] at hg
  simpa using (List.mem_filter.1 hg).2

/-- The firing has ended. -/
theorem Tile.endFiring_ends (t : Tile) (e : Env) (u id : Nat) (r : Run) : ∀ g ∈ (t.endFiring e u id r).firings, g.id ≠ id := by
  rcases t.endFiring_cases e u id r with ⟨hnone, h⟩ | ⟨f, rfl, ⟨-, h⟩ | ⟨-, v, -, h⟩⟩
  · rw [h]
    simpa using hnone
  · rw [h, (Tile.haltSeq_spec _ e.me u).1]
    exact Tile.unuse_ends _ _ f
  · rw [h]
    exact v.unuse_ends e.me f

/-- A malformed command of a firing halts the sequencer (R273). -/
theorem Tile.endFiring_halts (t : Tile) (e : Env) (u id : Nat) {r : Run} (hm : r.malformed = true) (hf : ∃ f ∈ t.firings, f.id = id) :
    ((t.endFiring e u id r).seq u).halted = true ∧ ((t.endFiring e u id r).seq u).run = false ∧
      bitOf ((t.endFiring e u id r).reg Reg.TC_WV_ERR) 2 = true := by
  rcases t.endFiring_cases e u id r with ⟨hnone, -⟩ | ⟨f, -, ⟨-, h⟩ | ⟨hm', -⟩⟩
  · obtain ⟨f, hmem, hid⟩ := hf
    exact absurd hid (by simpa using List.find?_eq_none.1 hnone f hmem)
  · rw [h]
    exact (Tile.haltSeq_spec _ e.me u).2
  · rw [hm] at hm'
    cases hm'

end Sys2Proof.Machine


/-! # Commands of the units: completion, rejection, no power (O18) -/

namespace Sys2Proof.Machine

/-! ## The completion of a command (R204 to R208) -/

/-- The status word of the command that has ended is the newest that is kept. -/
theorem UnitSt.finish_kept (x : UnitSt) (r : Run) : (x.finish r).kept.getLast? = some (x.done + 1, r.word) := by
  simp only [UnitSt.finish, List.getLast?_drop, List.length_append, List.length_singleton, List.getLast?_concat]
  rw [if_neg (by omega)]

/-- What a completion does beside taking the command off its unit: an error of the stream, and the shuttle's flag (R215, R447). -/
def Tile.chargeErrors (t : Tile) (u : UnitC) (r : Run) : Tile :=
  let t := if (r.dataerr || r.refused) && !r.errRaised && !r.malformed && !r.aborted then t.err 1 else t
  if u == .sh && r.refused then t.flagBit Reg.SH_ERR 2 else t

theorem Tile.chargeErrors_frame (t : Tile) (u : UnitC) (r : Run) :
    t.chargeErrors u r = { t with errCounts := (t.chargeErrors u r).errCounts, regs := (t.chargeErrors u r).regs } := by
  have herr : ∀ b : Bool, (if b then t.err 1 else t) = { t with errCounts := (if b then t.err 1 else t).errCounts } := by
    intro b
    cases b
    · rfl
    · exact t.err_frame 1
  unfold Tile.chargeErrors
  dsimp only
  generalize hb : ((r.dataerr || r.refused) && !r.errRaised && !r.malformed && !r.aborted) = b
  have h := herr b
  split
  · rw [Tile.flagBit_frame, h]
  · rw [h]

theorem Tile.chargeErrors_regs (t : Tile) (u : UnitC) {r : Run} (h : r.refused = false) : (t.chargeErrors u r).regs = t.regs := by
  unfold Tile.chargeErrors
  rw [h, Bool.and_false, if_neg (by decide)]
  split
  · rw [t.err_frame]
  · rfl

/-- The unit without its oldest command, and the errors charged. -/
def Tile.ended (t : Tile) (u : UnitC) (r : Run) : Tile :=
  (t.onUnit u fun x => { x with running := x.running.drop 1 }).chargeErrors u r

theorem Tile.ended_frame (t : Tile) (u : UnitC) (r : Run) :
    t.ended u r = { t with units := (t.ended u r).units, errCounts := (t.ended u r).errCounts, regs := (t.ended u r).regs } := by
  unfold Tile.ended
  rw [Tile.chargeErrors_frame]
  rfl

theorem Tile.ended_units (t : Tile) (u : UnitC) (r : Run) :
    (t.ended u r).units = (t.onUnit u fun x => { x with running := x.running.drop 1 }).units := by
  unfold Tile.ended
  rw [Tile.chargeErrors_frame]

theorem Tile.unit_of_units {a b : Tile} (h : a.units = b.units) (u : UnitC) : a.unit u = b.unit u := congrArg (PerUnit.get · u) h

@[simp] theorem Tile.unit_onUnit_same (t : Tile) (u : UnitC) (f : UnitSt → UnitSt) : (t.onUnit u f).unit u = f (t.unit u) :=
  t.unit_setUnit_same u _

theorem Tile.unit_onUnit_ne (t : Tile) {u v : UnitC} (f : UnitSt → UnitSt) (h : v ≠ u) : (t.onUnit u f).unit v = t.unit v :=
  t.unit_setUnit_ne _ h

theorem Tile.ended_unit_same (t : Tile) (u : UnitC) (r : Run) :
    (t.ended u r).unit u = { t.unit u with running := (t.unit u).running.drop 1 } :=
  (Tile.unit_of_units (t.ended_units u r) u).trans (t.unit_onUnit_same u _)

theorem Tile.ended_unit_ne (t : Tile) {u v : UnitC} (r : Run) (h : v ≠ u) : (t.ended u r).unit v = t.unit v :=
  (Tile.unit_of_units (t.ended_units u r) v).trans (t.unit_onUnit_ne _ h)

theorem Tile.complete_core (t : Tile) (e : Env) (u : UnitC) {r : Run} {f : List (Nat × Nat)} {x : Bool} (h : r.cmd.src = .core f x) :
    t.complete e u r = (t.ended u r).onUnit u fun y => y.finish r := by
  unfold Tile.complete
  rw [h]
  rfl

theorem Tile.complete_seq (t : Tile) (e : Env) (u : UnitC) {r : Run} {id : Nat} (h : r.cmd.src = .seq id) :
    t.complete e u r = (t.ended u r).endFiring e (unitCode u) id r := by
  unfold Tile.complete
  rw [h]
  rfl

/-- A command of the core in progress whose work has ended completes. -/
theorem Tile.tryComplete_core {t : Tile} (e : Env) {u : UnitC} {r : Run} {rest : List Run} {f : List (Nat × Nat)} {x : Bool}
    (hr : (t.unit u).running = r :: rest) (hs : r.cmd.src = .core f x) (hd : t.runDone u r = true) :
    t.tryComplete e u = (t.ended u r).onUnit u fun y => y.finish r := by
  rw [← t.complete_core e u hs]
  unfold Tile.tryComplete
  simp [hr, hs, hd]

/-- So does one of a sequencer that stands behind no other firing. -/
theorem Tile.tryComplete_seq {t : Tile} (e : Env) {u : UnitC} {r : Run} {rest : List Run} {id : Nat}
    (hr : (t.unit u).running = r :: rest) (hs : r.cmd.src = .seq id) (hb : t.behind (unitCode u) id = false)
    (hd : t.runDone u r = true) : t.tryComplete e u = (t.ended u r).endFiring e (unitCode u) id r := by
  rw [← t.complete_seq e u hs]
  unfold Tile.tryComplete
  simp [hr, hs, hb, hd]

theorem Tile.tryComplete_unfinished {t : Tile} (e : Env) {u : UnitC} {r : Run} {rest : List Run}
    (hr : (t.unit u).running = r :: rest) (hd : t.runDone u r = false) : t.tryComplete e u = t := by
  unfold Tile.tryComplete
  simp [hr, hd]

/-- Unit `b` is `a` after its oldest command has completed with a status and a value (R204, R206, R208). -/
def UnitSt.finished (a b : UnitSt) (st v : Nat) : Prop :=
  b.done = a.done + 1 ∧ b.kept.getLast? = some (a.done + 1, at32 st 28 ||| at32 v 0) ∧ b.issued = a.issued ∧ b.errSum = (a.errSum || st != 0)

theorem UnitSt.finish_finished (x : UnitSt) (r : Run) : x.finished (x.finish r) r.status r.value.toNat :=
  ⟨rfl, x.finish_kept r, rfl, rfl⟩

theorem Tile.finish_ended_unit (t : Tile) (u : UnitC) (r : Run) :
    ((t.ended u r).onUnit u fun y => y.finish r).unit u = ({ t.unit u with running := (t.unit u).running.drop 1 } : UnitSt).finish r := by
  rw [Tile.unit_onUnit_same, t.ended_unit_same]

theorem unitCommandComplete_core {s : State} {n : Site} {u : UnitC} {r : Run} {rest : List Run} {f : List (Nat × Nat)} {x : Bool}
    (h : s.inReset = false) (hp : s.powered n = true) (hr : ((s.tile n).unit u).running = r :: rest) (hs : r.cmd.src = .core f x)
    (hd : (s.tile n).runDone u r = true) :
    Completes (.unitCommandComplete n u) s fun t => s.onlyTile t n ∧
      ((s.tile n).unit u).finished ((t.tile n).unit u) r.status r.value.toNat ∧ ((t.tile n).unit u).running = rest ∧
      ((t.tile n).unit u).queue = ((s.tile n).unit u).queue ∧ (∀ v, v ≠ u → (t.tile n).unit v = (s.tile n).unit v) ∧
      t.tile n = { s.tile n with units := (t.tile n).units, errCounts := (t.tile n).errCounts, regs := (t.tile n).regs } ∧
      (r.refused = false → (t.tile n).regs = (s.tile n).regs) := by
  refine completes_onUnits (by rfl) h hp fun t ht htile => ⟨ht, ?_⟩
  rw [htile, Tile.tryComplete_core _ hr hs hd, Tile.finish_ended_unit]
  refine ⟨UnitSt.finish_finished _ r, congrArg (List.drop 1) hr, rfl, fun v hv => ?_, ?_, fun href => ?_⟩
  · rw [Tile.unit_onUnit_ne _ _ hv, Tile.ended_unit_ne _ r hv]
  · exact congrArg (fun a : Tile => a.onUnit u fun y => y.finish r) ((s.tile n).ended_frame u r)
  · exact Tile.chargeErrors_regs _ u href

theorem unitCommandComplete_seq {s : State} {n : Site} {u : UnitC} {r : Run} {rest : List Run} {id : Nat} (h : s.inReset = false)
    (hp : s.powered n = true) (hr : ((s.tile n).unit u).running = r :: rest) (hs : r.cmd.src = .seq id)
    (hb : (s.tile n).behind (unitCode u) id = false) (hd : (s.tile n).runDone u r = true) :
    Completes (.unitCommandComplete n u) s fun t => s.onlyTile t n ∧
      (t.tile n).unit u = { (s.tile n).unit u with running := rest } ∧ (∀ v, v ≠ u → (t.tile n).unit v = (s.tile n).unit v) ∧
      (∀ f ∈ (t.tile n).firings, f.id ≠ id) ∧ (t.tile n).core = (s.tile n).core ∧ (t.tile n).sp.mem = (s.tile n).sp.mem ∧
      (t.tile n).trf = (s.tile n).trf ∧ (t.tile n).mu = (s.tile n).mu ∧ (t.tile n).la = (s.tile n).la ∧
      (r.malformed = true → (∃ f ∈ (s.tile n).firings, f.id = id) →
        ((t.tile n).seq (unitCode u)).halted = true ∧ ((t.tile n).seq (unitCode u)).run = false ∧
          bitOf ((t.tile n).reg Reg.TC_WV_ERR) 2 = true) := by
  refine completes_onUnits (by rfl) h hp fun t ht htile => ⟨ht, ?_⟩
  rw [htile, Tile.tryComplete_seq _ hr hs hb hd]
  have hend := (s.tile n).ended_frame u r
  have hw := ((s.tile n).ended u r).endFiring_weaves (s.env n) (unitCode u) id r
  refine ⟨?_, fun v hv => ?_, Tile.endFiring_ends _ _ _ _ _, ?_, ?_, ?_, ?_, ?_, fun hm hex => ?_⟩
  · rw [Tile.unit_of_units hw.units u, Tile.ended_unit_same, hr]
    rfl
  · rw [Tile.unit_of_units hw.units v, Tile.ended_unit_ne _ r hv]
  · rw [hw.core, hend]
  · rw [hw.spMem, hend]
  · rw [hw.trf, hend]
  · rw [hw.mu, hend]
  · rw [hw.la, hend]
  · refine Tile.endFiring_halts _ _ _ _ hm ?_
    rw [hend]
    exact hex

theorem unitCommandComplete_unfinished {s : State} {n : Site} {u : UnitC} {r : Run} {rest : List Run} (h : s.inReset = false)
    (hp : s.powered n = true) (hr : ((s.tile n).unit u).running = r :: rest) (hd : (s.tile n).runDone u r = false) :
    Completes (.unitCommandComplete n u) s fun t => s.onlyTile t n ∧ t.tile n = s.tile n :=
  completes_onUnits (by rfl) h hp fun _ ht htile => ⟨ht, htile.trans (Tile.tryComplete_unfinished _ hr hd)⟩

/-! ## Rejected commands (R203, R210, R224) -/

theorem Tile.reject_frame (t : Tile) (u : UnitC) (c : Cmd) :
    t.reject u c = { t with regs := (t.flagBit (errReg u) 0).regs, units := (t.reject u c).units } := by
  unfold Tile.reject
  rw [Tile.begin_frame, t.flagBit_frame]

/-- The rejected command has left the queue, and waits to complete MALFORMED. -/
theorem Tile.reject_unit (t : Tile) (u : UnitC) (c : Cmd) :
    (t.reject u c).unit u = { t.unit u with queue := (t.unit u).queue.drop 1
                                            running := (t.unit u).running ++ [{ cmd := c, malformed := true }] } := by
  unfold Tile.reject Tile.begin
  rw [Tile.unit_onUnit_same, Tile.unit_of_units (congrArg Tile.units (t.flagBit_frame _ _)) u]
  rfl

/-- Tile `b` is `a` after unit `u` has rejected the command `c` at the head of its queue: MALFORMED is flagged, `c` waits to complete so,
and no memory, no unit's work and no other register changes. -/
def Tile.rejected (a b : Tile) (u : UnitC) (c : Cmd) : Prop :=
  bitOf (b.reg (errReg u)) 0 = true ∧ (b.unit u).queue = (a.unit u).queue.drop 1 ∧
    (∃ r, (b.unit u).running = (a.unit u).running ++ [r] ∧ r.cmd = c ∧ r.malformed = true) ∧ b.sp = a.sp ∧ b.la = a.la ∧
    b.trf = a.trf ∧ b.mu.active = a.mu.active ∧ b.mu.edges = a.mu.edges ∧ b.sh = a.sh ∧ b.outq = a.outq ∧
    bitOf (b.reg Reg.TC_EVT) 0 = true ∧ ∀ o, o ≠ errReg u → o ≠ Reg.TC_EVT → b.reg o = a.reg o

theorem Tile.reg_of_regs {a b : Tile} (h : a.regs = b.regs) (o : Nat) : a.reg o = b.reg o := by rw [Tile.reg, h, Tile.reg]

theorem Tile.reject_rejected (t : Tile) (u : UnitC) (c : Cmd) : t.rejected (t.reject u c) u c := by
  have hf := t.reject_frame u c
  have hreg := Tile.reg_of_regs (congrArg Tile.regs hf)
  refine ⟨?_, by rw [t.reject_unit], ⟨_, by rw [t.reject_unit], rfl, rfl⟩, by rw [hf], by rw [hf], by rw [hf], by rw [hf], by rw [hf],
    by rw [hf], by rw [hf], ?_, fun o ho he => ?_⟩
  · rw [hreg]
    exact t.bitOf_flagBit_self _ (by decide)
  · rw [hreg]
    exact t.bitOf_flagBit_evt _ (isUnitErr_errReg u)
  · rw [hreg]
    exact t.reg_flagBit_ne 0 ho he

/-- The FMT_W that the MU remembers of the command before is no part of what a rejection leaves alone (R76). -/
theorem Tile.rejected.setPrev {a b : Tile} {u : UnitC} {c : Cmd} (p : Option (BitVec 4)) (h : a.rejected b u c) :
    a.rejected { b with mu := { b.mu with prev := p } } u c := h

theorem Tile.startOp_rejects {t : Tile} {u : UnitC} {op : Nat} {malformed ready : Cmd → Bool} {run : Cmd → Tile} {c : Cmd}
    (hq : (t.unit u).queue.head? = some c) (hop : c.op = op) (hbad : (c.badFence || malformed c) = true) :
    t.startOp u op malformed ready run = t.reject u c := by
  obtain ⟨rest, hrest⟩ := List.head?_eq_some_iff.1 hq
  unfold Tile.startOp
  simp only [hrest]
  rw [if_neg (not_not.2 hop), if_pos hbad]

theorem Tile.muStart_rejected {t : Tile} (now : Nat) {op : Nat} (run : Cmd → Tile) {c : Cmd} (hq : (t.unit .mu).queue.head? = some c)
    (hop : c.op = op) (hbad : (c.badFence || t.muMalformed c) = true) : t.rejected (t.muStart now op run) .mu c := by
  obtain ⟨rest, hrest⟩ := List.head?_eq_some_iff.1 hq
  have hmu : t.units.mu.queue = c :: rest := hrest
  unfold Tile.muStart
  simp only [hmu]
  rw [if_pos (by simp [hop, hbad])]
  exact (t.reject_rejected .mu c).setPrev _

theorem laMalformed_of_ver {c : Cmd} (h : c.verOk = false) : laMalformed c = true := by simp [laMalformed, h]
theorem spMalformed_of_ver {c : Cmd} (h : c.verOk = false) : spMalformed c = true := by simp [spMalformed, h]
theorem shMalformed_of_ver {c : Cmd} (h : c.verOk = false) : shMalformed c = true := by simp [shMalformed, h]
theorem Tile.muMalformed_of_ver (t : Tile) {c : Cmd} (h : c.verOk = false) : t.muMalformed c = true := by simp [Tile.muMalformed, h]

/-- A wrong VER or a bit above the fence mask makes a command one to reject. -/
theorem Cmd.rejects {c : Cmd} {bad : Bool} (hm : c.verOk = false → bad = true) (h : c.verOk = false ∨ c.badFence = true) :
    (c.badFence || bad) = true := by
  rcases h with hv | hb
  · rw [hm hv, Bool.or_true]
  · rw [hb, Bool.true_or]

/-- A malformed command of the LA, SP or shuttle is rejected. -/
theorem completes_startOp_rejected {i : Instr} {s : State} {n : Site} {u : UnitC} {op : Nat} {malformed : Cmd → Bool}
    {ready : State → Tile → Cmd → Bool} {run : State → Tile → Cmd → Tile} {c : Cmd}
    (he : exec i s = live s fun s => s.onUnits n fun t => t.startOp u op malformed (ready s t) (run s t)) (h : s.inReset = false)
    (hp : s.powered n = true) (hq : ((s.tile n).unit u).queue.head? = some c) (hop : c.op = op)
    (hm : c.verOk = false → malformed c = true) (hbad : c.verOk = false ∨ c.badFence = true) :
    Completes i s fun t => s.onlyTile t n ∧ (s.tile n).rejected (t.tile n) u c := by
  refine completes_onUnits he h hp fun t ht htile => ⟨ht, ?_⟩
  rw [htile, Tile.startOp_rejects hq hop (Cmd.rejects hm hbad)]
  exact (s.tile n).reject_rejected u c

/-- So is one of the MU. -/
theorem completes_muStart_rejected {i : Instr} {s : State} {n : Site} {op : Nat} {run : State → Tile → Cmd → Tile} {c : Cmd}
    (he : exec i s = live s fun s => s.onUnits n fun t => t.muStart (s.cycleOf n) op (run s t)) (h : s.inReset = false)
    (hp : s.powered n = true) (hq : ((s.tile n).unit .mu).queue.head? = some c) (hop : c.op = op)
    (hbad : c.verOk = false ∨ c.badFence = true) :
    Completes i s fun t => s.onlyTile t n ∧ (s.tile n).rejected (t.tile n) .mu c := by
  refine completes_onUnits he h hp fun t ht htile => ⟨ht, ?_⟩
  rw [htile]
  exact Tile.muStart_rejected _ _ hq hop (Cmd.rejects (Tile.muMalformed_of_ver _) hbad)

/-! ## A reserved OP (R203) -/

theorem Tile.rejectOp_of_bad {t : Tile} {u : UnitC} {c : Cmd} {rest : List Cmd} (hq : (t.unit u).queue = c :: rest)
    (hbad : badOp u c.op = true) : ∃ m, t.rejectOp u = { t.reject u c with mu := m } := by
  unfold Tile.rejectOp
  simp only [hq, hbad, if_true]
  split
  · exact ⟨_, rfl⟩
  · exact ⟨_, rfl⟩

theorem badOp_of_reserved {u : UnitC} {op : Nat} (hu : u ≠ .vc)
    (h : op = 0 ∨ (if u = .mu then 3 else if u = .sh then 6 else 4) < op) : badOp u op = true := by
  cases u
  case vc => exact absurd rfl hu
  all_goals simpa [badOp] using h

theorem unitCommandComplete_reserved {s : State} {n : Site} {u : UnitC} {c : Cmd} {rest : List Cmd} {f : List (Nat × Nat)} {x : Bool}
    (h : s.inReset = false) (hp : s.powered n = true) (hr : ((s.tile n).unit u).running = [])
    (hq : ((s.tile n).unit u).queue = c :: rest) (hs : c.src = .core f x) (hbad : badOp u c.op = true) :
    Completes (.unitCommandComplete n u) s fun t => s.onlyTile t n ∧
      ((s.tile n).unit u).finished ((t.tile n).unit u) 1 0 ∧ ((t.tile n).unit u).queue = rest ∧
      bitOf ((t.tile n).reg (errReg u)) 0 = true ∧ (t.tile n).sp = (s.tile n).sp ∧ (t.tile n).trf = (s.tile n).trf := by
  refine completes_onUnits (by rfl) h hp fun t ht htile => ⟨ht, ?_⟩
  obtain ⟨m, hm⟩ := Tile.rejectOp_of_bad hq hbad
  let r : Run := { cmd := c, malformed := true }
  let b : Tile := { (s.tile n).reject u c with mu := m }
  have hunit : b.unit u = { (s.tile n).unit u with queue := rest, running := [r] } := by
    refine ((s.tile n).reject_unit u c).trans ?_
    rw [hr, hq]
    rfl
  have hrun : (b.unit u).running = r :: [] := by rw [hunit]
  have htry : (s.tile n).tryComplete (s.env n) u = b.tryComplete (s.env n) u := by
    unfold Tile.tryComplete
    rw [hr, hrun, hm]
    rfl
  obtain ⟨hflag, -, -, hsp, -, htrf, -⟩ := (s.tile n).reject_rejected u c
  have hreg := Tile.reg_of_regs (Tile.chargeErrors_regs (b.onUnit u fun x => { x with running := x.running.drop 1 }) u (r := r) rfl)
  rw [htile, htry, Tile.tryComplete_core _ hrun (f := f) (x := x) hs rfl, Tile.finish_ended_unit, hunit]
  refine ⟨UnitSt.finish_finished _ r, rfl, (congrArg (bitOf · 0) (hreg _)).trans hflag, ?_, ?_⟩
  · exact (congrArg Tile.sp (b.ended_frame u r)).trans hsp
  · exact (congrArg Tile.trf (b.ended_frame u r)).trans htrf

/-! ## The clauses of O18 -/

/-- The rows that start a command of the MU, LA, SP or shuttle, each with its unit and OP. -/
def startRows (n : Site) (ph : Phys) : List (Instr × UnitC × Nat) :=
  [(.mm n ph, .mu, 1), (.mmw n ph, .mu, 2), (.diag n ph, .mu, 3), (.zero n, .la, 1), (.preload n ph, .la, 2), (.drain n ph, .la, 3),
    (.exportRows n ph, .la, 4), (.fill n ph, .sp, 1), (.poke n ph, .sp, 2), (.scrub n ph, .sp, 3), (.spadv n, .sp, 4),
    (.put n ph, .sh, 1), (.get n ph, .sh, 2), (.skew n ph, .sh, 3), (.gather n ph, .sh, 4), (.expfwd n ph, .sh, 5),
    (.split n ph, .sh, 6)]

/-- A malformed command at the head of its queue is rejected by the row that would start it. -/
theorem startRows_reject {s : State} {n : Site} {ph : Phys} {c : Cmd} {e : Instr} {u : UnitC} {op : Nat} (h : s.inReset = false)
    (hp : s.powered n = true) (he : (e, u, op) ∈ startRows n ph) (hq : ((s.tile n).unit u).queue.head? = some c) (hop : c.op = op)
    (hbad : c.verOk = false ∨ c.badFence = true) :
    Completes e s fun t => s.onlyTile t n ∧ (s.tile n).rejected (t.tile n) u c := by
  simp only [startRows, List.mem_cons, Prod.mk.injEq, List.not_mem_nil, or_false] at he
  rcases he with ⟨rfl, rfl, rfl⟩ | ⟨rfl, rfl, rfl⟩ | ⟨rfl, rfl, rfl⟩ | ⟨rfl, rfl, rfl⟩ | ⟨rfl, rfl, rfl⟩ | ⟨rfl, rfl, rfl⟩ |
    ⟨rfl, rfl, rfl⟩ | ⟨rfl, rfl, rfl⟩ | ⟨rfl, rfl, rfl⟩ | ⟨rfl, rfl, rfl⟩ | ⟨rfl, rfl, rfl⟩ | ⟨rfl, rfl, rfl⟩ | ⟨rfl, rfl, rfl⟩ |
    ⟨rfl, rfl, rfl⟩ | ⟨rfl, rfl, rfl⟩ | ⟨rfl, rfl, rfl⟩ | ⟨rfl, rfl, rfl⟩
  iterate 3 exact completes_muStart_rejected (by simp only [exec]; rfl) h hp hq hop hbad
  iterate 4 exact completes_startOp_rejected (by simp only [exec]; rfl) h hp hq hop laMalformed_of_ver hbad
  iterate 4 exact completes_startOp_rejected (by simp only [exec]; rfl) h hp hq hop spMalformed_of_ver hbad
  iterate 6 exact completes_startOp_rejected (by simp only [exec]; rfl) h hp hq hop shMalformed_of_ver hbad

/-- The rows of a tile's units (R25). -/
def unitRows (n : Site) (ph : Phys) (u : UnitC) (ecc : Option EccKind) : List Instr :=
  [.unitCommandComplete n u, .mm n ph, .mmw n ph, .diag n ph, .edgeWordAdd n ecc, .zero n, .preload n ph, .drain n ph,
    .exportRows n ph, .vcOperation n ph, .trfYieldCycle n, .sfFieldsApply n, .fill n ph, .poke n ph, .scrub n ph, .spadv n,
    .eccWriteback n, .patrolScrub n ph, .put n ph, .get n ph, .skew n ph, .gather n ph, .expfwd n ph, .split n ph, .expfwdRow n ph]

theorem unitRows_unpowered {s : State} {n : Site} {ph : Phys} {u : UnitC} {ecc : Option EccKind} {e : Instr} (h : s.inReset = false)
    (hp : s.powered n = false) (he : e ∈ unitRows n ph u ecc) : Completes e s fun t => t = s := by
  simp only [unitRows, List.mem_cons, List.not_mem_nil, or_false] at he
  rcases he with rfl | rfl | rfl | rfl | rfl | rfl | rfl | rfl | rfl | rfl | rfl | rfl | rfl | rfl | rfl | rfl | rfl | rfl | rfl | rfl |
    rfl | rfl | rfl | rfl | rfl
  all_goals exact completes_unpowered (by simp only [exec]; rfl) h hp

/-- Settles O18 by its clauses: a core command, a sequencer's, one whose work goes on, a reserved OP, the rejections, and no power. -/
theorem unitCommandsCompleteOrAreRejected : Obligations.UnitCommandsCompleteOrAreRejected := by
  refine ⟨⟨?_, ?_, ?_, ?_⟩, ?_, ?_⟩
  · exact fun s n u r rest f x h hp hr hs hd => unitCommandComplete_core h hp hr hs hd
  · exact fun s n u r rest id h hp hr hs hb hd => unitCommandComplete_seq h hp hr hs hb hd
  · exact fun s n u r rest h hp hr hd => unitCommandComplete_unfinished h hp hr hd
  · exact fun s n u c rest f x h hp hr hq hs hu hop => unitCommandComplete_reserved h hp hr hq hs (badOp_of_reserved hu hop)
  · exact fun s n ph c e u op h hp he hq hop hbad => startRows_reject h hp he hq hop hbad
  · exact fun s n ph u ecc e h hp he => unitRows_unpowered h hp he

end Sys2Proof.Machine


/-! # Pattern records and the check of the active images (O31) -/

namespace Sys2Proof.Machine

/-! ## A record's packets (R303) -/

/-- The state in which the packets of a record have left the weft. -/
def State.recordTaken (s : State) (n : Site) (r : List Word) : State := (s.takeParts n r (recParts r)).getD s

/-- Their leaving changes what is on its way, and nothing else. -/
theorem State.recordTaken_frame (s : State) (n : Site) (r : List Word) :
    s.recordTaken n r = { s with net := (s.recordTaken n r).net } := by
  have hparts : ∀ t ∈ s.takeParts n r (recParts r), t = { s with net := t.net } := by
    refine List.foldlRecOn (motive := fun o : Option State => ∀ t ∈ o, t = { s with net := t.net }) _ _ ?_ fun o ho k _ t ht => ?_
    · intro t ht
      cases ht
      rfl
    · obtain ⟨v, hv, hvt⟩ := Option.bind_eq_some_iff.1 ht
      dsimp only at hvt
      split at hvt
      · cases hvt
        rw [ho v hv]
        rfl
      · cases hvt
  unfold State.recordTaken
  cases hp : s.takeParts n r (recParts r) with
  | none => rfl
  | some t => exact hparts t hp

theorem gotRecord_of_mayGet {s : State} {n : Site} {r : List Word} (f : State → State) (h : s.mayGetRecord n r = true) :
    s.gotRecord n r f = f (s.recordTaken n r) := by
  rw [State.gotRecord, if_pos h]
  rfl

/-- A record that has arrived at a powered site changes its tile, and the weft. -/
theorem completes_record {c : Instr} {s : State} {n : Site} {r : List Word} {f : Tile → Tile} {p : State → Prop}
    (he : exec c s = live s fun s => s.gotRecord n r fun s => s.onUnits n f) (h : s.inReset = false) (hp : s.powered n = true)
    (hg : s.mayGetRecord n r = true)
    (hq : ∀ t : State, t = { s with tiles := t.tiles, net := t.net } → (∀ m, m ≠ n → t.tile m = s.tile m) →
      t.tile n = f (s.tile n) → p t) : Completes c s p := by
  refine completes_live he h ?_
  rw [gotRecord_of_mayGet _ hg, s.recordTaken_frame]
  generalize (s.recordTaken n r).net = net
  rw [onUnits_of_powered _ (show ({ s with net := net } : State).powered n = true from hp)]
  refine hq _ ?_ (fun m hm => ?_) ?_
  · simp [State.leaves, State.onTile, State.setTile, h]
  · exact State.tile_onTile_ne { s with net := net } f hm
  · exact State.tile_onTile_same { s with net := net } n f

/-- At a site without compute power it leaves the weft, and that is all (R25). -/
theorem completes_record_unpowered {c : Instr} {s : State} {n : Site} {r : List Word} {f : Tile → Tile}
    (he : exec c s = live s fun s => s.gotRecord n r fun s => s.onUnits n f) (h : s.inReset = false) (hp : s.powered n = false) :
    Completes c s fun t => t = { s with net := t.net } := by
  refine completes_live he h ?_
  by_cases hg : s.mayGetRecord n r = true
  · rw [gotRecord_of_mayGet _ hg, s.recordTaken_frame]
    generalize (s.recordTaken n r).net = net
    rw [onUnits_of_unpowered _ (show ({ s with net := net } : State).powered n = false from hp)]
    simp [State.leaves, h]
  · rw [State.gotRecord, if_neg hg]
    simp [State.leaves, h]

theorem exec_patternRecord {s : State} {n : Site} {r : List Word} (ht : recType r ≠ 4) :
    exec (.patternRecord n r) s = live s fun s => s.gotRecord n r fun s => s.onUnits n fun t => t.patternRecord n r := by
  simp only [exec, execPatternRecord, if_neg ht]

theorem exec_patternEndRecord {s : State} {n : Site} {r : List Word} (ht : recType r = 4) :
    exec (.patternEndRecord n r) s = live s fun s => s.gotRecord n r fun s => s.onUnits n fun t => t.patternRecord n r := by
  simp only [exec, execPatternEndRecord, if_pos ht]

/-! ## What a record does (R304) -/

/-- A tile takes a record: it is LOADING the record's stitch, whose END has not come. -/
def Tile.takesRecord (t : Tile) (r : List Word) : Prop :=
  t.stitch.mode = .loading ∧ t.stitch.ended = false ∧ fld (r.getD 1 0) 16 16 = t.stitch.num.toNat

/-- The payload of a record. -/
def recPayload (r : List Word) : List Word := (r.drop 3).take (recNwords r)

section
variable {t : Tile} {me : Site} {r : List Word}

theorem Tile.takesRecord_iff : (t.stitch.mode == .loading && !t.stitch.ended && fld (r.getD 1 0) 16 16 == t.stitch.num.toNat) = true ↔
    t.takesRecord r := by
  simp [Tile.takesRecord, and_assoc]

theorem Tile.patternRecord_stray (h : ¬t.takesRecord r) : t.patternRecord me r = t.flagBit Reg.TC_EP_ERR 4 := by
  rw [← Tile.takesRecord_iff, Bool.not_eq_true] at h
  unfold Tile.patternRecord
  rw [h]
  rfl

theorem Tile.patternRecord_failed (h : t.takesRecord r) (hf : t.stitch.failed = true) : t.patternRecord me r = t := by
  unfold Tile.patternRecord
  rw [Tile.takesRecord_iff.2 h, if_neg (by decide), if_pos hf]

theorem Tile.patternRecord_badCrc (h : t.takesRecord r) (hf : t.stitch.failed = false) (hc : recCrcOk r = false) :
    t.patternRecord me r = (t.flagBit Reg.TC_EP_ERR 6).failStitch me 2 := by
  unfold Tile.patternRecord
  rw [Tile.takesRecord_iff.2 h, if_neg (by decide), hf, if_neg (by decide), hc]
  rfl

theorem Tile.patternRecord_badForm (h : t.takesRecord r) (hf : t.stitch.failed = false) (hc : recCrcOk r = true)
    (hk : recFormOk r t.stitch.new t.stitch.seqnos = false) :
    t.patternRecord me r = (t.flagBit Reg.TC_EP_ERR 5).failStitch me 3 := by
  unfold Tile.patternRecord
  rw [Tile.takesRecord_iff.2 h, if_neg (by decide), hf, if_neg (by decide), hc, if_neg (by decide), hk]
  rfl

theorem Tile.patternRecord_slot (h : t.takesRecord r) (hf : t.stitch.failed = false) (hc : recCrcOk r = true)
    (hk : recFormOk r t.stitch.new t.stitch.seqnos = true) (ht : recType r = 1) :
    t.patternRecord me r = { t.slotRecord me (recGroup r) (recOffset r) (recPayload r) with
      mu := t.noKeep.mu
      stitch := { t.stitch with seqnos := recSeqno r :: t.stitch.seqnos, groups := (recSeqno r, recGroup r) :: t.stitch.groups } } := by
  unfold Tile.patternRecord
  rw [Tile.takesRecord_iff.2 h, if_neg (by decide), hf, if_neg (by decide), hc, if_neg (by decide), hk, if_neg (by decide), ht]
  rfl

theorem Tile.patternRecord_code (h : t.takesRecord r) (hf : t.stitch.failed = false) (hc : recCrcOk r = true)
    (hk : recFormOk r t.stitch.new t.stitch.seqnos = true) (ht : recType r = 2) :
    t.patternRecord me r = { t with
      mu := t.noKeep.mu
      core := { t.core with imem := Memory.writeBytes t.core.imem (4 * recOffset r) (bytesOfWords (recPayload r)) }
      stitch := { t.stitch with seqnos := recSeqno r :: t.stitch.seqnos } } := by
  unfold Tile.patternRecord
  rw [Tile.takesRecord_iff.2 h, if_neg (by decide), hf, if_neg (by decide), hc, if_neg (by decide), hk, if_neg (by decide), ht]
  rfl

/-- A well-formed record of any type but SLOT and CODE is an END record. -/
theorem Tile.patternRecord_end (h : t.takesRecord r) (hf : t.stitch.failed = false) (hc : recCrcOk r = true)
    (hk : recFormOk r t.stitch.new t.stitch.seqnos = true) (h1 : recType r ≠ 1) (h2 : recType r ≠ 2) :
    t.patternRecord me r = t.endRecord me ((recPayload r).headD 0) := by
  unfold Tile.patternRecord
  rw [Tile.takesRecord_iff.2 h, if_neg (by decide), hf, if_neg (by decide), hc, if_neg (by decide), hk, if_neg (by decide)]
  dsimp only
  split
  next ht => exact absurd ht h1
  next ht => exact absurd ht h2
  next => rfl

theorem Tile.endRecord_frame (t : Tile) (me : Site) (w : Word) :
    t.endRecord me w = { t with stitch := (t.endRecord me w).stitch, outq := (t.endRecord me w).outq } := by
  unfold Tile.endRecord
  dsimp only
  split
  · rfl
  · split <;> rfl

theorem Tile.act_slotRecord (t : Tile) (me : Site) (g off : Nat) (ws : List Word) (j k : Nat) :
    (t.slotRecord me g off ws).act j k = t.act j k := by
  unfold Tile.slotRecord
  apply t.act_setGroup g
  rfl

/-- No record reaches an active slot (R297). -/
theorem Tile.act_patternRecord (t : Tile) (me : Site) (r : List Word) (j k : Nat) : (t.patternRecord me r).act j k = t.act j k := by
  by_cases h : t.takesRecord r
  · cases hf : t.stitch.failed
    · cases hc : recCrcOk r
      · rw [Tile.patternRecord_badCrc h hf hc]
        exact Tile.act_of_groups (t.flagBit_groups _ _) j k
      · cases hk : recFormOk r t.stitch.new t.stitch.seqnos
        · rw [Tile.patternRecord_badForm h hf hc hk]
          exact Tile.act_of_groups (t.flagBit_groups _ _) j k
        · by_cases h1 : recType r = 1
          · rw [Tile.patternRecord_slot h hf hc hk h1]
            exact t.act_slotRecord me _ _ _ j k
          · by_cases h2 : recType r = 2
            · rw [Tile.patternRecord_code h hf hc hk h2]
              rfl
            · rw [Tile.patternRecord_end h hf hc hk h1 h2, Tile.endRecord_frame]
              rfl
    · rw [Tile.patternRecord_failed h hf]
  · rw [Tile.patternRecord_stray h]
    exact Tile.act_of_groups (t.flagBit_groups _ _) j k

end

/-! ## SLOT records (R20, R297, R304) -/

theorem Tile.group_setGroup (t : Tile) (g : Nat) (x : GroupSt) (j : Nat) : (t.setGroup g x).group j = if j = g then x else t.group j :=
  Map.get_set _ _ _ _ _

/-- A record with a good check holds its whole payload. -/
theorem recPayload_length {r : List Word} (h : recCrcOk r = true) : (recPayload r).length = recNwords r := by
  simp only [recCrcOk, Bool.and_eq_true, decide_eq_true_eq] at h
  rw [recPayload, List.length_take, List.length_drop]
  omega

theorem recPayload_getD {r : List Word} {i : Nat} (h : i < recNwords r) : (recPayload r).getD i 0 = r.getD (3 + i) 0 := by
  rw [List.getD_eq_getElem?_getD, recPayload, List.getElem?_take_of_lt h, List.getElem?_drop, List.getD_eq_getElem?_getD]

/-- Consecutive words of an image, each written under its mask. -/
theorem slotWord_foldl_merge (g off : Nat) (mask : Nat → Word) (ws : List Word) (m : Map Word) (len k : Nat) :
    slotWord g ((List.range len).foldl (fun m i =>
        Map.upd (voidWord g) m (off + i) fun v => mergeMask (mask (off + i)) v (ws.getD i 0)) m) k =
      if off ≤ k ∧ k < off + len then mergeMask (mask k) (slotWord g m k) (ws.getD (k - off) 0) else slotWord g m k := by
  induction len with
  | zero => rw [if_neg (by omega)]; rfl
  | succ len ih =>
    rw [List.range_succ, List.foldl_append, List.foldl_cons, List.foldl_nil]
    generalize (List.range len).foldl _ m = m' at ih ⊢
    rw [slotWord, Map.upd, Map.get_set]
    change (if k = off + len then mergeMask _ (slotWord g m' _) _ else slotWord g m' k) = _
    by_cases hk : k = off + len
    · subst hk
      rw [if_pos rfl, ih, if_neg (by omega), if_pos (by omega), Nat.add_sub_cancel_left]
    · rw [if_neg hk, ih]
      by_cases hin : off ≤ k ∧ k < off + len
      · rw [if_pos hin, if_pos (by omega)]
      · rw [if_neg hin, if_neg (by omega)]

/-- A good SLOT record writes its image words, masked, into the standby slot of its group. -/
theorem Tile.slotRecord_standby (t : Tile) (me : Site) (g : Nat) {r : List Word} (hc : recCrcOk r = true) (k : Nat) :
    slotWord g ((t.slotRecord me g (recOffset r) (recPayload r)).group g).standby k =
      if recOffset r ≤ k ∧ k < recOffset r + recNwords r then
        mergeMask (seamWord me g (imageMask g k)) (slotWord g (t.group g).standby k) (r.getD (3 + (k - recOffset r)) 0)
      else slotWord g (t.group g).standby k := by
  unfold Tile.slotRecord
  rw [Tile.group_setGroup, if_pos rfl, slotWord_foldl_merge g _ fun k => seamWord me g (imageMask g k), recPayload_length hc]
  split
  next hk => rw [recPayload_getD (by omega)]
  next => rfl

/-! ## END records (R304, R306, R317) -/

/-- Every record that an END counts has come, and it names every group that one of them wrote. -/
def Tile.recordsComplete (t : Tile) (payload : Word) (gmask : BitVec 8) : Prop :=
  (∀ k, k < fld payload 0 12 → k ∈ t.stitch.seqnos) ∧ ∀ e ∈ t.stitch.groups, e.1 < fld payload 0 12 → bitOf gmask e.2 = true

/-- GMASK of an END record. -/
def endMask (payload : Word) : BitVec 8 := BitVec.ofNat 8 (fld payload 24 8)

theorem Tile.recordsComplete_iff (t : Tile) (w : Word) : t.recordsComplete w (endMask w) ↔
    (!(List.range (fld w 0 12)).all t.stitch.seqnos.contains ||
      !t.stitch.groups.all fun g => fld w 0 12 ≤ g.1 || bitOf (endMask w) g.2) = false := by
  simp only [Tile.recordsComplete, Bool.or_eq_false_iff, Bool.not_eq_false', List.all_eq_true, List.mem_range, List.contains_iff_mem,
    Bool.or_eq_true, decide_eq_true_eq]
  refine and_congr_right fun _ => forall₂_congr fun e _ => ?_
  rw [← not_lt, ← imp_iff_not_or]

theorem Tile.endRecord_incomplete {t : Tile} (me : Site) {w : Word} (h : ¬t.recordsComplete w (endMask w)) :
    t.endRecord me w =
      ({ t with stitch := { t.stitch with ended := true, gmask := endMask w, pend := endMask w } } : Tile).failStitch me 5 := by
  rw [Tile.recordsComplete_iff] at h
  unfold Tile.endRecord
  exact if_pos (Bool.eq_true_of_not_eq_false h)

theorem Tile.endRecord_complete {t : Tile} (me : Site) {w : Word} (h : t.recordsComplete w (endMask w))
    (hb : t.badEpoch (endMask w) t.stitch.new = false) :
    t.endRecord me w =
      ({ t with stitch := { t.stitch with ended := true, gmask := endMask w, pend := endMask w, mode := .armed } } : Tile).tell me
        (.armed t.stitch.num) := by
  rw [Tile.recordsComplete_iff] at h
  unfold Tile.endRecord
  exact (if_neg (Bool.eq_false_iff.1 h)).trans (if_neg (Bool.eq_false_iff.1 hb))

theorem recPayload_headD {r : List Word} {new : BitVec 4} {seen : List Nat} (h : recFormOk r new seen = true) :
    (recPayload r).headD 0 = r.getD 3 0 := by
  have hn : 0 < recNwords r := by
    simp only [recFormOk, Bool.and_eq_true, decide_eq_true_eq] at h
    omega
  have h0 := recPayload_getD hn
  rwa [← List.headD_eq_getD] at h0

/-! ## The void pattern (R300, R305) -/

theorem Tile.weaves.outlasts {a b : Tile} (h : a.weaves b) : a.outlasts b := h.2

theorem Tile.outlasts.foldl {α : Type} {a b : Tile} {f : Tile → α → Tile} (l : List α) (h : a.outlasts b)
    (hf : ∀ (t : Tile) x, t.outlasts (f t x)) : a.outlasts (l.foldl f b) :=
  List.foldlRecOn l f h fun t ht x _ => ht.trans (hf t x)

theorem Tile.abortUnit_outlasts (t : Tile) (e : Env) (u : UnitC) : t.outlasts (t.abortUnit e u) := by
  unfold Tile.abortUnit
  refine .foldl _ ⟨rfl, fun _ hp => hp, fun _ hi => hi⟩ fun t r => ?_
  dsimp only
  split
  · exact ⟨rfl, fun _ hp => hp, fun _ hi => hi⟩
  · exact (t.endFiring_weaves e _ _ _).outlasts
  · exact .refl t

theorem Tile.dropWork_outlasts (t : Tile) (u : UnitC) : t.outlasts (t.dropWork u) := by
  cases u <;> exact ⟨rfl, fun _ hp => hp, fun _ hi => hi⟩

theorem Tile.abortUnits_outlasts (t : Tile) (e : Env) (us : List UnitC) : t.outlasts (t.abortUnits e us) :=
  .foldl _ (.refl t) fun t u => (t.abortUnit_outlasts e u).trans (Tile.dropWork_outlasts _ u)

/-- Registers other than TC_EP_ERR back at their reset values. -/
theorem Tile.resetRegs_outlasts (t : Tile) {l : List Nat} (h : Reg.TC_EP_ERR ∉ l) : t.outlasts (t.resetRegs l) := by
  refine List.foldlRecOn (motive := t.outlasts) _ _ (.refl t) fun b hb o ho => hb.trans ⟨rfl, fun _ hp => hp, fun i hi => ?_⟩
  rw [Tile.reg_setReg, if_neg (by rintro heq; exact h (heq.symm ▸ ho))]
  exact hi

theorem Tile.voidCore_outlasts (t : Tile) : t.outlasts t.voidCore := by
  unfold Tile.voidCore
  refine Tile.outlasts.trans ?_ (Tile.resetRegs_outlasts _ (by decide))
  exact Tile.outlasts.foldl (b := t) _ (.refl t) fun t u => ⟨rfl, fun _ hp => hp, fun _ hi => hi⟩

theorem Tile.voidUnit_outlasts (t : Tile) (g : Nat) : t.outlasts (t.voidUnit g) := by
  unfold Tile.voidUnit
  split
  case h_6 => exact t.voidCore_outlasts
  case h_7 => exact .refl t
  all_goals exact Tile.outlasts.trans ⟨rfl, fun _ hp => hp, fun _ hi => hi⟩ (Tile.resetRegs_outlasts _ (by decide))

theorem Tile.noKeep_outlasts (t : Tile) : t.outlasts t.noKeep := ⟨rfl, fun _ hp => hp, fun _ hi => hi⟩

theorem Tile.clearCounts_outlasts (t : Tile) (u : Nat) : t.outlasts (t.clearCounts u) := ⟨rfl, fun _ hp => hp, fun _ hi => hi⟩

/-- The void pattern is loaded into its group once the group's units are void; what the tile has reported stays. -/
theorem Tile.voidGroup_eq (t : Tile) (e : Env) (g : Nat) (patbad : Bool) :
    ∃ v, t.outlasts v ∧ t.voidGroup e g patbad = v.setGroup g { GroupSt.reset with patbad := patbad } := by
  refine ⟨_, ?_, rfl⟩
  refine Tile.outlasts.trans (.foldl (unitsOfGroup g) (.refl t) fun t u => ?_) ((Tile.noKeep_outlasts _).trans (Tile.voidUnit_outlasts _ g))
  have hstop : t.outlasts ((((t.emptyQueues e.me u).endCurrent u).release e.me).setSeq u SeqSt.reset) :=
    ((((t.emptyQueues_weaves e.me u).trans (Tile.endCurrent_weaves _ u)).trans (Tile.release_weaves _ e.me)).trans
      (Tile.setSeq_weaves _ u _)).outlasts
  dsimp only
  refine Tile.outlasts.trans (Tile.outlasts.foldl _ hstop fun t p => ?_) (Tile.clearCounts_outlasts _ u)
  exact (t.setPortSt_weaves u p _).outlasts

/-! ## The check of the active images (R305) -/

/-- The active image of a group still has its check word. -/
def Tile.imagePasses (t : Tile) (g : Nat) : Bool := crc32cWords (slotImage g (t.group g).active) == (t.group g).keptWord g

/-- A tile has reported a pattern fault. -/
def Tile.patternFaulted (t : Tile) : Prop :=
  bitOf (t.reg Reg.TC_EP_ERR) 7 = true ∧ ∃ p ∈ t.outq, ∃ f : FaultMsg, p.body = .ctrl (.fault f) ∧ f.code = 0x08

theorem Tile.keepsReports.patternFaulted {a b : Tile} (h : a.keepsReports b) (ha : a.patternFaulted) : b.patternFaulted := by
  obtain ⟨hbit, p, hp, f, hbody, hcode⟩ := ha
  exact ⟨h.2 7 hbit, p, h.1 hp, f, hbody, hcode⟩

theorem Tile.raise_patternFaulted {t : Tile} (me : Site) (unit : Nat) (w : Word) (h : bitOf (t.reg Reg.TC_EP_ERR) 7 = true) :
    (t.raise me 0x08 unit w).patternFaulted :=
  ⟨h, _, List.mem_append_right _ (List.mem_singleton_self _), _, rfl, rfl⟩

/-- A pattern fault ends the unit's commands, loads the void pattern, flags PATBAD and reports. -/
theorem Tile.patternFault_eq (t : Tile) (e : Env) (g : Nat) :
    ∃ b unit w, t.outlasts b ∧ t.patternFault e g = ((b.voidGroup e g true).flagBit Reg.TC_EP_ERR 7).raise e.me 0x08 unit w := by
  unfold Tile.patternFault
  cases unitOfCode g with
  | none => exact ⟨t, _, _, .refl t, rfl⟩
  | some u => exact ⟨_, _, _, t.abortUnits_outlasts e [u], rfl⟩

/-- A group that fails its check is void, with PATBAD, and no other group changes; the fault is reported. -/
theorem Tile.patternFault_spec (t : Tile) (e : Env) (g : Nat) :
    (∀ j, (t.patternFault e g).group j = if j = g then { GroupSt.reset with patbad := true } else t.group j) ∧
      t.keepsReports (t.patternFault e g) ∧ (t.patternFault e g).patternFaulted := by
  obtain ⟨b, unit, w, hb, heq⟩ := t.patternFault_eq e g
  obtain ⟨v, hv, hvoid⟩ := b.voidGroup_eq e g true
  obtain ⟨hgroups, hkeep⟩ := hb.trans hv
  rw [heq, hvoid]
  let x : Tile := v.setGroup g { GroupSt.reset with patbad := true }
  refine ⟨fun j => ?_, ?_, Tile.raise_patternFaulted _ _ _ (x.bitOf_flagBit_self Reg.TC_EP_ERR (by decide))⟩
  · have hflag : ((x.flagBit Reg.TC_EP_ERR 7).raise e.me 0x08 unit w).groups = x.groups := x.flagBit_groups _ _
    rw [Tile.group, hflag, ← Tile.group, Tile.group_setGroup, Tile.group, Tile.group, hgroups]
  · exact (hkeep.trans (b := v) (c := x) ⟨fun _ hp => hp, fun _ hi => hi⟩).trans
      ((x.flagBit_weaves _ _).trans (Tile.raise_weaves _ _ _ _ _)).outlasts.2

/-- The check of distinct groups: each that fails becomes void and is reported, and the others stay. -/
theorem Tile.recheck_spec (t : Tile) (e : Env) {gs : List Nat} (hn : gs.Nodup) :
    (∀ j, (t.recheck e gs).group j =
        if j ∈ gs ∧ t.imagePasses j = false then { GroupSt.reset with patbad := true } else t.group j) ∧
      t.keepsReports (t.recheck e gs) ∧ ((∃ j ∈ gs, t.imagePasses j = false) → (t.recheck e gs).patternFaulted) ∧
      ((∀ j ∈ gs, t.imagePasses j = true) → t.recheck e gs = t) := by
  induction gs generalizing t with
  | nil => exact ⟨fun j => by simp [Tile.recheck], .refl t, fun ⟨j, hj, _⟩ => absurd hj List.not_mem_nil, fun _ => rfl⟩
  | cons g gs ih =>
    obtain ⟨hg, hn⟩ := List.nodup_cons.1 hn
    cases hp : t.imagePasses g with
    | true =>
      have hstep : t.recheck e (g :: gs) = t.recheck e gs := congrArg (fun b => Tile.recheck b e gs) (if_pos hp)
      obtain ⟨hgroup, hkeep, hfault, hsame⟩ := ih t hn
      rw [hstep]
      refine ⟨fun j => ?_, hkeep, ?_, fun h => hsame fun j hj => h j (List.mem_cons_of_mem _ hj)⟩
      · rw [hgroup]
        by_cases hj : j = g
        · simp [hj, hp]
        · simp [hj]
      · rintro ⟨j, hj, hfail⟩
        rcases List.mem_cons.1 hj with rfl | hj
        · rw [hp] at hfail
          cases hfail
        · exact hfault ⟨j, hj, hfail⟩
    | false =>
      obtain ⟨fgroup, fkeep, ffault⟩ := t.patternFault_spec e g
      have hstep : t.recheck e (g :: gs) = (t.patternFault e g).recheck e gs :=
        congrArg (fun b => Tile.recheck b e gs) (if_neg (Bool.eq_false_iff.1 hp))
      obtain ⟨hgroup, hkeep, -, -⟩ := ih (t.patternFault e g) hn
      have hother : ∀ j, j ≠ g → (t.patternFault e g).imagePasses j = t.imagePasses j := fun j hj => by
        rw [Tile.imagePasses, fgroup, if_neg hj, Tile.imagePasses]
      rw [hstep]
      refine ⟨fun j => ?_, fkeep.trans hkeep, fun _ => hkeep.patternFaulted ffault, fun h => ?_⟩
      · rw [hgroup, fgroup]
        by_cases hj : j = g
        · simp [hj, hp, hg]
        · simp [hj, hother j hj]
      · have := h g List.mem_cons_self
        rw [hp] at this
        cases this

theorem Tile.imagePasses_iff (t : Tile) (g : Nat) :
    t.imagePasses g = true ↔ crc32cWords (slotImage g (t.group g).active) = (t.group g).keptWord g := by
  rw [Tile.imagePasses, beq_iff_eq]

theorem Tile.imagePasses_eq_false (t : Tile) (g : Nat) :
    t.imagePasses g = false ↔ ¬crc32cWords (slotImage g (t.group g).active) = (t.group g).keptWord g := by
  rw [← Tile.imagePasses_iff, Bool.not_eq_true]

/-! ## The clauses of O31 -/

/-- A good SLOT record: the standby slot of its group, and the list of the records received. -/
theorem Tile.patternRecord_slot_effect {t : Tile} {me : Site} {r : List Word} (h : t.takesRecord r) (hf : t.stitch.failed = false)
    (hc : recCrcOk r = true) (hk : recFormOk r t.stitch.new t.stitch.seqnos = true) (ht : recType r = 1) :
    (∀ k, slotWord (recGroup r) ((t.patternRecord me r).group (recGroup r)).standby k =
      if recOffset r ≤ k ∧ k < recOffset r + recNwords r then
        mergeMask (seamWord me (recGroup r) (imageMask (recGroup r) k)) (slotWord (recGroup r) (t.group (recGroup r)).standby k)
          (r.getD (3 + (k - recOffset r)) 0)
      else slotWord (recGroup r) (t.group (recGroup r)).standby k) ∧
    (∀ j, j ≠ recGroup r → (t.patternRecord me r).group j = t.group j) ∧ (t.patternRecord me r).core = t.core ∧
    (t.patternRecord me r).regs = t.regs ∧ (t.patternRecord me r).stitch.seqnos = recSeqno r :: t.stitch.seqnos ∧
    (t.patternRecord me r).outq = t.outq := by
  rw [Tile.patternRecord_slot h hf hc hk ht]
  refine ⟨fun k => t.slotRecord_standby me _ hc k, fun j hj => ?_, rfl, rfl, rfl, rfl⟩
  exact (t.group_setGroup _ _ j).trans (if_neg hj)

theorem Tile.flagBit_core (t : Tile) (off bit : Nat) : (t.flagBit off bit).core = t.core := by rw [t.flagBit_frame]
theorem Tile.flagBit_stitch (t : Tile) (off bit : Nat) : (t.flagBit off bit).stitch = t.stitch := by rw [t.flagBit_frame]

/-- A record that fails its check: CRCERR, and the stitch FAILED and answered so. -/
theorem Tile.patternRecord_badCrc_effect {t : Tile} {me : Site} {r : List Word} (h : t.takesRecord r) (hf : t.stitch.failed = false)
    (hc : recCrcOk r = false) :
    (t.patternRecord me r).groups = t.groups ∧ bitOf ((t.patternRecord me r).reg Reg.TC_EP_ERR) 6 = true ∧
      (t.patternRecord me r).stitch.failed = true ∧ (t.patternRecord me r).core = t.core ∧
      ∃ p ∈ (t.patternRecord me r).outq, p.dst = .att (fieldNo me) ∧ p.body = .ctrl (.failed t.stitch.num 2) := by
  rw [Tile.patternRecord_badCrc h hf hc]
  refine ⟨t.flagBit_groups _ _, t.bitOf_flagBit_self Reg.TC_EP_ERR (by decide), rfl, t.flagBit_core _ _,
    _, List.mem_append_right _ (List.mem_singleton_self _), rfl, ?_⟩
  exact congrArg (fun x : StitchSt => PktBody.ctrl (.failed x.num 2)) (t.flagBit_stitch _ _)

/-- An END record that passes the first checks. -/
theorem Tile.patternRecord_end_effect {t : Tile} {me : Site} {r : List Word} (h : t.takesRecord r) (hf : t.stitch.failed = false)
    (hc : recCrcOk r = true) (hk : recFormOk r t.stitch.new t.stitch.seqnos = true) (ht : recType r = 4) :
    (t.patternRecord me r).groups = t.groups ∧ (t.patternRecord me r).core = t.core ∧
      (t.recordsComplete (r.getD 3 0) (endMask (r.getD 3 0)) → t.badEpoch (endMask (r.getD 3 0)) t.stitch.new = false →
        (t.patternRecord me r).stitch.mode = .armed ∧ (t.patternRecord me r).stitch.pend = endMask (r.getD 3 0) ∧
          (t.patternRecord me r).stitch.gmask = endMask (r.getD 3 0) ∧
          ∃ p ∈ (t.patternRecord me r).outq, p.body = .ctrl (.armed t.stitch.num)) ∧
      (¬t.recordsComplete (r.getD 3 0) (endMask (r.getD 3 0)) →
        (t.patternRecord me r).stitch.failed = true ∧ (t.patternRecord me r).stitch.mode = .loading ∧
          (t.patternRecord me r).stitch.pend = endMask (r.getD 3 0) ∧
          ∃ p ∈ (t.patternRecord me r).outq, p.body = .ctrl (.failed t.stitch.num 5)) := by
  rw [Tile.patternRecord_end h hf hc hk (by omega) (by omega), recPayload_headD hk]
  refine ⟨by rw [Tile.endRecord_frame], by rw [Tile.endRecord_frame], fun hcomp hb => ?_, fun hcomp => ?_⟩
  · rw [Tile.endRecord_complete me hcomp hb]
    exact ⟨rfl, rfl, rfl, _, List.mem_append_right _ (List.mem_singleton_self _), rfl⟩
  · rw [Tile.endRecord_incomplete me hcomp]
    exact ⟨rfl, h.1, rfl, _, List.mem_append_right _ (List.mem_singleton_self _), rfl⟩

/-- The check of the images as the tile `a` holds them, upsets and all. -/
theorem activeImageCheck_effect {s : State} {n : Site} {flips : List ImageFlip} (h : s.inReset = false) (hp : s.powered n = true)
    {a : Tile} (ha : (s.tile n).flipImage flips = a) :
    Completes (.activeImageCheck n flips) s fun t => s.onlyTile t n ∧
      (∀ g, g < 7 → a.imagePasses g = true → (t.tile n).group g = a.group g) ∧
      (∀ g, g < 7 → a.imagePasses g = false →
        (t.tile n).group g = { GroupSt.reset with patbad := true } ∧ (t.tile n).patternFaulted) ∧
      ((∀ g, g < 7 → a.imagePasses g = true) → t.tile n = a) := by
  refine completes_onUnits (by simp only [exec]; rfl) h hp fun t ht htile => ⟨ht, ?_⟩
  rw [htile, ha]
  obtain ⟨hgroup, -, hfault, hsame⟩ := a.recheck_spec (s.env n) List.nodup_range (gs := List.range 7)
  simp only [List.mem_range] at hgroup hfault hsame
  refine ⟨fun g _ hok => ?_, fun g hg hbad => ⟨?_, hfault ⟨g, hg, hbad⟩⟩, hsame⟩
  · rw [hgroup, if_neg (by simp [hok])]
  · rw [hgroup, if_pos ⟨hg, hbad⟩]

/-- Settles O31 by its clauses: records of SLOT, CODE and other types, END records, no power, and the check of the images. -/
theorem patternRecordsLoadAndArm : Obligations.PatternRecordsLoadAndArm := by
  refine ⟨fun s n r h hp hg ht => ?_, fun s n r h hp hg ht hc hk hmode hended hf hnum => ?_, fun s n r h hp => ⟨fun ht => ?_, fun ht => ?_⟩,
    fun s n flips h hp => ?_⟩
  · refine completes_record (exec_patternRecord ht) h hp hg fun t hframe hother htile => ⟨hframe, hother, ?_⟩
    rw [htile]
    refine ⟨Tile.act_patternRecord _ n r, fun hm hf hgood h1 => ?_, fun hm hf hgood h2 => ?_, fun hm hf hc => ?_, fun hm => ?_⟩
    · exact Tile.patternRecord_slot_effect hm hf hgood.1 hgood.2 h1
    · rw [Tile.patternRecord_code hm hf hgood.1 hgood.2 h2]
      exact ⟨rfl, rfl⟩
    · exact Tile.patternRecord_badCrc_effect hm hf hc
    · exact Tile.patternRecord_stray hm
  · refine completes_record (exec_patternEndRecord ht) h hp hg fun t hframe hother htile => ⟨hframe, hother, ?_⟩
    rw [htile]
    exact Tile.patternRecord_end_effect ⟨hmode, hended, hnum⟩ hf hc hk ht
  · exact completes_record_unpowered (exec_patternRecord ht) h hp
  · exact completes_record_unpowered (exec_patternEndRecord ht) h hp
  · obtain ⟨t, hexec, honly, hpass, hfail, hsame⟩ := activeImageCheck_effect (flips := flips) h hp rfl
    simp only [Tile.imagePasses_iff, Tile.imagePasses_eq_false] at hpass hfail hsame
    refine ⟨t, hexec, honly, hpass, fun g hg hbad => ?_, hsame⟩
    obtain ⟨hgroup, hbit, hpkt⟩ := hfail g hg hbad
    refine ⟨fun k => ?_, by rw [hgroup], by rw [hgroup]; rfl, hbit, hpkt⟩
    rw [Tile.act, hgroup]
    rfl

end Sys2Proof.Machine


/-! # The long accumulator: what its operations leave as it is, and what they store (O21) -/

namespace Sys2Proof.Machine

/-! ## Commands that start (R203, R211) -/

theorem Tile.startOp_starts {t : Tile} {u : UnitC} {op : Nat} {bad ready : Cmd → Bool} {run : Cmd → Tile} {c : Cmd}
    (hs : t.starts u op bad c) (hr : ready c = true) : t.startOp u op bad ready run = run c := by
  obtain ⟨hq, hop, hfence, hbad, hmet⟩ := hs
  obtain ⟨rest, hrest⟩ := List.head?_eq_some_iff.1 hq
  unfold Tile.startOp
  simp only [hrest]
  rw [if_neg (not_not.2 hop), if_neg (by simp [hfence, hbad]), if_pos (by simp [hmet, hr])]

/-- The row of a command that may start runs it at its site. -/
theorem completes_startOp {i : Instr} {s : State} {n : Site} {u : UnitC} {op : Nat} {bad : Cmd → Bool}
    {ready : State → Tile → Cmd → Bool} {run : State → Tile → Cmd → Tile} {c : Cmd} {p : State → Prop}
    (he : exec i s = live s fun s => s.onUnits n fun t => t.startOp u op bad (ready s t) (run s t)) (h : s.inReset = false)
    (hp : s.powered n = true) (hs : (s.tile n).starts u op bad c) (hr : ready s (s.tile n) c = true)
    (hq : ∀ t : State, s.onlyTile t n → t.tile n = run s (s.tile n) c → p t) : Completes i s p :=
  completes_onUnits he h hp fun t ht htile => hq t ht (htile.trans (Tile.startOp_starts hs hr))

theorem Tile.started_begin {a v : Tile} {u : UnitC} {c : Cmd} {r : Run} (hv : v.unit u = a.unit u) (hc : r.cmd = c)
    (hm : r.malformed = false) : a.started (v.begin u r) u c := by
  obtain ⟨hqueue, hrun⟩ := v.begin_unit u r
  refine ⟨by rw [hqueue, hv], r, ?_, hc, hm, ?_⟩
  · rw [hrun, List.getLast?_concat]
  · rw [hrun, hv, List.length_append, List.length_singleton]

/-- The newest command in progress may be changed in anything but its words. -/
theorem Tile.started.onLast {a b : Tile} {u : UnitC} {c : Cmd} {f : Run → Run} (h : a.started b u c)
    (hf : ∀ r, (f r).cmd = r.cmd ∧ (f r).malformed = r.malformed) : a.started (b.onLast u f) u c := by
  obtain ⟨hqueue, r, hlast, hc, hm, hlen⟩ := h
  obtain ⟨rs, hrs⟩ := List.getLast?_eq_some_iff.1 hlast
  have hunit : (b.onLast u f).unit u = { b.unit u with running := rs ++ [f r] } := by
    rw [Tile.onLast, Tile.unit_onUnit_same, hrs]
    simp
  refine ⟨by rw [hunit]; exact hqueue, f r, by rw [hunit]; exact List.getLast?_concat, (hf r).1.trans hc, (hf r).2.trans hm, ?_⟩
  rw [hunit, ← hlen, hrs]
  simp

theorem Tile.started.of_unit {a b b' : Tile} {u : UnitC} {c : Cmd} (h : a.started b u c) (hb : b'.unit u = b.unit u) :
    a.started b' u c := by
  unfold Tile.started
  rw [hb]
  exact h

/-! ## What the operations of the LA leave as it is -/

/-- What an LA command leaves as it is before it joins the commands in progress: the MU, the core, the patterns and the LA's queue. -/
def Tile.aside (t : Tile) : MuSt × CoreSt × Map GroupSt × UnitSt := (t.mu, t.core, t.groups, t.unit .la)

/-- That, and where its results go: the scratchpad's bytes, the tile registers, and the rows exported. -/
def Tile.outside (t : Tile) : (MuSt × CoreSt × Map GroupSt × UnitSt) × Memory × Map Word × List ExpRow :=
  (t.aside, t.sp.mem, t.trf, t.la.exports ++ t.la.late)

/-- The limbs of each element. -/
def Tile.limbs (t : Tile) (k : Nat) : BitVec 640 := (t.laElem k).limbs

/-- All that, as every operation leaves it that writes no value into an element. -/
def Tile.kept (t : Tile) :
    ((MuSt × CoreSt × Map GroupSt × UnitSt) × Memory × Map Word × List ExpRow) × (Nat → BitVec 640) := (t.outside, t.limbs)

/-- All that with the LA's elements, weight counts and stored errors: what operations beside the LA leave as it is. -/
def Tile.laView (t : Tile) :
    ((MuSt × CoreSt × Map GroupSt × UnitSt) × Memory × Map Word × List ExpRow) × Map LaElem × Map Nat × Map (Option EccKind) :=
  (t.outside, t.la.elems, t.la.weight, t.la.bad)

theorem Tile.kept_of_laView {a b : Tile} (h : b.laView = a.laView) : b.kept = a.kept := by
  simp only [Tile.laView, Prod.mk.injEq] at h
  obtain ⟨hout, helems, -, -⟩ := h
  have hlimbs : b.limbs = a.limbs := by
    funext k
    rw [Tile.limbs, Tile.laElem, helems, Tile.limbs, Tile.laElem]
  rw [Tile.kept, hout, hlimbs, Tile.kept]

/-! ### Operations beside the LA -/

@[simp] theorem Tile.flagBit_laView (t : Tile) (off bit : Nat) : (t.flagBit off bit).laView = t.laView := by
  rw [t.flagBit_frame]
  rfl

@[simp] theorem Tile.count_laView (t : Tile) (off k : Nat) : (t.count off k).laView = t.laView := rfl
@[simp] theorem Tile.raise_laView (t : Tile) (me : Site) (code unit : Nat) (w : Word) : (t.raise me code unit w).laView = t.laView := rfl

@[simp] theorem Tile.err_laView (t : Tile) (cls : Nat) : (t.err cls).laView = t.laView := by
  rw [t.err_frame]
  rfl

theorem Tile.spFrame.laView {a b : Tile} (h : a.spFrame b) : b.laView = a.laView := by
  obtain ⟨hframe, hmem⟩ := h
  rw [hframe]
  unfold Tile.laView Tile.outside
  rw [hmem]
  rfl

@[simp] theorem Tile.fetch_laView (t : Tile) (me : Site) (rows : List Nat) : (t.fetch me rows).1.laView = t.laView :=
  (t.readRows_spFrame me _).laView

@[simp] theorem Tile.laDraws_laView (t : Tile) (c : Cmd) (srexp : Bool) : (t.laDraws c srexp).2.laView = t.laView := by
  unfold Tile.laDraws
  split <;> rfl

theorem Tile.onUnit_laView (t : Tile) {u : UnitC} (f : UnitSt → UnitSt) (h : u ≠ .la) : (t.onUnit u f).laView = t.laView := by
  unfold Tile.laView Tile.outside Tile.aside
  rw [t.unit_onUnit_ne f h.symm]
  rfl

theorem Tile.privConf_laView (t : Tile) {u : UnitC} (flag bit : Nat) (p : Run → Bool) (h : u ≠ .la) :
    (t.privConf u flag bit p).laView = t.laView := by
  unfold Tile.privConf
  split
  · rw [Tile.onUnit_laView _ _ h, Tile.flagBit_laView]
  · rfl

@[simp] theorem Tile.conflict_laView (t : Tile) (own : Nat) (x : Conflict) : (t.conflict own x).laView = t.laView := by
  have hflag : ∀ w : Word, (((t.flagBit Reg.SP_ERR 3).count Reg.SP_CONF_COUNT 1).setReg Reg.SP_CONF_LAST w).laView = t.laView :=
    fun _ => t.flagBit_laView _ _
  unfold Tile.conflict
  split
  · rfl
  · dsimp only
    repeat' split
    all_goals simp [Tile.privConf_laView, hflag]

/-- Physical events leave every value (R133, R229, R234). -/
theorem Tile.phys_kept (t : Tile) (ph : Phys) : (t.phys ph).kept = t.kept :=
  (Tile.kept_of_laView (foldl_keeps Tile.laView (fun t x => Tile.conflict_laView t 0 x) ph.conf _)).trans rfl

/-! ### Operations of the LA -/

theorem Tile.laElem_setLaElem (t : Tile) (k : Nat) (x : LaElem) (j : Nat) :
    (t.setLaElem k x).laElem j = if j = k then x else t.laElem j := Map.get_set _ _ _ _ _

/-- An element changed in its TAG, POISON or carries keeps its limbs. -/
theorem Tile.setLaElem_kept (t : Tile) (k : Nat) (x : LaElem) (h : x.limbs = (t.laElem k).limbs) : (t.setLaElem k x).kept = t.kept := by
  refine Prod.ext rfl (funext fun j => ?_)
  change ((t.setLaElem k x).laElem j).limbs = (t.laElem j).limbs
  rw [t.laElem_setLaElem]
  split
  next hj => rw [h, hj]
  next => rfl

theorem Tile.laFound_kept (t : Tile) (me : Site) (k : Nat) (e : EccKind) : (t.laFound me k e).kept = t.kept := by
  cases e with
  | ce => exact Tile.kept_of_laView ((Tile.count_laView _ _ _).trans (t.flagBit_laView _ _))
  | ue => exact (Tile.kept_of_laView ((Tile.raise_laView _ _ _ _ _).trans (Tile.flagBit_laView _ _ _))).trans (t.setLaElem_kept k _ rfl)

/-- The check of an element's words writes no value (R133). -/
@[simp] theorem Tile.laCheck_kept (t : Tile) (me : Site) (k : Nat) (ecc : Option EccKind) : (t.laCheck me k ecc).kept = t.kept := by
  unfold Tile.laCheck
  refine (foldl_keeps Tile.kept (fun t e => t.laFound_kept me k e) _ _).trans ?_
  split <;> rfl

theorem Tile.laCheck_of_no_errors {t : Tile} (h : t.la.bad = []) (me : Site) (k : Nat) : t.laCheck me k none = t := by
  unfold Tile.laCheck
  rw [h]
  rfl

theorem Tile.setWeight_kept (t : Tile) (m : Map Nat) : ({ t with la := { t.la with weight := m } } : Tile).kept = t.kept := rfl

theorem Tile.setTag_kept (t : Tile) (k : Nat) (g : BitVec 2) : (t.setLaElem k { t.laElem k with tag := g }).kept = t.kept :=
  t.setLaElem_kept k _ rfl

/-- The count of a row's product weight changes TAGs at most (R111). -/
@[simp] theorem Tile.addWeight_kept (t : Tile) (buf : Bool) (r n : Nat) : (t.addWeight buf r n).kept = t.kept := by
  unfold Tile.addWeight
  generalize Map.get noWeight t.la.weight (laRowKey buf r) + n = w
  dsimp only
  rw [apply_ite Tile.kept, Tile.kept_of_laView (Tile.flagBit_laView _ _ _),
    foldl_keeps Tile.kept (fun t col => t.setTag_kept (laKey buf (32 * r + col)) 3), Tile.setWeight_kept, ite_self]

/-- A row rewritten to zero, and no other element (R123, R129). -/
theorem Tile.laElem_laClearRow (t : Tile) (buf : Bool) (r k : Nat) :
    (t.laClearRow buf r).laElem k =
      if laKey buf (32 * r) ≤ k ∧ k < laKey buf (32 * r) + 32 then LaElem.zero else t.laElem k := by
  have h := Map.get_filter noElem (fun j => decide (j < laKey buf (32 * r)) || decide (laKey buf (32 * r) + 32 ≤ j)) t.la.elems k
  refine h.trans ?_
  by_cases hk : laKey buf (32 * r) ≤ k ∧ k < laKey buf (32 * r) + 32
  · rw [if_pos hk, if_neg (by simp; omega)]
    rfl
  · rw [if_neg hk, if_pos (by simp; omega)]
    rfl

/-- From `a` to `b` no limbs change but those of elements in `S`, and nothing outside the LA. -/
def Tile.laOnly (S : Nat → Prop) (a b : Tile) : Prop := b.outside = a.outside ∧ ∀ k, ¬S k → b.limbs k = a.limbs k

theorem Tile.laOnly.of_kept {S : Nat → Prop} {a b : Tile} (h : b.kept = a.kept) : a.laOnly S b := by
  simp only [Tile.kept, Prod.mk.injEq] at h
  exact ⟨h.1, fun k _ => congrFun h.2 k⟩

theorem Tile.laOnly.trans {S : Nat → Prop} {a b c : Tile} (h : a.laOnly S b) (k : b.laOnly S c) : a.laOnly S c :=
  ⟨k.1.trans h.1, fun j hj => (k.2 j hj).trans (h.2 j hj)⟩

theorem Tile.laOnly.mono {S T : Nat → Prop} {a b : Tile} (h : a.laOnly S b) (hst : ∀ k, S k → T k) : a.laOnly T b :=
  ⟨h.1, fun k hk => h.2 k fun hs => hk (hst k hs)⟩

/-- Many such operations, one for each element of a list, are one. -/
theorem Tile.laOnly.foldl {α : Type} {S : Nat → Prop} {a b : Tile} {f : Tile → α → Tile} (l : List α) (h : a.laOnly S b)
    (hf : ∀ t : Tile, ∀ x ∈ l, t.laOnly S (f t x)) : a.laOnly S (l.foldl f b) :=
  List.foldlRecOn l f h fun t ht x hx => ht.trans (hf t x hx)

theorem Tile.laClearRow_laOnly (t : Tile) (buf : Bool) (r : Nat) :
    t.laOnly (fun k => laKey buf (32 * r) ≤ k ∧ k < laKey buf (32 * r) + 32) (t.laClearRow buf r) :=
  ⟨rfl, fun k hk => congrArg LaElem.limbs ((t.laElem_laClearRow buf r k).trans (if_neg hk))⟩

theorem Tile.setLaElem_laOnly (t : Tile) (k : Nat) (x : LaElem) : t.laOnly (fun j => j = k) (t.setLaElem k x) :=
  ⟨rfl, fun j hj => congrArg LaElem.limbs ((t.laElem_setLaElem k x j).trans (if_neg hj))⟩

/-- An LA command that has changed what it may has started once it joins the commands in progress. -/
theorem Tile.laStarted_begin {a v : Tile} {c : Cmd} {r : Run} (haside : v.aside = a.aside)
    (hlimbs : ∀ k, ¬laSelects c k → v.limbs k = a.limbs k) (hc : r.cmd = c) (hm : r.malformed = false) :
    a.laStarted (v.begin .la r) c := by
  simp only [Tile.aside, Prod.mk.injEq] at haside
  obtain ⟨hmu, hcore, hgroups, hunit⟩ := haside
  exact ⟨Tile.started_begin hunit hc hm, hmu, hcore, hgroups, hlimbs⟩

theorem Tile.laOnly.laStarted {a v : Tile} {c : Cmd} {r : Run} (h : a.laOnly (laSelects c) v) (hc : r.cmd = c)
    (hm : r.malformed = false) : a.laStarted (v.begin .la r) c :=
  Tile.laStarted_begin (congrArg Prod.fst h.1) h.2 hc hm

/-! ## The rows of a command (R116, R119) -/

theorem mem_laRows {c : Cmd} {k : Nat} : k ∈ laRows c ↔ k < laNrow c ∧ bitOf (c.w 3) k = true := by simp [laRows]

/-- Buffer row ROW0 + `k` of a command holds element `j`. -/
def laInRow (c : Cmd) (k j : Nat) : Prop :=
  laKey (laBuf c) (32 * (laRow0 c + k)) ≤ j ∧ j < laKey (laBuf c) (32 * (laRow0 c + k)) + 32

theorem laSelects_of_inRow {c : Cmd} {k j : Nat} (hk : k ∈ laRows c) (hj : laInRow c k j) : laSelects c j :=
  ⟨k, (mem_laRows.1 hk).1, (mem_laRows.1 hk).2, hj.1, hj.2⟩

theorem laSelects_iff {c : Cmd} {j : Nat} : laSelects c j ↔ ∃ k ∈ laRows c, laInRow c k j :=
  ⟨fun ⟨k, hk, hbit, hj⟩ => ⟨k, mem_laRows.2 ⟨hk, hbit⟩, hj⟩, fun ⟨_, hk, hj⟩ => laSelects_of_inRow hk hj⟩

/-! ## ZERO (R123) -/

/-- Rows rewritten to zero: each of their elements, and no other. -/
theorem Tile.laElem_clearRows (c : Cmd) (ks : List Nat) (t : Tile) (j : Nat) :
    ((∃ k ∈ ks, laInRow c k j) →
      (ks.foldl (fun t k => t.laClearRow (laBuf c) (laRow0 c + k)) t).laElem j = LaElem.zero) ∧
    ((¬∃ k ∈ ks, laInRow c k j) →
      (ks.foldl (fun t k => t.laClearRow (laBuf c) (laRow0 c + k)) t).laElem j = t.laElem j) := by
  induction ks using List.reverseRecOn with
  | nil => simp
  | append_singleton ks k ih =>
    obtain ⟨ihin, ihout⟩ := ih
    rw [List.foldl_append, List.foldl_cons, List.foldl_nil, Tile.laElem_laClearRow]
    by_cases hk : laInRow c k j
    · rw [if_pos ⟨hk.1, hk.2⟩]
      exact ⟨fun _ => rfl, fun h => absurd ⟨k, by simp, hk⟩ h⟩
    · rw [if_neg (show ¬(_ ∧ _) from hk)]
      refine ⟨fun ⟨i, hi, hij⟩ => ihin ⟨i, ?_, hij⟩, fun h => ihout fun ⟨i, hi, hij⟩ => h ⟨i, by simp [hi], hij⟩⟩
      rcases List.mem_append.1 hi with hi | hi
      · exact hi
      · exact absurd (List.mem_singleton.1 hi ▸ hij) hk

theorem zero_clears {s : State} {n : Site} {c : Cmd} (h : s.inReset = false) (hp : s.powered n = true)
    (hr : (s.tile n).laReady (s.cycleOf n) c = true) (hs : (s.tile n).starts .la 1 laMalformed c) :
    Completes (.zero n) s fun t => s.onlyTile t n ∧ (s.tile n).laStarted (t.tile n) c ∧
      (∀ k, laSelects c k → (t.tile n).laElem k = LaElem.zero) ∧
      (∀ k, ¬laSelects c k → (t.tile n).laElem k = (s.tile n).laElem k) ∧
      (t.tile n).sp = (s.tile n).sp ∧ (t.tile n).trf = (s.tile n).trf := by
  refine completes_startOp (by simp only [exec]; rfl) h hp hs hr fun t ht htile => ⟨ht, ?_⟩
  have helem := Tile.laElem_clearRows c (laRows c) (s.tile n)
  rw [htile]
  refine ⟨Tile.laOnly.laStarted (.foldl _ (Tile.laOnly.of_kept rfl) fun t k hk => ?_) rfl rfl, fun k hk => ?_, fun k hk => ?_, ?_, ?_⟩
  · exact (t.laClearRow_laOnly _ _).mono fun j hj => laSelects_of_inRow hk hj
  · exact (helem k).1 (laSelects_iff.1 hk)
  · exact (helem k).2 fun hin => hk (laSelects_iff.2 hin)
  · exact foldl_keeps Tile.sp (f := fun t k => t.laClearRow (laBuf c) (laRow0 c + k)) (fun _ _ => rfl) (laRows c) (s.tile n)
  · exact foldl_keeps Tile.trf (f := fun t k => t.laClearRow (laBuf c) (laRow0 c + k)) (fun _ _ => rfl) (laRows c) (s.tile n)

end Sys2Proof.Machine


/-! # PRELOAD (O21) -/

namespace Sys2Proof.Machine

/-! ## Numbers in the limbs of an element (R109, R110) -/

/-- The 64-bit fields of a word put together again. -/
theorem foldl_fld64 {w : Nat} (a : BitVec w) (n : Nat) :
    (List.range n).foldl (fun m l => m + fld a (64 * l) 64 * 2 ^ (64 * l)) 0 = a.toNat % 2 ^ (64 * n) := by
  induction n with
  | zero => simp [Nat.mod_one]
  | succ n ih =>
    rw [List.range_succ, List.foldl_append, ih, List.foldl_cons, List.foldl_nil, Nat.mul_succ, Nat.pow_add, Nat.mod_mul, fld,
      Nat.shiftRight_eq_div_pow, Nat.mul_comm (2 ^ (64 * n))]

theorem fld_zero (n lo len : Nat) : fld (0 : BitVec n) lo len = 0 := by simp [fld]

theorem LaElem.carry_of_no_carries {x : LaElem} (h : x.carries = 0) (l : Nat) : x.carry l = 0 := by
  rw [LaElem.carry, h, fld_zero, ite_self]

theorem foldl_fld64_all {w n : Nat} (a : BitVec w) (h : w = 64 * n) :
    (List.range n).foldl (fun m l => m + fld a (64 * l) 64 * 2 ^ (64 * l)) 0 = a.toNat := by
  rw [foldl_fld64, ← h, Nat.mod_eq_of_lt a.isLt]

/-- What limb `l` takes in an update: its own bits, those of the addend, and the carry pending below it. -/
def LaElem.limbSum (x : LaElem) (a : BitVec 640) (l : Nat) : Nat :=
  fld x.limbs (64 * l) 64 + fld a (64 * l) 64 + (if l = 0 then 0 else x.carry (l - 1))

theorem LaElem.addNum_eq (x : LaElem) (v : Int) : x.addNum v =
    { x with
      limbs := BitVec.ofNat 640
        ((List.range 10).foldl (fun n l => n + (x.limbSum (BitVec.ofInt 640 v) l % 2 ^ 64) * 2 ^ (64 * l)) 0)
      carries := BitVec.ofNat 36
        ((List.range 9).foldl (fun n l => n + (x.limbSum (BitVec.ofInt 640 v) l / 2 ^ 64) * 2 ^ (4 * l)) 0) } := by
  unfold LaElem.addNum LaElem.limbSum
  with_reducible rfl

theorem LaElem.limbSum_zero (a : BitVec 640) (l : Nat) : LaElem.zero.limbSum a l = fld a (64 * l) 64 := by
  rw [LaElem.limbSum, LaElem.carry_of_no_carries (x := LaElem.zero) rfl, ite_self, Nat.add_zero, show LaElem.zero.limbs = 0 from rfl,
    fld_zero, Nat.zero_add]

/-- A number added to an element that is zero leaves no carry pending. -/
theorem LaElem.addNum_zero (v : Int) : LaElem.zero.addNum v = { LaElem.zero with limbs := BitVec.ofInt 640 v } := by
  rw [LaElem.addNum_eq]
  generalize BitVec.ofInt 640 v = a
  have hlt : ∀ l, LaElem.zero.limbSum a l < 2 ^ 64 := fun l => by
    rw [LaElem.limbSum_zero]
    exact Nat.mod_lt _ (by decide)
  have hlimb : (fun n l => n + (LaElem.zero.limbSum a l % 2 ^ 64) * 2 ^ (64 * l)) =
      fun n l => n + fld a (64 * l) 64 * 2 ^ (64 * l) := by
    funext n l
    rw [Nat.mod_eq_of_lt (hlt l), LaElem.limbSum_zero]
  have hcarry : (fun n l => n + (LaElem.zero.limbSum a l / 2 ^ 64) * 2 ^ (4 * l)) = fun n _ => n := by
    funext n l
    rw [Nat.div_eq_of_lt (hlt l), Nat.zero_mul, Nat.add_zero]
  rw [hlimb, foldl_fld64_all a rfl, hcarry, List.foldl_fixed, BitVec.ofNat_toNat, BitVec.setWidth_eq]
  rfl

theorem LaElem.value_of_no_carries {x : LaElem} (h : x.carries = 0) : x.value = sext x.limbs.toNat 640 := by
  simp [LaElem.value, LaElem.carry_of_no_carries h]

/-- A multiple of a power of two as a word of `w` bits. -/
theorem toNat_ofInt_mul_pow2 (w : Nat) (m e : Int) : (BitVec.ofInt w (m * pow2 e)).toNat = (m * 2 ^ e.toNat % 2 ^ w).toNat := by
  rw [BitVec.toNat_ofInt, pow2, Nat.cast_pow, Nat.cast_pow, Nat.cast_ofNat]

/-- A finite value in an element that was zero (R124). -/
theorem LaElem.addVal_zero_fin (m e : Int) :
    let x := LaElem.zero.addVal (.fin m e)
    x.tag = 0 ∧ x.poison = false ∧ x.value = sext (m * 2 ^ (e + 300).toNat % 2 ^ 640).toNat 640 := by
  have hx : LaElem.zero.addVal (.fin m e) = { LaElem.zero with limbs := BitVec.ofInt 640 (m * pow2 (e + 300)) } := by
    rw [LaElem.addVal, LaElem.addNum_zero]
    rfl
  dsimp only
  rw [hx, ← toNat_ofInt_mul_pow2]
  exact ⟨rfl, rfl, LaElem.value_of_no_carries rfl⟩

/-! ## The elements of a PRELOAD (R124) -/

/-- No rows of the scratchpad: what a command reads whose operands stand in tile registers. -/
def noRows : Rows := { rows := [], bytes := #[], bad := [] }

/-- The value that PRELOAD reads for column `col` of row ROW0 + `k`, from a tile register or from the rows `x` of a plane, and whether it
came poisoned. -/
def Tile.laSource (t : Tile) (c : Cmd) (x : Rows) (k col : Nat) : Val × Bool :=
  if laLoc c then (t.trfVal (laFmt c) (laAddr c % 16) (laRegRow c (laRow0 c + k)) col, false)
  else planeVal x (laFmt c) (laAddr c) (laScl c) (32 * (laBoff c + k) + col)

/-- An element with a value that has come added (R112, R113). -/
def LaElem.loaded (x : LaElem) (v : Val × Bool) : LaElem := { x.addVal v.1 with poison := (x.addVal v.1).poison || v.2 }

/-- One element of a PRELOAD. -/
def Tile.laLoad (me : Site) (c : Cmd) (x : Rows) (k : Nat) (t : Tile) (col : Nat) : Tile :=
  let key := laKey (laBuf c) (32 * (laRow0 c + k) + col)
  let u := if laMode c then t.laCheck me key none else t
  u.setLaElem key ((u.laElem key).loaded (t.laSource c x k col))

/-- One row of it. -/
def Tile.laLoadRow (me : Site) (c : Cmd) (x : Rows) (t : Tile) (k : Nat) : Tile :=
  ((List.range 32).foldl (Tile.laLoad me c x k) (if laMode c then t else t.laClearRow (laBuf c) (laRow0 c + k))).addWeight (laBuf c)
    (laRow0 c + k) 32

/-- What it reads from the scratchpad. -/
def Tile.laLoadSource (t : Tile) (me : Site) (c : Cmd) : Tile × Rows × Bool :=
  if laLoc c then (t, noRows, false)
  else t.fetch me (laSrcRows (laFmt c) (laAddr c) (laBoff c) (if fmtMx (laFmt c) then some (laScl c) else none) (laRows c))

theorem Tile.laPreload_eq (t : Tile) (me : Site) (c : Cmd) :
    ∃ r, t.laPreload me c =
        (let q := t.laLoadSource me c
         let u := (laRows c).foldl (Tile.laLoadRow me c q.2.1) q.1
         (if q.2.2 then u.err 1 else u).begin .la r) ∧ r.cmd = c ∧ r.malformed = false := ⟨_, rfl, rfl, rfl⟩

theorem Tile.laLoadSource_laView (t : Tile) (me : Site) (c : Cmd) : (t.laLoadSource me c).1.laView = t.laView := by
  unfold Tile.laLoadSource
  split
  · rfl
  · exact t.fetch_laView me _

theorem laInRow_key (c : Cmd) (k : Nat) {col : Nat} (h : col < 32) : laInRow c k (laKey (laBuf c) (32 * (laRow0 c + k) + col)) := by
  unfold laInRow laKey
  omega

theorem Tile.laLoad_laOnly (me : Site) (c : Cmd) (x : Rows) (k : Nat) (t : Tile) {col : Nat} (h : col < 32) :
    t.laOnly (laInRow c k) (Tile.laLoad me c x k t col) := by
  have hset : ∀ (u : Tile) v, u.laOnly (laInRow c k) (u.setLaElem (laKey (laBuf c) (32 * (laRow0 c + k) + col)) v) :=
    fun u v => (u.setLaElem_laOnly _ v).mono fun j hj => hj ▸ laInRow_key c k h
  unfold Tile.laLoad
  dsimp only
  refine .trans ?_ (hset _ _)
  split
  · exact Tile.laOnly.of_kept (t.laCheck_kept me _ none)
  · exact Tile.laOnly.of_kept rfl

/-- A row of a PRELOAD changes its own elements. -/
theorem Tile.laLoadRow_laOnly (me : Site) (c : Cmd) (x : Rows) (t : Tile) (k : Nat) :
    t.laOnly (laInRow c k) (Tile.laLoadRow me c x t k) := by
  unfold Tile.laLoadRow
  refine .trans (.foldl _ ?_ fun u col hcol => u.laLoad_laOnly me c x k (List.mem_range.1 hcol))
    (Tile.laOnly.of_kept (Tile.addWeight_kept _ _ _ _))
  split
  · exact Tile.laOnly.of_kept rfl
  · exact t.laClearRow_laOnly _ _

theorem preload_frame {s : State} {n : Site} (ph : Phys) {c : Cmd} (h : s.inReset = false) (hp : s.powered n = true)
    (hr : (s.tile n).laReady (s.cycleOf n) c = true) (hs : (s.tile n).starts .la 2 laMalformed c) :
    Completes (.preload n ph) s fun t => s.onlyTile t n ∧ (s.tile n).laStarted (t.tile n) c ∧
      (t.tile n).sp.mem = (s.tile n).sp.mem ∧ (t.tile n).trf = (s.tile n).trf := by
  refine completes_startOp (by simp only [exec]; rfl) h hp hs hr fun t ht htile => ⟨ht, ?_⟩
  obtain ⟨r, heq, hc, hm⟩ := ((s.tile n).phys ph).laPreload_eq n c
  rw [htile, heq]
  dsimp only
  generalize hq : ((s.tile n).phys ph).laLoadSource n c = q
  have hsource : q.1.kept = (s.tile n).kept := by
    rw [← hq, Tile.kept_of_laView (Tile.laLoadSource_laView _ n c), Tile.phys_kept]
  have hrows : (s.tile n).laOnly (laSelects c) ((laRows c).foldl (Tile.laLoadRow n c q.2.1) q.1) :=
    .foldl _ (Tile.laOnly.of_kept hsource) fun u k hk => (u.laLoadRow_laOnly n c _ k).mono fun _ => laSelects_of_inRow hk
  have herr : ∀ u : Tile, (if q.2.2 = true then u.err 1 else u).kept = u.kept := fun u => by
    split
    · exact Tile.kept_of_laView (u.err_laView 1)
    · rfl
  have hall := hrows.trans (Tile.laOnly.of_kept (herr _))
  refine ⟨hall.laStarted hc hm, ?_⟩
  have hout := hall.1
  simp only [Tile.outside, Prod.mk.injEq] at hout
  exact ⟨hout.2.1, hout.2.2.1⟩

/-! ## PRELOAD SET of a tile register (R124) -/

/-- The product weight of a row within 2^52 leaves its elements (R111). -/
theorem Tile.laElem_addWeight (t : Tile) (buf : Bool) (r n j : Nat) (h : Map.get noWeight t.la.weight (laRowKey buf r) + n ≤ 2 ^ 52) :
    (t.addWeight buf r n).laElem j = t.laElem j := by
  unfold Tile.addWeight
  dsimp only
  rw [if_neg (by omega)]
  rfl

theorem Tile.trf_of_kept {a b : Tile} (h : b.kept = a.kept) : b.trf = a.trf := by
  simp only [Tile.kept, Tile.outside, Prod.mk.injEq] at h
  exact h.1.2.2.1

section
variable {me : Site} {c : Cmd} {x : Rows} {k : Nat} (hm : laMode c = false) (hl : laLoc c = true)
include hm hl

/-- The first `n` elements of a row that a PRELOAD SET loads from a tile register. -/
theorem Tile.laElem_loads (t : Tile) (n : Nat) :
    let u := (List.range n).foldl (Tile.laLoad me c x k) t
    let a := laKey (laBuf c) (32 * (laRow0 c + k))
    u.trf = t.trf ∧ u.la.weight = t.la.weight ∧
      ∀ j, u.laElem j = if a ≤ j ∧ j < a + n then (t.laElem j).loaded (t.laSource c x k (j - a)) else t.laElem j := by
  induction n with
  | zero => exact ⟨rfl, rfl, fun j => (if_neg (by omega)).symm⟩
  | succ n ih =>
    dsimp only at ih ⊢
    rw [List.range_succ, List.foldl_append, List.foldl_cons, List.foldl_nil]
    generalize (List.range n).foldl (Tile.laLoad me c x k) t = u at ih ⊢
    have hkey : laKey (laBuf c) (32 * (laRow0 c + k) + n) = laKey (laBuf c) (32 * (laRow0 c + k)) + n := (Nat.add_assoc _ _ _).symm
    generalize laKey (laBuf c) (32 * (laRow0 c + k)) = a at ih hkey ⊢
    obtain ⟨htrf, hweight, helem⟩ := ih
    have hsource : u.laSource c x k n = t.laSource c x k n := by
      unfold Tile.laSource Tile.trfVal Tile.trfGet
      rw [if_pos hl, if_pos hl, htrf]
    have hlast : u.laElem (a + n) = t.laElem (a + n) := (helem _).trans (if_neg (by omega))
    have hload : Tile.laLoad me c x k u n = u.setLaElem (a + n) ((t.laElem (a + n)).loaded (t.laSource c x k n)) := by
      unfold Tile.laLoad
      simp only [hm, hkey, hsource, hlast, Bool.false_eq_true, if_false]
    rw [hload]
    refine ⟨htrf, hweight, fun j => ?_⟩
    rw [Tile.laElem_setLaElem, helem]
    by_cases hj : j = a + n
    · rw [if_pos hj, if_pos (by omega), hj, Nat.add_sub_cancel_left]
    · rw [if_neg hj]
      exact if_congr (by omega) rfl rfl

/-- A row that a PRELOAD SET loads from a tile register: its elements take the entries, the others stay, and so do the registers. -/
theorem Tile.laElem_laLoadRow (t : Tile) :
    (Tile.laLoadRow me c x t k).trf = t.trf ∧ ∀ j, (Tile.laLoadRow me c x t k).laElem j =
      if laKey (laBuf c) (32 * (laRow0 c + k)) ≤ j ∧ j < laKey (laBuf c) (32 * (laRow0 c + k)) + 32 then
        LaElem.zero.loaded (t.laSource c x k (j - laKey (laBuf c) (32 * (laRow0 c + k))))
      else t.laElem j := by
  obtain ⟨htrf, hweight, helem⟩ := Tile.laElem_loads (me := me) (x := x) (k := k) hm hl (t.laClearRow (laBuf c) (laRow0 c + k)) 32
  unfold Tile.laLoadRow
  rw [if_neg (by simp [hm])]
  generalize (List.range 32).foldl (Tile.laLoad me c x k) _ = u at htrf hweight helem ⊢
  refine ⟨(Tile.trf_of_kept (Tile.addWeight_kept _ _ _ _)).trans htrf, fun j => ?_⟩
  have hzero : Map.get noWeight u.la.weight (laRowKey (laBuf c) (laRow0 c + k)) = 0 := by
    rw [hweight]
    exact Map.get_set_same noWeight t.la.weight _ 0
  rw [Tile.laElem_addWeight _ _ _ _ _ (by rw [hzero]; decide), helem, Tile.laElem_laClearRow]
  split
  · rfl
  · rfl

/-- The rows `ks` loaded so. -/
theorem Tile.laElem_loadRows (t : Tile) (ks : List Nat) :
    let u := ks.foldl (Tile.laLoadRow me c x) t
    u.trf = t.trf ∧ ∀ k ∈ ks, ∀ col < 32,
      u.laElem (laKey (laBuf c) (32 * (laRow0 c + k) + col)) = LaElem.zero.loaded (t.laSource c x k col) := by
  induction ks using List.reverseRecOn with
  | nil => exact ⟨rfl, fun k hk => absurd hk (by simp)⟩
  | append_singleton ks i ih =>
    dsimp only at ih ⊢
    rw [List.foldl_append, List.foldl_cons, List.foldl_nil]
    generalize ks.foldl (Tile.laLoadRow me c x) t = u at ih ⊢
    obtain ⟨htrf, helem⟩ := ih
    obtain ⟨htrf', helem'⟩ := Tile.laElem_laLoadRow (me := me) (x := x) (k := i) hm hl u
    refine ⟨htrf'.trans htrf, fun k hk col hcol => ?_⟩
    have hkey : laKey (laBuf c) (32 * (laRow0 c + k) + col) = laKey (laBuf c) (32 * (laRow0 c + k)) + col := (Nat.add_assoc _ _ _).symm
    have hsource : ∀ i col, u.laSource c x i col = t.laSource c x i col := fun i col => by
      unfold Tile.laSource Tile.trfVal Tile.trfGet
      rw [if_pos hl, if_pos hl, htrf]
    rw [helem']
    by_cases hik : k = i
    · subst hik
      rw [if_pos (by omega), hkey, Nat.add_sub_cancel_left, hsource]
    · rw [if_neg (by unfold laKey; omega)]
      exact helem k ((List.mem_append.1 hk).resolve_right fun h => hik (List.mem_singleton.1 h)) col hcol

end

/-! ## Well-formed commands with a tile register (R117 to R119) -/

theorem laMalformed_rows {c : Cmd} (h : laMalformed c = false) : laRow0 c + laNrow c ≤ 32 := by
  simp only [laMalformed, Bool.not_eq_false', Bool.and_eq_true, decide_eq_true_eq] at h
  exact h.1.2

/-- A tile register is one of T0 to T15, and its format FP32 or BF16. -/
theorem laMalformed_register {c : Cmd} (h : laMalformed c = false) (hop : c.op = 2 ∨ c.op = 3) (hl : laLoc c = true) :
    laAddr c < 16 ∧ fmtMx (laFmt c) = false := by
  have hplane : fld (c.w 1) 24 8 = 0 ∧ (laFmt c = 1 ∨ laFmt c = 2) := by
    rcases hop with hop | hop <;> simp [laMalformed, hop, hl, laPlaneOk] at h <;> tauto
  obtain ⟨hzero, hfmt⟩ := hplane
  refine ⟨?_, by rcases hfmt with hfmt | hfmt <;> rw [hfmt] <;> rfl⟩
  unfold laAddr
  rw [fld, Nat.shiftRight_eq_div_pow] at hzero ⊢
  have := (c.w 1).isLt
  omega

theorem preload_sets_value {s : State} {n : Site} {c : Cmd} {r col : Nat} {m e : Int} (h : s.inReset = false) (hp : s.powered n = true)
    (hr : (s.tile n).laReady (s.cycleOf n) c = true) (hs : (s.tile n).starts .la 2 laMalformed c) (hl : laLoc c = true)
    (hm : laMode c = false) (hrow : r ∈ laRows c) (hcol : col < 32)
    (hv : (s.tile n).trfVal (laFmt c) (laAddr c) (laRegRow c (laRow0 c + r)) col = .fin m e) :
    Completes (.preload n { : Phys }) s fun t => s.onlyTile t n ∧
      let x := (t.tile n).laElem (laKey (laBuf c) (32 * (laRow0 c + r) + col))
      x.tag = 0 ∧ x.poison = false ∧ x.value = sext (m * 2 ^ (e + 300).toNat % 2 ^ 640).toNat 640 := by
  refine completes_startOp (by simp only [exec]; rfl) h hp hs hr fun t ht htile => ⟨ht, ?_⟩
  obtain ⟨-, hop, -, hbad, -⟩ := hs
  obtain ⟨run, heq, -, -⟩ := (s.tile n).laPreload_eq n c
  have hsource : (s.tile n).laSource c noRows r col = (.fin m e, false) := by
    rw [Tile.laSource, if_pos hl, Nat.mod_eq_of_lt (laMalformed_register hbad (.inl hop) hl).1, hv]
  have helem := (Tile.laElem_loadRows (me := n) (x := noRows) hm hl (s.tile n) (laRows c)).2 r hrow col hcol
  have htile' : (t.tile n).laElem = ((laRows c).foldl (Tile.laLoadRow n c noRows) (s.tile n)).laElem := by
    rw [htile, show (s.tile n).phys { : Phys } = s.tile n from rfl, heq, Tile.laLoadSource, if_pos hl]
    rfl
  rw [htile', helem, hsource]
  exact LaElem.addVal_zero_fin m e

end Sys2Proof.Machine


/-! # Bytes that an engine writes into the scratchpad in pieces (R131, R227, R237) -/

namespace Sys2Proof.Machine

/-- What a write of the scratchpad leaves as it is. -/
def Tile.besideSp (t : Tile) : MuSt × CoreSt × Map GroupSt × PerUnit UnitSt × LaSt × Map Word :=
  (t.mu, t.core, t.groups, t.units, t.la, t.trf)

theorem Tile.spFrame.besideSp {a b : Tile} (h : a.spFrame b) : b.besideSp = a.besideSp := by
  rw [h.1]
  rfl

theorem Tile.storeRow_besideSp (t : Tile) (me : Site) (row off : Nat) (data : List Byte) (poison : Bool) :
    (t.storeRow me row off data poison).besideSp = t.besideSp := by
  have hfix : ∀ (t : Tile) (wk : Nat × EccKind), (match wk.2 with
      | .ce => t.spCe
      | .ue => t.spUe me row).besideSp = t.besideSp := fun t wk => by
    cases wk.2
    · exact t.spCe_spFrame.besideSp
    · exact (t.spUe_spFrame me row).besideSp
  unfold Tile.storeRow
  dsimp only
  split
  · exact foldl_keeps Tile.besideSp hfix _ t
  · split <;> exact foldl_keeps Tile.besideSp hfix _ t

theorem Tile.writeRow_besideSp (t : Tile) (me : Site) (row off : Nat) (data : List Byte) (poison : Bool) (eng : Nat) :
    (t.writeRow me row off data poison eng).besideSp = t.besideSp := by
  unfold Tile.writeRow
  split
  · rfl
  · split
    · dsimp only
      split <;> rfl
    · exact t.storeRow_besideSp me row off data poison

theorem Tile.trf_of_besideSp {a b : Tile} (h : b.besideSp = a.besideSp) : b.trf = a.trf := by
  simp only [Tile.besideSp, Prod.mk.injEq] at h
  exact h.2.2.2.2.2

/-- A row write changes no byte beside those it names. -/
theorem Tile.read_writeRow (t : Tile) (me : Site) (row off : Nat) (data : List Byte) (poison : Bool) (eng : Nat) {a : Nat}
    (h : a < 512 * row + off ∨ 512 * row + off + data.length ≤ a) :
    Memory.read (t.writeRow me row off data poison eng).sp.mem a = Memory.read t.sp.mem a := by
  unfold Tile.writeRow
  split
  · rfl
  · split
    · dsimp only
      split <;> rfl
    · rw [t.storeRow_mem, Memory.read_writeBytes, if_neg (by omega)]

/-- A piece of bytes holds address `a`. -/
def pieceHolds (a : Nat) (p : Nat × List Byte) : Prop := p.1 ≤ a ∧ a < p.1 + p.2.length

/-- Pieces joined hold the same addresses. -/
theorem pieceHolds_of_joined {a : Nat} {ps : List (Nat × List Byte)} : ∀ q ∈ joinPieces ps, pieceHolds a q → ∃ p ∈ ps, pieceHolds a p := by
  induction ps with
  | nil => exact fun q hq => absurd hq List.not_mem_nil
  | cons p ps ih =>
    obtain ⟨b, x⟩ := p
    intro q hq hold
    have hrest : q ∈ joinPieces ps → ∃ p ∈ (b, x) :: ps, pieceHolds a p := fun hmem =>
      (ih q hmem hold).imp fun p hp => ⟨List.mem_cons_of_mem _ hp.1, hp.2⟩
    have hhead : q = (b, x) → ∃ p ∈ (b, x) :: ps, pieceHolds a p := fun he => ⟨q, by simp [he], hold⟩
    unfold joinPieces at hq
    split at hq
    next d y r heq =>
      rw [heq] at hrest ih
      split at hq
      next hadj =>
        rcases List.mem_cons.1 hq with rfl | hq
        · by_cases hx : a < b + x.length
          · exact ⟨(b, x), List.mem_cons_self, hold.1, hx⟩
          · obtain ⟨p, hp, hpa⟩ := ih (d, y) List.mem_cons_self ⟨by simp only; omega, by
              have := hold.2
              simp only [List.length_append] at this ⊢
              omega⟩
            exact ⟨p, List.mem_cons_of_mem _ hp, hpa⟩
        · exact hrest (List.mem_cons_of_mem _ hq)
      next =>
        rcases List.mem_cons.1 hq with he | hq
        · exact hhead he
        · exact hrest hq
    next =>
      exact hhead (List.mem_singleton.1 hq)

/-- A row write cut from a piece writes bytes of that piece. -/
theorem cutRows_within {p : Nat × List Byte} {w : Nat × Nat × List Byte} (h : w ∈ cutRows p) :
    p.1 ≤ 512 * w.1 + w.2.1 ∧ 512 * w.1 + w.2.1 + w.2.2.length ≤ p.1 + p.2.length := by
  simp only [cutRows, upto, List.map_map, List.mem_map, List.mem_range, Function.comp_apply] at h
  obtain ⟨i, hi, rfl⟩ := h
  simp only [List.length_take, List.length_drop]
  omega

theorem rowWrites_within {ps : List (Nat × List Byte)} {w : Nat × Nat × List Byte} (h : w ∈ rowWrites ps) {a : Nat}
    (ha : 512 * w.1 + w.2.1 ≤ a ∧ a < 512 * w.1 + w.2.1 + w.2.2.length) : ∃ p ∈ ps, pieceHolds a p := by
  obtain ⟨q, hq, hw⟩ := List.mem_flatMap.1 h
  have hin := cutRows_within hw
  obtain ⟨p, hp, hpa⟩ := pieceHolds_of_joined q hq (a := a) ⟨by omega, by omega⟩
  exact ⟨p, List.mem_of_mem_filter hp, hpa⟩

theorem Tile.writePieces_besideSp (t : Tile) (me : Site) (eng : Nat) (ps : List (Nat × List Byte)) (bad : Nat → Bool) :
    (t.writePieces me eng ps bad).1.besideSp = t.besideSp :=
  foldl_keeps Tile.besideSp (f := fun t (w : Nat × Nat × List Byte) => t.writeRow me w.1 w.2.1 w.2.2 (bad w.1) eng)
    (fun t _ => t.writeRow_besideSp me _ _ _ _ eng) (rowWrites ps) t

/-- Pieces written change no byte that none of them holds. -/
theorem Tile.read_writePieces (t : Tile) (me : Site) (eng : Nat) (ps : List (Nat × List Byte)) (bad : Nat → Bool) {a : Nat}
    (h : ∀ p ∈ ps, ¬pieceHolds a p) : Memory.read (t.writePieces me eng ps bad).1.sp.mem a = Memory.read t.sp.mem a := by
  refine List.foldlRecOn (motive := fun u : Tile => Memory.read u.sp.mem a = Memory.read t.sp.mem a) (rowWrites ps) _ rfl
    fun u hu w hw => ?_
  rw [u.read_writeRow, hu]
  by_contra hin
  obtain ⟨p, hp, hpa⟩ := rowWrites_within hw (a := a) (by omega)
  exact h p hp hpa

/-! ## Elements packed into bytes (R41 to R43) -/

theorem leBytes_length (n v : Nat) : (leBytes n v).length = n := by
  induction n generalizing v with
  | zero => rfl
  | succ n ih => rw [leBytes, List.length_cons, ih]

theorem fmtBits_cases (c : Nat) : fmtBits c = 32 ∨ fmtBits c = 16 ∨ fmtBits c = 8 ∨ fmtBits c = 6 ∨ fmtBits c = 4 := by
  unfold fmtBits fmtD fmtOf
  split <;> simp

/-- An element of whole bytes. -/
theorem packElems_length_cons {c : Nat} (h : fmtBits c = 32 ∨ fmtBits c = 16 ∨ fmtBits c = 8) (a : Nat) (l : List Nat) :
    (packElems c (a :: l)).length = fmtBits c / 8 + (packElems c l).length := by
  rw [packElems.eq_def]
  rcases h with h | h | h <;> simp [h, leBytes_length, Nat.add_comm]

/-- Two elements of half a byte. -/
theorem packElems_length_two {c : Nat} (h : fmtBits c = 4) (a b : Nat) (l : List Nat) :
    (packElems c (a :: b :: l)).length = 1 + (packElems c l).length := by
  rw [packElems.eq_def]
  simp [h, Nat.add_comm]

/-- Four elements more are half as many bytes more as one of them has bits. -/
theorem packElems_four (c a b d e : Nat) (l : List Nat) :
    (packElems c (a :: b :: d :: e :: l)).length = fmtBits c / 2 + (packElems c l).length := by
  have hwhole : fmtBits c = 32 ∨ fmtBits c = 16 ∨ fmtBits c = 8 →
      (packElems c (a :: b :: d :: e :: l)).length = fmtBits c / 2 + (packElems c l).length := fun h => by
    simp only [packElems_length_cons h]
    rcases h with h | h | h <;> omega
  rcases fmtBits_cases c with h | h | h | h | h
  · exact hwhole (.inl h)
  · exact hwhole (.inr (.inl h))
  · exact hwhole (.inr (.inr h))
  · simp [packElems, h, leBytes_length]
  · rw [packElems_length_two h, packElems_length_two h, h]
    omega

theorem packElems_length (c n : Nat) {l : List Nat} (hl : l.length = 4 * n) : (packElems c l).length = n * (fmtBits c / 2) := by
  induction n generalizing l with
  | zero => rw [List.eq_nil_of_length_eq_zero hl, packElems, List.length_nil, Nat.zero_mul]
  | succ n ih =>
    match l, hl with
    | a :: b :: d :: e :: l, hl =>
      simp only [List.length_cons] at hl
      rw [packElems_four, ih (by omega), Nat.succ_mul, Nat.add_comm]

/-- A block of 32 elements takes the bytes of a block. -/
theorem packElems_block (c : Nat) {l : List Nat} (hl : l.length = 32) : (packElems c l).length = blockBytes c := by
  rw [packElems_length c 8 (by omega), blockBytes, planeBytes]
  rcases fmtBits_cases c with h | h | h | h | h <;> rw [h]

theorem packBlock_length (c : Nat) (draws : List Nat) (vs : List Val) : (packBlock c draws vs).codes.length = vs.length := by
  simp [packBlock]

end Sys2Proof.Machine


/-! # DRAIN and EXPORT (O21) -/

namespace Sys2Proof.Machine

/-! ## The rows of a DRAIN or EXPORT (R126) -/

/-- What becomes of the values of a row: the tile, and the pieces of scratchpad bytes to write. -/
abbrev LaPut := Tile → Nat → List Val → List Nat → Bool → Tile × List (Nat × List Byte)

/-- What a DRAIN or EXPORT reads of its fused operand from the scratchpad (R127). -/
def Tile.laFused (t : Tile) (me : Site) (c : Cmd) : Tile × Rows × Bool :=
  if laFop c = 0 || laFloc c then (t, noRows, false)
  else t.fetch me (laSrcRows (laFfmt c) (laFaddr c) (laFboff c) none (laRows c))

/-- One row: formed, then handed to `put`; beside the pieces, how many elements were poisoned, and whether a fused operand was. -/
def laDrainStep (me : Site) (c : Cmd) (fx : Rows) (draws : List Nat) (put : LaPut) (a : Tile × List (Nat × List Byte) × Nat × Bool)
    (k : Nat) : Tile × List (Nat × List Byte) × Nat × Bool :=
  let d := a.1.drainRow me c fx k
  let q := put d.tile k d.vals ((draws.drop (32 * k)).take 32) (d.poisoned != 0 || d.fbad)
  (q.1, a.2.1 ++ q.2, a.2.2.1 + d.poisoned, a.2.2.2 || d.fbad)

/-- What a DRAIN or EXPORT reports of the `n` poisoned elements that it has met, and of other errors. -/
def Tile.laReport (t : Tile) (n : Nat) (fbad bad : Bool) : Tile :=
  let t := t.count Reg.LA_POISON_COUNT n
  let t := if n != 0 || fbad then t.flagBit Reg.LA_ERR 1 else t
  if bad then t.err 1 else t

theorem Tile.laDrainRows_eq (t : Tile) (me : Site) (c : Cmd) (srexp : Bool) (put : LaPut) :
    ∃ bad r, t.laDrainRows me c srexp put =
        (let q := (t.laDraws c srexp).2.laFused me c
         let a := (laRows c).foldl (laDrainStep me c q.2.1 (t.laDraws c srexp).1 put) (q.1, [], 0, false)
         ((a.1.laReport a.2.2.1 a.2.2.2 bad).begin .la r, a.2.1)) ∧ r.cmd = c ∧ r.malformed = false := ⟨_, _, rfl, rfl, rfl⟩

theorem Tile.laFused_laView (t : Tile) (me : Site) (c : Cmd) : (t.laFused me c).1.laView = t.laView := by
  unfold Tile.laFused
  split
  · rfl
  · exact t.fetch_laView me _

theorem Tile.laReport_laView (t : Tile) (n : Nat) (fbad bad : Bool) : (t.laReport n fbad bad).laView = t.laView := by
  unfold Tile.laReport
  dsimp only
  repeat' split
  all_goals simp

/-- A row formed changes its own elements, and those only without KEEP (R129). -/
theorem Tile.drainRow_laOnly (t : Tile) (me : Site) (c : Cmd) (fx : Rows) (k : Nat) :
    t.laOnly (fun j => laKeep c = false ∧ laInRow c k j) (t.drainRow me c fx k).tile := by
  have hcheck : t.laOnly (fun j => laKeep c = false ∧ laInRow c k j)
      ((List.range 32).foldl (fun t col => t.laCheck me (laKey (laBuf c) (32 * (laRow0 c + k) + col)) none) t) :=
    Tile.laOnly.of_kept (foldl_keeps Tile.kept (fun t _ => t.laCheck_kept me _ none) _ t)
  unfold Tile.drainRow
  dsimp only
  split
  next => exact hcheck
  next hkeep => exact hcheck.trans ((Tile.laClearRow_laOnly _ _ _).mono fun j hj => ⟨by simpa using hkeep, hj⟩)

theorem Tile.drainRow_vals_length (t : Tile) (me : Site) (c : Cmd) (fx : Rows) (k : Nat) : (t.drainRow me c fx k).vals.length = 32 := by
  simp [Tile.drainRow]

/-- What holds before the first row, and of one row more after each row, holds after a DRAIN or EXPORT, but for the reports and the
queue. -/
theorem Tile.laDrainRows_induction {motive : List Nat → Tile → List (Nat × List Byte) → Prop} (t : Tile) (me : Site) (c : Cmd)
    (srexp : Bool) (put : LaPut) (init : ∀ v : Tile, v.laView = t.laView → motive [] v [])
    (row : ∀ fx done v ps bad, ∀ k ∈ laRows c, motive done v ps →
      let d := v.drainRow me c fx k
      let q := put d.tile k d.vals (((t.laDraws c srexp).1.drop (32 * k)).take 32) bad
      motive (done ++ [k]) q.1 (ps ++ q.2)) :
    ∃ (u v : Tile) (r : Run), motive (laRows c) u (t.laDrainRows me c srexp put).2 ∧ v.laView = u.laView ∧
      (t.laDrainRows me c srexp put).1 = v.begin .la r ∧ r.cmd = c ∧ r.malformed = false := by
  obtain ⟨bad, r, heq, hc, hm⟩ := t.laDrainRows_eq me c srexp put
  rw [heq]
  dsimp only
  generalize hq : (t.laDraws c srexp).2.laFused me c = q
  have hview : q.1.laView = t.laView := by rw [← hq, Tile.laFused_laView, Tile.laDraws_laView]
  have hall : ∀ ks, (∀ k ∈ ks, k ∈ laRows c) →
      let a := ks.foldl (laDrainStep me c q.2.1 (t.laDraws c srexp).1 put) (q.1, [], 0, false)
      motive ks a.1 a.2.1 := by
    intro ks
    induction ks using List.reverseRecOn with
    | nil => exact fun _ => init q.1 hview
    | append_singleton ks k ih =>
      intro hks
      dsimp only
      rw [List.foldl_append, List.foldl_cons, List.foldl_nil]
      exact row q.2.1 ks _ _ _ k (hks k (by simp)) (ih fun i hi => hks i (by simp [hi]))
  exact ⟨_, _, r, hall _ fun _ h => h, Tile.laReport_laView _ _ _ bad, rfl, hc, hm⟩

/-- What a DRAIN or EXPORT may change of elements: none with KEEP, else those of its selected rows (R129). -/
def laRewrites (c : Cmd) (k : Nat) : Prop := laKeep c = false ∧ laSelects c k

/-- Tile `v` is `a` after rows of the DRAIN or EXPORT `c` have been formed: wherever the values have gone, no byte of the scratchpad has
changed yet. -/
structure Tile.Formed (c : Cmd) (a v : Tile) : Prop where
  aside : v.aside = a.aside
  mem : v.sp.mem = a.sp.mem
  limbs : ∀ k, ¬laRewrites c k → v.limbs k = a.limbs k

theorem Tile.Formed.trans {c : Cmd} {a u v : Tile} (h : Tile.Formed c a u) (k : Tile.Formed c u v) : Tile.Formed c a v :=
  ⟨k.aside.trans h.aside, k.mem.trans h.mem, fun j hj => (k.limbs j hj).trans (h.limbs j hj)⟩

/-- What a DRAIN or EXPORT does beside handing values over. -/
theorem Tile.laOnly.formed {c : Cmd} {a v : Tile} (h : a.laOnly (laRewrites c) v) :
    Tile.Formed c a v ∧ v.trf = a.trf ∧ v.la.exports ++ v.la.late = a.la.exports ++ a.la.late := by
  obtain ⟨hout, hlimbs⟩ := h
  simp only [Tile.outside, Prod.mk.injEq] at hout
  obtain ⟨haside, hmem, htrf, hrows⟩ := hout
  exact ⟨⟨haside, hmem, hlimbs⟩, htrf, hrows⟩

theorem Tile.formed_of_kept {a v : Tile} (c : Cmd) (h : v.kept = a.kept) :
    Tile.Formed c a v ∧ v.trf = a.trf ∧ v.la.exports ++ v.la.late = a.la.exports ++ a.la.late :=
  (Tile.laOnly.of_kept h).formed

theorem Tile.drainRow_formed (t : Tile) (me : Site) {c : Cmd} (fx : Rows) {k : Nat} (hk : k ∈ laRows c) :
    let v := (t.drainRow me c fx k).tile
    Tile.Formed c t v ∧ v.trf = t.trf ∧ v.la.exports ++ v.la.late = t.la.exports ++ t.la.late :=
  ((t.drainRow_laOnly me c fx k).mono fun _ hj => ⟨hj.1, laSelects_of_inRow hk hj.2⟩).formed

theorem Tile.Formed.laStarted {c : Cmd} {a v : Tile} {r : Run} (h : Tile.Formed c a v) (hc : r.cmd = c) (hm : r.malformed = false) :
    a.laStarted (v.begin .la r) c :=
  Tile.laStarted_begin h.aside (fun k hk => h.limbs k fun hr => hk hr.2) hc hm

theorem Tile.Formed.keep {c : Cmd} {a v : Tile} (h : Tile.Formed c a v) (hkeep : laKeep c = true) (k : Nat) : v.limbs k = a.limbs k :=
  h.limbs k fun hr => absurd hr.1 (by simp [hkeep])

/-! ## EXPORT (R130) -/

/-- The row that EXPORT makes of values. -/
def laExportPut (c : Cmd) : LaPut := fun t _ vals draws bad =>
  let codes := (List.range 32).map fun i => (encodeElem (laFmt c) draws[i]? (vals.getD i .nan)).code
  ({ t with la := t.la.enter [{ fmt := BitVec.ofNat 4 (laFmt c), vals := codes.map (BitVec.ofNat 32), poison := bad }] }, [])

theorem LaSt.enter_rows (x : LaSt) (rows : List ExpRow) : (x.enter rows).exports ++ (x.enter rows).late = x.exports ++ x.late ++ rows :=
  List.take_append_drop _ _

/-- Tile `v` is `a` after `n` rows of the EXPORT `c`. -/
def Tile.Exported (c : Cmd) (a : Tile) (n : Nat) (v : Tile) : Prop :=
  Tile.Formed c a v ∧ v.trf = a.trf ∧
    ∃ rows, rows.length = n ∧ v.la.exports ++ v.la.late = a.la.exports ++ a.la.late ++ rows

theorem Tile.exported_zero {c : Cmd} {a v : Tile} (h : v.kept = a.kept) : Tile.Exported c a 0 v := by
  obtain ⟨hformed, htrf, hrows⟩ := Tile.formed_of_kept c h
  exact ⟨hformed, htrf, [], rfl, by rw [hrows, List.append_nil]⟩

theorem Tile.Exported.trans {c : Cmd} {a u v : Tile} {m n : Nat} (h : Tile.Exported c a m u) (k : Tile.Exported c u n v) :
    Tile.Exported c a (m + n) v := by
  obtain ⟨hf, ht, rows, hlen, hrows⟩ := h
  obtain ⟨kf, kt, rows', klen, krows⟩ := k
  exact ⟨hf.trans kf, kt.trans ht, rows ++ rows', by rw [List.length_append, hlen, klen], by rw [krows, hrows, List.append_assoc]⟩

/-- Each row formed is one row exported. -/
theorem Tile.exported_row (t : Tile) (me : Site) {c : Cmd} (fx : Rows) {k : Nat} (vals : List Val) (draws : List Nat) (bad : Bool)
    (hk : k ∈ laRows c) : Tile.Exported c t 1 (laExportPut c (t.drainRow me c fx k).tile k vals draws bad).1 := by
  obtain ⟨hformed, htrf, hrows⟩ := t.drainRow_formed me fx hk
  exact ⟨hformed.trans ⟨rfl, rfl, fun _ _ => rfl⟩, htrf, [_], rfl, by rw [← hrows]; exact LaSt.enter_rows _ _⟩

theorem exportRows_frame {s : State} {n : Site} (ph : Phys) {c : Cmd} (h : s.inReset = false) (hp : s.powered n = true)
    (hr : (s.tile n).laReady (s.cycleOf n) c = true) (hs : (s.tile n).starts .la 4 laMalformed c) :
    Completes (.exportRows n ph) s fun t => s.onlyTile t n ∧ (s.tile n).laStarted (t.tile n) c ∧
      (t.tile n).sp.mem = (s.tile n).sp.mem ∧ (t.tile n).trf = (s.tile n).trf ∧
      (∃ rows, rows.length = (laRows c).length ∧
        (t.tile n).la.exports ++ (t.tile n).la.late = (s.tile n).la.exports ++ (s.tile n).la.late ++ rows) ∧
      (laKeep c = true → ∀ k, ((t.tile n).laElem k).limbs = ((s.tile n).laElem k).limbs) := by
  refine completes_startOp (by simp only [exec]; rfl) h hp hs hr fun t ht htile => ⟨ht, ?_⟩
  obtain ⟨u, v, r, hrows, hview, heq, hc, hm⟩ := ((s.tile n).phys ph).laDrainRows_induction
    (motive := fun done v _ => Tile.Exported c (s.tile n) done.length v) n c (s.steward.feature 1) (laExportPut c)
    (fun v hv => Tile.exported_zero ((Tile.kept_of_laView hv).trans (Tile.phys_kept _ ph)))
    (fun fx done v ps bad k hk hv => by
      rw [List.length_append]
      exact hv.trans (v.exported_row n fx _ _ bad hk))
  obtain ⟨hformed, htrf, hrows⟩ := hrows.trans (Tile.exported_zero (Tile.kept_of_laView hview))
  rw [htile, show ((s.tile n).phys ph).laExport n c (s.steward.feature 1) = v.begin .la r from heq]
  exact ⟨hformed.laStarted hc hm, hformed.mem, htrf, hrows, hformed.keep⟩

/-! ## DRAIN: where its values go (R119, R131) -/

/-- What DRAIN makes of the values of row ROW0 + `k`: entries of a tile register, or bytes of a plane, and of its scale plane. -/
def laDrainPut (c : Cmd) : LaPut := fun t k vals draws _ =>
  if fmtMx (laFmt c) then
    let blk := packBlock (laFmt c) draws vals
    let b := laBoff c + k
    (t, [(512 * laAddr c + blockBytes (laFmt c) * b, packElems (laFmt c) blk.codes), (512 * laScl c + b, [BitVec.ofNat 8 blk.scale])])
  else
    let codes := (List.range 32).map fun i => (encodeElem (laFmt c) draws[i]? (vals.getD i .nan)).code
    if laLoc c then (t.trfSetAll (laAddr c % 16) (laRegRow c (laRow0 c + k)) 0 (codes.map (BitVec.ofNat 32)), [])
    else (t, [(512 * laAddr c + blockBytes (laFmt c) * (laBoff c + k), packElems (laFmt c) codes)])

/-- A piece of row ROW0 + `k`: its block of the plane, or its byte of the scale plane. -/
def laPiece (c : Cmd) (k : Nat) (p : Nat × List Byte) : Prop :=
  (p.1 = 512 * laAddr c + blockBytes (laFmt c) * (laBoff c + k) ∧ p.2.length = blockBytes (laFmt c)) ∨
    (fmtMx (laFmt c) = true ∧ p.1 = 512 * laScl c + laBoff c + k ∧ p.2.length = 1)

/-- Tile `v` is `a` after rows of the DRAIN `c`, and the pieces `ps` are to be written. -/
def Tile.DrainedTo (c : Cmd) (a v : Tile) (ps : List (Nat × List Byte)) : Prop :=
  Tile.Formed c a v ∧ (laLoc c = false → v.trf = a.trf) ∧ ∀ p ∈ ps, laLoc c = false ∧ ∃ k ∈ laRows c, laPiece c k p

theorem Tile.DrainedTo.trans {c : Cmd} {a u v : Tile} {ps qs : List (Nat × List Byte)} (h : Tile.DrainedTo c a u ps)
    (k : Tile.DrainedTo c u v qs) : Tile.DrainedTo c a v (ps ++ qs) := by
  obtain ⟨hf, ht, hps⟩ := h
  obtain ⟨kf, kt, kqs⟩ := k
  refine ⟨hf.trans kf, fun hl => (kt hl).trans (ht hl), fun p hp => ?_⟩
  rcases List.mem_append.1 hp with hp | hp
  · exact hps p hp
  · exact kqs p hp

theorem Tile.drainedTo_nil {c : Cmd} {a v : Tile} (h : v.kept = a.kept) : Tile.DrainedTo c a v [] := by
  obtain ⟨hformed, htrf, -⟩ := Tile.formed_of_kept c h
  exact ⟨hformed, fun _ => htrf, fun p hp => absurd hp List.not_mem_nil⟩

theorem laDrainPut_drainedTo {c : Cmd} (hreg : laLoc c = true → fmtMx (laFmt c) = false) (t : Tile) {k : Nat} (hk : k ∈ laRows c)
    {vals : List Val} (hlen : vals.length = 32) (draws : List Nat) (bad : Bool) :
    let q := laDrainPut c t k vals draws bad
    Tile.DrainedTo c t q.1 q.2 := by
  have hsame : Tile.Formed c t t := ⟨rfl, rfl, fun _ _ => rfl⟩
  unfold laDrainPut
  cases hmx : fmtMx (laFmt c)
  · cases hl : laLoc c
    · refine ⟨hsame, fun _ => rfl, fun p hp => ⟨hl, k, hk, .inl ?_⟩⟩
      rw [List.mem_singleton.1 hp]
      exact ⟨rfl, packElems_block _ (by simp)⟩
    · exact ⟨⟨rfl, rfl, fun _ _ => rfl⟩, fun h => Bool.noConfusion (h.symm.trans hl), fun p hp => absurd hp List.not_mem_nil⟩
  · have hl : laLoc c = false := by
      cases hl : laLoc c
      · rfl
      · exact Bool.noConfusion ((hreg hl).symm.trans hmx)
    refine ⟨hsame, fun _ => rfl, fun p hp => ⟨hl, k, hk, ?_⟩⟩
    rcases List.mem_cons.1 hp with rfl | hp
    · exact .inl ⟨rfl, packElems_block _ ((packBlock_length _ _ _).trans hlen)⟩
    · rw [List.mem_singleton.1 hp]
      exact .inr ⟨hmx, (Nat.add_assoc _ _ _).symm, rfl⟩

/-- A byte in no block of a selected row, and no scale of one, is in no piece. -/
theorem not_pieceHolds_of_beside {c : Cmd} {k a : Nat} {p : Nat × List Byte} (hp : laPiece c k p)
    (hplane : a < 512 * laAddr c + blockBytes (laFmt c) * (laBoff c + k) ∨
      512 * laAddr c + blockBytes (laFmt c) * (laBoff c + k + 1) ≤ a)
    (hscale : fmtMx (laFmt c) = true → a ≠ 512 * laScl c + laBoff c + k) : ¬pieceHolds a p := by
  rintro ⟨hlo, hhi⟩
  rw [Nat.mul_succ] at hplane
  rcases hp with ⟨hstart, hlen⟩ | ⟨hmx, hstart, hlen⟩
  · omega
  · have := hscale hmx
    omega

/-- DRAIN forms its rows, then writes its pieces, those of the plane before those of the scale plane. -/
theorem Tile.laDrain_eq (t : Tile) (me : Site) (c : Cmd) (srexp : Bool) :
    let q := t.laDrainRows me c srexp (laDrainPut c)
    ∃ ps ps' w, (∀ p ∈ ps ++ ps', p ∈ q.2) ∧
      t.laDrain me c srexp = ((q.1.writePieces me 1 ps fun _ => false).1.writePieces me 1 ps' fun _ => false).1.onLast .la
        fun r => { r with writes := w } := by
  refine ⟨_, _, _, fun p hp => ?_, rfl⟩
  rcases List.mem_append.1 hp with hp | hp
  · exact List.mem_of_mem_filter hp
  · exact List.mem_of_mem_filter hp

/-- DRAIN as far as its frame goes: rows formed and the command begun, then pieces of the selected rows written. -/
theorem Tile.laDrain_frame (t : Tile) (ph : Phys) (me : Site) {c : Cmd} (srexp : Bool)
    (hreg : laLoc c = true → fmtMx (laFmt c) = false) :
    ∃ (v : Tile) (r : Run) (ps ps' : List (Nat × List Byte)) (w : List (Nat × Nat)), Tile.DrainedTo c t v (ps ++ ps') ∧ r.cmd = c ∧
      r.malformed = false ∧ (t.phys ph).laDrain me c srexp =
        (((v.begin .la r).writePieces me 1 ps fun _ => false).1.writePieces me 1 ps' fun _ => false).1.onLast .la
          fun r => { r with writes := w } := by
  obtain ⟨u, v, r, hrows, hview, hbegin, hc, hm⟩ := (t.phys ph).laDrainRows_induction
    (motive := fun _ v ps => Tile.DrainedTo c t v ps) me c srexp (laDrainPut c)
    (fun v hv => Tile.drainedTo_nil ((Tile.kept_of_laView hv).trans (t.phys_kept ph)))
    (fun fx done v ps bad k hk hv => by
      obtain ⟨hformed, htrf, -⟩ := v.drainRow_formed me fx hk
      have hrow : Tile.DrainedTo c v (v.drainRow me c fx k).tile [] :=
        ⟨hformed, fun _ => htrf, fun p hp => absurd hp List.not_mem_nil⟩
      exact hv.trans (hrow.trans (laDrainPut_drainedTo hreg _ hk (v.drainRow_vals_length me c fx k) _ bad)))
  obtain ⟨hformed, htrf, hpieces⟩ := hrows.trans (Tile.drainedTo_nil (Tile.kept_of_laView hview))
  obtain ⟨ps, ps', w, hps, heq⟩ := (t.phys ph).laDrain_eq me c srexp
  rw [hbegin] at heq
  exact ⟨v, r, ps, ps', w, ⟨hformed, htrf, fun p hp => hpieces p (List.mem_append_left _ (hps p hp))⟩, hc, hm, heq⟩

theorem Tile.laStarted_of_besideSp {a b b' : Tile} {c : Cmd} (h : a.laStarted b c) (hb : b'.besideSp = b.besideSp) :
    a.laStarted b' c := by
  simp only [Tile.besideSp, Prod.mk.injEq] at hb
  obtain ⟨hmu, hcore, hgroups, hunits, hla, -⟩ := hb
  obtain ⟨hstarted, kmu, kcore, kgroups, klimbs⟩ := h
  refine ⟨hstarted.of_unit (Tile.unit_of_units hunits .la), hmu.trans kmu, hcore.trans kcore, hgroups.trans kgroups, fun k hk => ?_⟩
  rw [Tile.laElem, hla]
  exact klimbs k hk

theorem drain_frame {s : State} {n : Site} (ph : Phys) {c : Cmd} (h : s.inReset = false) (hp : s.powered n = true)
    (hr : (s.tile n).laReady (s.cycleOf n) c = true) (hs : (s.tile n).starts .la 3 laMalformed c) :
    Completes (.drain n ph) s fun t => s.onlyTile t n ∧ (s.tile n).laStarted (t.tile n) c ∧
      (if laLoc c = true then (t.tile n).sp.mem = (s.tile n).sp.mem else (t.tile n).trf = (s.tile n).trf) ∧
      (laKeep c = true → ∀ k, ((t.tile n).laElem k).limbs = ((s.tile n).laElem k).limbs) ∧
      ∀ row i, i < 512 →
        (∀ k ∈ laRows c, 512 * row + i < 512 * laAddr c + blockBytes (laFmt c) * (laBoff c + k) ∨
          512 * laAddr c + blockBytes (laFmt c) * (laBoff c + k + 1) ≤ 512 * row + i) →
        (fmtMx (laFmt c) = true → ∀ k ∈ laRows c, 512 * row + i ≠ 512 * laScl c + laBoff c + k) →
        (t.tile n).spByte row i = (s.tile n).spByte row i := by
  refine completes_startOp (by simp only [exec]; rfl) h hp hs hr fun t ht htile => ⟨ht, ?_⟩
  obtain ⟨-, hop, -, hwf, -⟩ := hs
  obtain ⟨v, r, ps, ps', w, ⟨hformed, htrf, hpieces⟩, hc, hm, heq⟩ := (s.tile n).laDrain_frame ph n (s.steward.feature 1)
    fun hl => (laMalformed_register hwf (.inr hop) hl).2
  generalize hb : (((v.begin .la r).writePieces n 1 ps fun _ => false).1.writePieces n 1 ps' fun _ => false).1 = b at heq
  have hbeside : b.besideSp = (v.begin .la r).besideSp := by
    rw [← hb, Tile.writePieces_besideSp, Tile.writePieces_besideSp]
  obtain ⟨hstarted, hmu, hcore, hgroups, hlimbs⟩ := Tile.laStarted_of_besideSp (hformed.laStarted hc hm) hbeside
  have hla : b.la = v.la := by
    simp only [Tile.besideSp, Prod.mk.injEq] at hbeside
    exact hbeside.2.2.2.2.1
  rw [htile, heq]
  refine ⟨⟨hstarted.onLast fun _ => ⟨rfl, rfl⟩, hmu, hcore, hgroups, hlimbs⟩, ?_, fun hkeep k => ?_, fun row i _ hplane hscale => ?_⟩
  · cases hl : laLoc c
    · exact (Tile.trf_of_besideSp hbeside).trans (htrf hl)
    · have hnone : ps ++ ps' = [] :=
        List.eq_nil_iff_forall_not_mem.2 fun p hp => Bool.noConfusion ((hpieces p hp).1.symm.trans hl)
      obtain ⟨rfl, rfl⟩ := List.append_eq_nil_iff.1 hnone
      subst hb
      exact hformed.mem
  · refine Eq.trans ?_ (hformed.keep hkeep k)
    exact congrArg (fun x : LaSt => (Map.get noElem x.elems k).limbs) hla
  · have hout : ∀ p ∈ ps ++ ps', ¬pieceHolds (512 * row + i) p := fun p hp => by
      obtain ⟨-, k, hk, hpk⟩ := hpieces p hp
      exact not_pieceHolds_of_beside hpk (hplane k hk) fun hmx => hscale hmx k hk
    have hbyte : Memory.read b.sp.mem (512 * row + i) = Memory.read v.sp.mem (512 * row + i) := by
      rw [← hb, Tile.read_writePieces _ _ _ _ _ fun p hp => hout p (List.mem_append_right _ hp),
        Tile.read_writePieces _ _ _ _ _ fun p hp => hout p (List.mem_append_left _ hp)]
      rfl
    exact hbyte.trans (congrArg (Memory.read · (512 * row + i)) hformed.mem)

/-! ## DRAIN with KEEP to a tile register (R124, R126) -/

/-- What a key reads as after consecutive keys have been set. -/
theorem Map.get_setAll_range {α : Type} [DecidableEq α] (d : Nat → α) (m : Map α) (a n : Nat) (g : Nat → α) (x : Nat) :
    Map.get d (Map.setAll d m ((List.range n).map fun i => (a + i, g i))) x =
      if a ≤ x ∧ x < a + n then g (x - a) else Map.get d m x := by
  induction n with
  | zero => exact (if_neg (by omega)).symm
  | succ n ih =>
    rw [List.range_succ, List.map_append, Map.setAll, List.foldl_append]
    refine (Map.get_set d _ (a + n) (g n) x).trans ?_
    by_cases hx : x = a + n
    · rw [if_pos hx, if_pos (by omega), hx, Nat.add_sub_cancel_left]
    · rw [if_neg hx]
      exact ih.trans (if_congr (by omega) rfl rfl)

theorem Tile.trfGet_trfSetAll (t : Tile) (n r c : Nat) (ws : List Word) (m q d : Nat) :
    (t.trfSetAll n r c ws).trfGet m q d =
      if 1024 * n + 32 * r + c ≤ 1024 * m + 32 * q + d ∧ 1024 * m + 32 * q + d < 1024 * n + 32 * r + c + ws.length then
        ws.getD (1024 * m + 32 * q + d - (1024 * n + 32 * r + c)) 0
      else t.trfGet m q d :=
  Map.get_setAll_range trfZero t.trf _ ws.length (fun i => ws.getD i 0) _

/-- Two buffer rows go to two register rows (R119). -/
theorem laRegRow_inj {c : Cmd} {i j : Nat} (hi : i < 32) (hj : j < 32) (h : laRegRow c i = laRegRow c j) : i = j := by
  unfold laRegRow at h
  split at h <;> omega

/-- A row of errorless elements formed with KEEP and no fused operand: nothing changes, and its values are the elements' own. -/
theorem Tile.drainRow_plain {t : Tile} (h : t.la.bad = []) (me : Site) {c : Cmd} (hkeep : laKeep c = true) (hfop : laFop c = 0) (fx : Rows)
    (k : Nat) : (t.drainRow me c fx k).tile = t ∧ ∀ col < 32, (t.drainRow me c fx k).vals.getD col .nan =
      if (t.laElem (laKey (laBuf c) (32 * (laRow0 c + k) + col))).poison then .nan
      else (t.laElem (laKey (laBuf c) (32 * (laRow0 c + k) + col))).val := by
  have hcheck : (List.range 32).foldl (fun t col => t.laCheck me (laKey (laBuf c) (32 * (laRow0 c + k) + col)) none) t = t :=
    List.foldlRecOn (motive := fun u : Tile => u = t) (List.range 32) _ rfl fun u hu col _ => by
      rw [hu, Tile.laCheck_of_no_errors h]
  unfold Tile.drainRow
  simp only [hcheck, hkeep, if_true, hfop]
  refine ⟨trivial, fun col hcol => ?_⟩
  simp [hcol, fuse]

/-- The entry that DRAIN makes of an element, rounding to nearest even. -/
def laEntry (c : Cmd) (x : LaElem) : Word := BitVec.ofNat 32 (encodeElem (laFmt c) none (if x.poison then .nan else x.val)).code

/-- A row put into a tile register without draws: its entries are the codes of the values, and those of other rows stay. -/
theorem laDrainPut_register {c : Cmd} (hl : laLoc c = true) (hmx : fmtMx (laFmt c) = false) (haddr : laAddr c < 16) (t : Tile) (k : Nat)
    (vals : List Val) (bad : Bool) {q col : Nat} (hcol : col < 32) :
    (laDrainPut c t k vals [] bad).1.trfGet (laAddr c) q col =
      if q = laRegRow c (laRow0 c + k) then BitVec.ofNat 32 (encodeElem (laFmt c) none (vals.getD col .nan)).code
      else t.trfGet (laAddr c) q col := by
  unfold laDrainPut
  simp only [hmx, hl, if_true, Bool.false_eq_true, if_false, Nat.mod_eq_of_lt haddr, Tile.trfGet_trfSetAll, List.length_map,
    List.length_range]
  by_cases hq : q = laRegRow c (laRow0 c + k)
  · rw [if_pos hq, if_pos (by omega), hq, Nat.add_zero, Nat.add_sub_cancel_left]
    simp [hcol]
  · rw [if_neg hq, if_neg (by omega)]

/-- Tile `v` is `a` after the rows `done` of the DRAIN `c` have entered its register: with no error among the elements, they stay. -/
def Tile.Entered (c : Cmd) (a : Tile) (done : List Nat) (v : Tile) : Prop :=
  v.la.elems = a.la.elems ∧ v.la.bad = [] ∧ ∀ k ∈ done, k ∈ laRows c → ∀ col < 32,
    v.trfGet (laAddr c) (laRegRow c (laRow0 c + k)) col = laEntry c (a.laElem (laKey (laBuf c) (32 * (laRow0 c + k) + col)))

theorem Tile.Entered.of_laView {c : Cmd} {a u v : Tile} {done : List Nat} (h : Tile.Entered c a done u) (hv : v.laView = u.laView) :
    Tile.Entered c a done v := by
  simp only [Tile.laView, Tile.outside, Prod.mk.injEq] at hv
  obtain ⟨⟨-, -, htrf, -⟩, helems, -, hbad⟩ := hv
  obtain ⟨kelems, kbad, kentries⟩ := h
  refine ⟨helems.trans kelems, hbad.trans kbad, fun k hk hrow col hcol => ?_⟩
  rw [Tile.trfGet, htrf]
  exact kentries k hk hrow col hcol

/-- One row more. -/
theorem Tile.Entered.row {c : Cmd} {a v : Tile} {done : List Nat} (h : Tile.Entered c a done v) (hwf : laMalformed c = false)
    (hop : c.op = 3) (hl : laLoc c = true) (hkeep : laKeep c = true) (hfop : laFop c = 0) (me : Site) (fx : Rows) (bad : Bool) {k : Nat}
    (hk : k ∈ laRows c) :
    Tile.Entered c a (done ++ [k]) (laDrainPut c (v.drainRow me c fx k).tile k (v.drainRow me c fx k).vals [] bad).1 := by
  obtain ⟨helems, hbad, hentries⟩ := h
  obtain ⟨haddr, hmx⟩ := laMalformed_register hwf (.inr hop) hl
  have hrows := laMalformed_rows hwf
  obtain ⟨htile, hvals⟩ := Tile.drainRow_plain hbad me hkeep hfop fx k
  have hla : ∀ vals, (laDrainPut c v k vals [] bad).1.la = v.la := fun vals => by
    unfold laDrainPut
    simp only [hmx, hl, if_true, Bool.false_eq_true, if_false]
    rfl
  rw [htile]
  refine ⟨by rw [hla, helems], by rw [hla, hbad], fun i hi hrow col hcol => ?_⟩
  rw [laDrainPut_register hl hmx haddr v k _ bad hcol]
  split
  next hsame =>
    have hik : i = k := by
      have := (mem_laRows.1 hk).1
      have := (mem_laRows.1 hrow).1
      have := laRegRow_inj (c := c) (by omega) (by omega) hsame
      omega
    rw [hvals col hcol, hik, Tile.laElem, helems]
    rfl
  next hother =>
    refine hentries i ((List.mem_append.1 hi).resolve_right fun hmem => hother ?_) hrow col hcol
    rw [List.mem_singleton.1 hmem]

theorem drain_keeps_value {s : State} {n : Site} {c : Cmd} {r col : Nat} (h : s.inReset = false) (hp : s.powered n = true)
    (hr : (s.tile n).laReady (s.cycleOf n) c = true) (hs : (s.tile n).starts .la 3 laMalformed c) (hl : laLoc c = true)
    (hkeep : laKeep c = true) (hfop : laFop c = 0) (hrnd : laRnd c = 0) (hrow : r ∈ laRows c) (hcol : col < 32)
    (hgood : (s.tile n).la.bad = []) :
    Completes (.drain n { : Phys }) s fun t => s.onlyTile t n ∧
      (t.tile n).trfGet (laAddr c) (laRegRow c (laRow0 c + r)) col =
        laEntry c ((s.tile n).laElem (laKey (laBuf c) (32 * (laRow0 c + r) + col))) := by
  refine completes_startOp (by simp only [exec]; rfl) h hp hs hr fun t ht htile => ⟨ht, ?_⟩
  obtain ⟨-, hop, -, hwf, -⟩ := hs
  have hdraws : ((s.tile n).laDraws c (s.steward.feature 1)).1 = [] := by simp [Tile.laDraws, hrnd]
  obtain ⟨u, v, run, hu, hview, hbegin, -, -⟩ := (s.tile n).laDrainRows_induction
    (motive := fun done v _ => Tile.Entered c (s.tile n) done v) n c (s.steward.feature 1) (laDrainPut c)
    (fun v hv => Tile.Entered.of_laView ⟨rfl, hgood, fun k hk => absurd hk List.not_mem_nil⟩ hv)
    (fun fx done v ps bad k hk hv => by
      rw [hdraws, List.drop_nil, List.take_nil]
      exact hv.row hwf hop hl hkeep hfop n fx bad hk)
  obtain ⟨-, -, hentries⟩ := hu.of_laView hview
  obtain ⟨ps, ps', w, -, heq⟩ := (s.tile n).laDrain_eq n c (s.steward.feature 1)
  have htrf : (t.tile n).trf = v.trf := by
    rw [htile, show (s.tile n).phys { : Phys } = s.tile n from rfl, heq]
    refine (Tile.trf_of_besideSp (Tile.writePieces_besideSp _ _ _ _ _)).trans ?_
    rw [Tile.trf_of_besideSp (Tile.writePieces_besideSp _ _ _ _ _), hbegin]
    rfl
  rw [Tile.trfGet, htrf]
  exact hentries r hrow hrow col hcol

/-- Settles O21 by its clauses: ZERO, PRELOAD, DRAIN and EXPORT, then the values that PRELOAD SET and DRAIN with KEEP pass on exactly. -/
theorem accumulatorCommandsKeepExactValues : Obligations.AccumulatorCommandsKeepExactValues := by
  refine ⟨fun s n c h hp hr hs => zero_clears h hp hr hs, fun s n ph c h hp hr hs => preload_frame ph h hp hr hs,
    fun s n ph c h hp hr hs => drain_frame ph h hp hr hs, fun s n ph c h hp hr hs => exportRows_frame ph h hp hr hs, ?_, ?_⟩
  · exact fun s n c r col m e h hp hr hs hl hm hrow hbit hcol hv _ =>
      preload_sets_value h hp hr hs hl hm (mem_laRows.2 ⟨hrow, hbit⟩) hcol hv
  · exact fun s n c r col h hp hr hs hl hkeep hfop hrnd hrow hbit hcol hgood =>
      drain_keeps_value h hp hr hs hl hkeep hfop hrnd (mem_laRows.2 ⟨hrow, hbit⟩) hcol hgood

end Sys2Proof.Machine


/-! # The vector chain: what its operations leave as it is, and its register port and SF fields (O22) -/

namespace Sys2Proof.Machine

/-! ## What an operation leaves as it is -/

/-- What an operation of the vector chain leaves as it is until it joins the commands in progress: the MU, the core, the patterns, the
shuttle, the elements of the LA, the VC's own queue, and every unit's. -/
def Tile.vcView (t : Tile) : MuSt × CoreSt × Map GroupSt × ShSt × Map LaElem × UnitSt × (UnitC → List Cmd) :=
  (t.mu, t.core, t.groups, t.sh, t.la.elems, t.unit .vc, fun u => (t.unit u).queue)

/-- That, and where the operation writes: the scratchpad's bytes and the tile registers. -/
def Tile.vcKept (t : Tile) :
    (MuSt × CoreSt × Map GroupSt × ShSt × Map LaElem × UnitSt × (UnitC → List Cmd)) × Memory × Map Word :=
  (t.vcView, t.sp.mem, t.trf)

/-! ### What keeps all of it -/

@[simp] theorem Tile.setReg_vcKept (t : Tile) (a : Nat) (w : Word) : (t.setReg a w).vcKept = t.vcKept := rfl

@[simp] theorem Tile.flagBit_vcKept (t : Tile) (off bit : Nat) : (t.flagBit off bit).vcKept = t.vcKept := by
  rw [t.flagBit_frame]
  rfl

@[simp] theorem Tile.count_vcKept (t : Tile) (off k : Nat) : (t.count off k).vcKept = t.vcKept := rfl

@[simp] theorem Tile.err_vcKept (t : Tile) (cls : Nat) : (t.err cls).vcKept = t.vcKept := by
  rw [t.err_frame]
  rfl

theorem Tile.vcKept_ite {p : Prop} [Decidable p] {u v : Tile} (h : u.vcKept = v.vcKept) : (if p then u else v).vcKept = v.vcKept := by
  split
  · exact h
  · rfl

theorem Tile.spFrame.vcKept {a b : Tile} (h : a.spFrame b) : b.vcKept = a.vcKept := by
  obtain ⟨hframe, hmem⟩ := h
  rw [hframe]
  unfold Tile.vcKept
  rw [hmem]
  rfl

/-- A unit's commands in progress are no part of it, but for the VC's own. -/
theorem Tile.onUnit_vcKept (t : Tile) {u : UnitC} {f : UnitSt → UnitSt} (h : u ≠ .vc) (hf : ∀ x, (f x).queue = x.queue) :
    (t.onUnit u f).vcKept = t.vcKept := by
  have hqueue : (fun v => ((t.onUnit u f).unit v).queue) = fun v => (t.unit v).queue := by
    funext v
    by_cases hv : v = u
    · rw [hv, Tile.unit_onUnit_same, hf]
    · rw [Tile.unit_onUnit_ne _ _ hv]
  unfold Tile.vcKept Tile.vcView
  rw [hqueue, Tile.unit_onUnit_ne _ _ h.symm]
  rfl

theorem Tile.privConf_vcKept (t : Tile) {u : UnitC} (flag bit : Nat) (p : Run → Bool) (h : u ≠ .vc) :
    (t.privConf u flag bit p).vcKept = t.vcKept := by
  unfold Tile.privConf
  split
  · refine (Tile.onUnit_vcKept _ h ?_).trans (t.flagBit_vcKept flag bit)
    exact fun _ => rfl
  · rfl

theorem Tile.conflict_vcKept (t : Tile) (own : Nat) (x : Conflict) : (t.conflict own x).vcKept = t.vcKept := by
  unfold Tile.conflict
  split
  · rfl
  · exact (Tile.vcKept_ite (Tile.privConf_vcKept _ _ _ _ (by decide))).trans
      ((Tile.vcKept_ite (Tile.privConf_vcKept _ _ _ _ (by decide))).trans (by simp))

/-- Physical events write nothing (R229, R234). -/
theorem Tile.phys_vcKept (t : Tile) (ph : Phys) : (t.phys ph).vcKept = t.vcKept :=
  (foldl_keeps Tile.vcKept (fun t x => Tile.conflict_vcKept t 0 x) ph.conf _).trans rfl

/-! ### Writes of a row -/

theorem Tile.onSp_vcView (t : Tile) (f : SpSt → SpSt) : (t.onSp f).vcView = t.vcView := rfl

theorem Tile.setPoison_vcView (t : Tile) (row : Nat) (b : Bool) : (t.setPoison row b).vcView = t.vcView := rfl

/-- A stored row is none of it: the errors that its words carried are reported, and its bytes, poison and check bits are set. -/
theorem Tile.storeRow_vcView (t : Tile) (me : Site) (row off : Nat) (data : List Byte) (poison : Bool) :
    (t.storeRow me row off data poison).vcView = t.vcView := by
  have hfix : ∀ (t : Tile) (wk : Nat × EccKind), (match wk.2 with
      | .ce => t.spCe
      | .ue => t.spUe me row).vcView = t.vcView := fun t wk => by
    cases wk.2
    · exact congrArg Prod.fst t.spCe_spFrame.vcKept
    · exact congrArg Prod.fst (t.spUe_spFrame me row).vcKept
  unfold Tile.storeRow
  dsimp only
  split
  · rw [Tile.setPoison_vcView, Tile.onSp_vcView]
    exact foldl_keeps Tile.vcView hfix _ t
  · split
    · rw [Tile.setPoison_vcView, Tile.onSp_vcView]
      exact foldl_keeps Tile.vcView hfix _ t
    · rw [Tile.onSp_vcView]
      exact foldl_keeps Tile.vcView hfix _ t

theorem Tile.writeRow_vcView (t : Tile) (me : Site) (row off : Nat) (data : List Byte) (poison : Bool) (eng : Nat) :
    (t.writeRow me row off data poison eng).vcView = t.vcView := by
  unfold Tile.writeRow
  split
  · rfl
  · split
    · dsimp only
      split <;> rfl
    · exact t.storeRow_vcView me row off data poison

/-! ## Where an operation writes (R141, R159) -/

/-- From `a` to `b` nothing changes but scratchpad bytes in the rows of the output of `c`, or tile registers in its register rows. -/
def Tile.vcOnly (c : Cmd) (a b : Tile) : Prop :=
  b.vcView = a.vcView ∧
    if (vcOut c).loc = 1 then b.sp.mem = a.sp.mem ∧
      ∀ k r col, r < 32 → col < 32 → 4096 + 32 * k + r ∉ vcWrites c → b.trfGet k r col = a.trfGet k r col
    else b.trf = a.trf ∧ ∀ row i, row ∉ vcWrites c → i < 512 → b.spByte row i = a.spByte row i

theorem Tile.vcOnly.of_kept {c : Cmd} {a b : Tile} (h : b.vcKept = a.vcKept) : a.vcOnly c b := by
  simp only [Tile.vcKept, Prod.mk.injEq] at h
  obtain ⟨hview, hmem, htrf⟩ := h
  refine ⟨hview, ?_⟩
  split
  · exact ⟨hmem, fun k r col _ _ _ => by rw [Tile.trfGet, htrf, Tile.trfGet]⟩
  · exact ⟨htrf, fun row i _ _ => by rw [Tile.spByte, hmem, Tile.spByte]⟩

theorem Tile.vcOnly.trans {c : Cmd} {a b d : Tile} (h : a.vcOnly c b) (k : b.vcOnly c d) : a.vcOnly c d := by
  obtain ⟨hview, hout⟩ := h
  obtain ⟨kview, kout⟩ := k
  refine ⟨kview.trans hview, ?_⟩
  split at hout
  next hl =>
    rw [if_pos hl] at kout ⊢
    exact ⟨kout.1.trans hout.1, fun n r col hr hcol hn => (kout.2 n r col hr hcol hn).trans (hout.2 n r col hr hcol hn)⟩
  next hl =>
    rw [if_neg hl] at kout ⊢
    exact ⟨kout.1.trans hout.1, fun row i hrow hi => (kout.2 row i hrow hi).trans (hout.2 row i hrow hi)⟩

theorem mem_upto {x a n : Nat} : x ∈ upto a n ↔ a ≤ x ∧ x < a + n := by
  simp only [upto, List.mem_map, List.mem_range]
  exact ⟨by omega, fun h => ⟨x - a, by omega⟩⟩

/-- The register row of an output position is one that the operation writes. -/
theorem vcEntry_row {c : Cmd} (hl : (vcOut c).loc = 1) {p : Nat} (hp : p < vcOutCount c) :
    4096 + 32 * (vcEntry (vcOut c) p).1 + (vcEntry (vcOut c) p).2.1 ∈ vcWrites c := by
  unfold vcWrites trfRows vcEntry
  rw [if_pos hl]
  by_cases hwalk : (vcOut c).walk = 2
  · simp only [hwalk, if_true, List.mem_map, List.mem_range]
    exact ⟨32 * (p / 1024) + p % 32, by omega, by omega⟩
  · simp only [hwalk, if_false, mem_upto]
    omega

theorem vcEntry_lt (o : VcOpnd) (p : Nat) : (vcEntry o p).2.1 < 32 ∧ (vcEntry o p).2.2 < 32 := by
  unfold vcEntry
  split <;> simp only <;> omega

/-- An output position set in the tile registers. -/
theorem Tile.trfSet_vcOnly {c : Cmd} (hl : (vcOut c).loc = 1) {p : Nat} (hp : p < vcOutCount c) (t : Tile) (w : Word) :
    t.vcOnly c (t.trfSet (vcEntry (vcOut c) p).1 (vcEntry (vcOut c) p).2.1 (vcEntry (vcOut c) p).2.2 w) := by
  refine ⟨rfl, ?_⟩
  rw [if_pos hl]
  refine ⟨rfl, fun k r col hr hcol hout => ?_⟩
  have hrow := vcEntry_row hl hp
  obtain ⟨hq, hd⟩ := vcEntry_lt (vcOut c) p
  generalize vcEntry (vcOut c) p = e at *
  rw [t.trfGet_trfSet, if_neg]
  intro heq
  have hsame : 4096 + 32 * k + r = 4096 + 32 * e.1 + e.2.1 := by omega
  exact hout (hsame ▸ hrow)

/-- The bytes of a row write, all in rows that the operation writes. -/
def vcRowWrite (c : Cmd) (w : Nat × Nat × List Byte) : Prop :=
  ∀ x, 512 * w.1 + w.2.1 ≤ x → x < 512 * w.1 + w.2.1 + w.2.2.length → x / 512 ∈ vcWrites c

/-- Output bytes written into the scratchpad. -/
theorem Tile.writeRow_vcOnly {c : Cmd} (hl : (vcOut c).loc ≠ 1) {w : Nat × Nat × List Byte} (hw : vcRowWrite c w) (t : Tile) (me : Site)
    (poison : Bool) (eng : Nat) : t.vcOnly c (t.writeRow me w.1 w.2.1 w.2.2 poison eng) := by
  refine ⟨t.writeRow_vcView me _ _ _ _ eng, ?_⟩
  rw [if_neg hl]
  refine ⟨Tile.trf_of_besideSp (t.writeRow_besideSp me _ _ _ _ eng), fun row i hrow hi => t.read_writeRow me _ _ _ _ eng ?_⟩
  by_contra hin
  have hmem := hw (512 * row + i) (by omega) (by omega)
  rw [show (512 * row + i) / 512 = row by omega] at hmem
  exact hrow hmem

/-- The bytes of an output position in the scratchpad lie in rows that the operation writes. -/
theorem vcPosition_row {c : Cmd} (hok : vcOutOk c = true) (hl : (vcOut c).loc ≠ 1) {p x : Nat} (hp : p < vcOutCount c)
    (hx : 512 * (vcOut c).addr + p * elemBytes (vcOut c).fmt ≤ x)
    (hx' : x < 512 * (vcOut c).addr + p * elemBytes (vcOut c).fmt + elemBytes (vcOut c).fmt) : x / 512 ∈ vcWrites c := by
  simp only [vcOutOk, Bool.and_eq_true, Bool.or_eq_true, decide_eq_true_eq, beq_iff_eq] at hok
  obtain ⟨⟨⟨⟨hfmt, -⟩, hloc⟩, hwalk⟩, -⟩ := hok
  have hloc : (vcOut c).loc = 0 := by omega
  have hend : p * elemBytes (vcOut c).fmt + elemBytes (vcOut c).fmt ≤ vcOutCount c * elemBytes (vcOut c).fmt := by
    rw [← Nat.succ_mul]
    exact Nat.mul_le_mul_right _ hp
  simp only [vcWrites, vcOpndRows, hloc]
  rw [if_neg (by decide), if_neg (by omega), if_neg (by omega), if_neg (by omega), mem_upto]
  omega

/-! ## The positions that a beat settles (R154 to R157) -/

theorem length_filter_upto_le (a n : Nat) (p : Nat → Bool) : ((upto a n).filter p).length ≤ n :=
  (List.length_filter_le _ _).trans (by simp [upto])

/-- The positions settled are positions of the output: those of a reduction by the groups that are whole, those of a COMPRESS as many as
there are active lanes, and else the elements' own. -/
theorem VcFlow.settled_lt (f : VcFlow) {c : Cmd} {lo hi : Nat} (hhi : hi ≤ vcCount c)
    (hpack : (vcLast c).fn = 0x38 → f.outs + (hi - lo) ≤ vcCount c) : ∀ p ∈ (f.settled c lo hi).2, p.1 < vcOutCount c := by
  unfold VcFlow.settled
  dsimp only
  split
  next hred =>
    generalize hm : ite (hi = vcCount c) _ _ = m
    have hle : m ≤ vcOutCount c := by
      rw [← hm]
      unfold vcOutCount
      rw [if_pos hred]
      split
      · exact Nat.le_refl _
      · split <;> omega
    split
    · exact fun p hp => absurd hp List.not_mem_nil
    · intro p hp
      obtain ⟨i, hi, rfl⟩ := List.mem_map.1 hp
      have := mem_upto.1 hi
      simp only
      omega
  next hred =>
    have hcount : vcOutCount c = vcCount c := if_neg hred
    split
    next hfn =>
      intro p hp
      obtain ⟨j, hj, rfl⟩ := List.mem_map.1 hp
      have hlen := length_filter_upto_le lo (hi - lo) fun i => (f.lanes.getD i (redIdentity (vcLast c).fn, false)).2
      have := List.mem_range.1 hj
      have := hpack hfn
      simp only
      omega
    next =>
      intro p hp
      obtain ⟨i, hi, rfl⟩ := List.mem_map.1 hp
      have := mem_upto.1 (List.mem_of_mem_filter hi)
      simp only
      omega

/-- A COMPRESS settles at most one position for each element. -/
theorem VcFlow.settled_packed (f : VcFlow) {c : Cmd} (lo hi : Nat) (h : (vcLast c).fn = 0x38) :
    (f.settled c lo hi).1 ≤ f.outs + (hi - lo) := by
  unfold VcFlow.settled
  dsimp only
  rw [if_neg (by rw [h]; decide), if_pos h]
  exact Nat.add_le_add_left (length_filter_upto_le lo (hi - lo) _) _

/-! ## The operation beat by beat -/

/-- An operation begun at the tile `a` has written nothing but its output, and what it still has on its way is output; a COMPRESS has
settled at most `m` positions. -/
structure VcFlow.Within (c : Cmd) (a : Tile) (m : Nat) (f : VcFlow) : Prop where
  tile : a.vcOnly c f.tile
  regs : ∀ w ∈ f.trfW, (vcOut c).loc = 1 ∧ w.2.1 < vcOutCount c
  gather : ∀ p ∈ f.gather, p.1 < vcOutCount c
  rows : ∀ w ∈ f.spW, (vcOut c).loc ≠ 1 ∧ vcRowWrite c w.2
  packed : (vcLast c).fn = 0x38 → f.outs ≤ m

namespace VcFlow.Within

variable {c : Cmd} {a : Tile} {m : Nat} {f : VcFlow} (h : f.Within c a m) (me : Site)
include h

theorem mono {n : Nat} (hn : m ≤ n) : f.Within c a n := ⟨h.tile, h.regs, h.gather, h.rows, fun hfn => (h.packed hfn).trans hn⟩

theorem applySp (e : Nat) : (f.applySp me e).Within c a m := by
  refine ⟨?_, h.regs, h.gather, fun w hw => h.rows w (List.mem_of_mem_drop hw), h.packed⟩
  refine List.foldlRecOn (motive := fun t : Tile => a.vcOnly c t) _ _ h.tile fun t ht w hw => ?_
  obtain ⟨hl, hrow⟩ := h.rows w ((List.takeWhile_sublist _).subset hw)
  exact ht.trans (Tile.writeRow_vcOnly hl hrow t me false 0)

theorem applyTrf (e : Nat) : (f.applyTrf (vcOut c) e).Within c a m := by
  refine ⟨?_, fun w hw => h.regs w (List.mem_of_mem_drop hw), h.gather, h.rows, h.packed⟩
  refine List.foldlRecOn (motive := fun t : Tile => a.vcOnly c t) _ _ h.tile fun t ht w hw => ?_
  obtain ⟨hl, hp⟩ := h.regs w ((List.takeWhile_sublist _).subset hw)
  exact ht.trans (Tile.trfSet_vcOnly hl hp t _)

theorem readRow (k row : Nat) (last : Option Nat) : (f.readRow me k row last).Within c a m := by
  unfold VcFlow.readRow
  dsimp only
  generalize slotFrom _ 2 0 = e
  obtain ⟨htile, hregs, hgather, hrows, hpacked⟩ := h.applySp me e
  exact ⟨htile.trans (.of_kept (Tile.readRow_spFrame _ me row).vcKept), hregs, hgather, hrows, hpacked⟩

theorem fetchRun (k lo hi : Nat) : (f.fetchRun me c k lo hi).Within c a m := by
  unfold VcFlow.fetchRun
  dsimp only
  split
  · exact h
  · refine List.foldlRecOn (motive := fun f : VcFlow => f.Within c a m) _ _ h fun g hg row _ => ?_
    split
    · exact hg
    · exact hg.readRow me k row _

theorem fetchSingles : (f.fetchSingles me c).Within c a m := by
  refine List.foldlRecOn (motive := fun f : VcFlow => f.Within c a m) _ _ h fun g hg k _ => ?_
  dsimp only
  split
  · exact hg
  · exact List.foldlRecOn (motive := fun f : VcFlow => f.Within c a m) _ _ hg fun g hg row _ => hg.readRow me k row none

theorem yield (y : Nat) : (f.yield y).Within c a m := by
  refine ⟨h.tile, fun w hw => ?_, h.gather, h.rows, h.packed⟩
  obtain ⟨v, hv, rfl⟩ := List.mem_map.1 hw
  split <;> exact h.regs v hv

theorem portCycle (rd : Nat) : (f.portCycle rd).1.Within c a m := by
  unfold VcFlow.portCycle
  split
  · exact h.yield f.next
  · exact ⟨h.tile, h.regs, h.gather, h.rows, h.packed⟩

theorem ports (rows e : Nat) : (f.ports rows e).1.Within c a m := by
  unfold VcFlow.ports
  split
  · exact ⟨h.tile, h.regs, h.gather, h.rows, h.packed⟩
  · dsimp only
    refine List.foldlRecOn (motive := fun b : VcFlow × Nat => b.1.Within c a m) _ _ ?_ fun b hb j _ => ?_
    · refine List.foldlRecOn (motive := fun f : VcFlow => f.Within c a m) _ _ h fun g hg _ _ => ?_
      have hcycle := hg.portCycle 0
      split
      · exact ⟨hcycle.tile, hcycle.regs, hcycle.gather, hcycle.rows, hcycle.packed⟩
      · exact hcycle
    · have hcycle := hb.portCycle (min 4 (rows - 4 * j))
      split
      · exact hcycle.portCycle _
      · exact hcycle

theorem readTrf (rows e : Nat) : (f.readTrf rows e).Within c a m := ⟨h.tile, h.regs, h.gather, h.rows, h.packed⟩

/-- Output codes put on their way are output. -/
theorem put (hok : vcOutOk c = true) (rdy : Nat) {n : Nat} (final : Bool) {codes : List (Nat × Nat)}
    (hcodes : ∀ p ∈ codes, p.1 < vcOutCount c) (hn : (vcLast c).fn = 0x38 → n ≤ m) : (f.put c rdy n final codes).Within c a m := by
  unfold VcFlow.put
  dsimp only
  split
  next hl =>
    refine ⟨h.tile, fun w hw => ?_, h.gather, h.rows, hn⟩
    rcases List.mem_append.1 hw with hw | hw
    · exact h.regs w hw
    · obtain ⟨p, hp, rfl⟩ := List.mem_map.1 hw
      exact ⟨hl, hcodes p hp⟩
  next hl =>
    have hall : ∀ p ∈ f.gather ++ codes, p.1 < vcOutCount c := fun p hp =>
      (List.mem_append.1 hp).elim (h.gather p) (hcodes p)
    refine ⟨h.tile, h.regs, fun p hp => hall p (List.mem_of_mem_filter hp), fun w hw => ?_, hn⟩
    rcases List.mem_append.1 hw with hw | hw
    · exact h.rows w hw
    · obtain ⟨v, hv, rfl⟩ := List.mem_map.1 hw
      refine ⟨hl, fun x hx hx' => ?_⟩
      obtain ⟨q, hq, hhold⟩ := rowWrites_within hv (a := x) ⟨hx, hx'⟩
      obtain ⟨p, hp, rfl⟩ := List.mem_map.1 hq
      obtain ⟨hlo, hhi⟩ := hhold
      rw [leBytes_length] at hhi
      exact vcPosition_row hok hl (hall p (List.mem_of_mem_filter hp)) hlo hhi

theorem beat (hok : vcOutOk c = true) {lo hi : Nat} (hhi : hi ≤ vcCount c) (hm : m + (hi - lo) ≤ vcCount c) :
    (f.beat me c lo hi).Within c a (m + (hi - lo)) := by
  unfold VcFlow.beat
  extract_lets stages expand pk f1 opIn entry g pre below f2
  have h1 : f1.Within c a m := List.foldlRecOn (motive := fun f : VcFlow => f.Within c a m) _ _ h fun g hg k _ => by
    split
    · exact hg
    · exact hg.fetchRun me k lo hi
  have h2 : f2.Within c a m := by
    unfold f2
    split
    · exact h1.fetchRun me _ _ _
    · exact h1
  have h3 := h2.ports (vcRegRows c) (entry f2)
  split
  next f3 e hports =>
    rw [hports] at h3
    extract_lets f4 f5 ls seen f6
    have h4 : f4.Within c a m := (h3.readTrf _ _).applyTrf _
    have h5 : f5.Within c a m := by
      unfold f5
      split
      · exact ⟨h4.tile, h4.regs, h4.gather, h4.rows, h4.packed⟩
      · exact h4
    have h6 : f6.Within c a m := ⟨h5.tile, h5.regs, h5.gather, h5.rows, h5.packed⟩
    have hlt := f6.settled_lt (lo := lo) hhi fun hfn => (Nat.add_le_add_right (h6.packed hfn) _).trans hm
    have hpacked : (vcLast c).fn = 0x38 → (f6.settled c lo hi).1 ≤ m + (hi - lo) := fun hfn =>
      (f6.settled_packed lo hi hfn).trans (Nat.add_le_add_right (h6.packed hfn) _)
    split
    next n vals hsettled =>
      rw [hsettled] at hlt hpacked
      extract_lets encs f7
      have h7 : f7.Within c a (m + (hi - lo)) :=
        ⟨h6.tile, h6.regs, h6.gather, h6.rows, fun hfn => (h6.packed hfn).trans (Nat.le_add_right _ _)⟩
      refine h7.put hok _ _ (fun p hp => ?_) hpacked
      obtain ⟨q, hq, rfl⟩ := List.mem_map.1 hp
      obtain ⟨v, hv, rfl⟩ := List.mem_map.1 hq
      exact hlt v hv

end VcFlow.Within

/-- The beats of an operation, each of at most `w` elements. -/
theorem VcFlow.Within.beats {c : Cmd} {a : Tile} {f : VcFlow} (h : f.Within c a 0) (me : Site) (hok : vcOutOk c = true) (w k : Nat) :
    ((List.range k).foldl (fun f b => f.beat me c (b * w) (min (vcCount c) (b * w + w))) f).Within c a (min (vcCount c) (k * w)) := by
  induction k with
  | zero => exact h.mono (Nat.zero_le _)
  | succ k ih =>
    rw [List.range_succ, List.foldl_append]
    have hnext : min (vcCount c) (k * w) + (min (vcCount c) (k * w + w) - k * w) ≤ min (vcCount c) ((k + 1) * w) := by
      rw [Nat.succ_mul]
      omega
    exact (ih.beat me hok (Nat.min_le_left _ _) (hnext.trans (Nat.min_le_left _ _))).mono hnext

/-- An operation from its first beat to its last write. -/
theorem Tile.vcFlow_vcOnly (t : Tile) (me : Site) {c : Cmd} (hok : vcOutOk c = true) (now : Nat) :
    t.vcOnly c (t.vcFlow me c now).tile := by
  unfold Tile.vcFlow
  extract_lets w n f0 f stop
  have htile : t.vcOnly c f0.tile := .of_kept (congrArg Tile.vcKept (rfl : f0.tile = t))
  have h0 : f0.Within c t 0 :=
    ⟨htile, fun _ hw => absurd hw List.not_mem_nil, fun _ hp => absurd hp List.not_mem_nil,
      fun _ hw => absurd hw List.not_mem_nil, fun _ => Nat.le_refl _⟩
  have hf : f.Within c t (min n ((n + w - 1) / w * w)) := (h0.fetchSingles me).beats me hok w _
  exact ((hf.applySp me stop).applyTrf stop).tile

/-- An operation has run its beats and set its flags when it joins the commands in progress. -/
theorem Tile.vcRun_eq (t : Tile) (me : Site) (c : Cmd) (ph : Phys) (now : Nat) :
    ∃ (v : Tile) (r : Run), t.vcRun me c ph now = v.begin .vc r ∧ r.cmd = c ∧ r.malformed = false ∧
      v.vcKept = ((t.phys ph).vcFlow me c now).tile.vcKept := by
  unfold Tile.vcRun
  extract_lets f poison isPack t0 t1 t2 t3 t4 t5 t6 t7
  have h1 : t1.vcKept = t0.vcKept := Tile.vcKept_ite ((Tile.err_vcKept _ _).trans (Tile.flagBit_vcKept _ _ _))
  have h2 : t2.vcKept = t1.vcKept := Tile.vcKept_ite (Tile.flagBit_vcKept _ _ _)
  have h3 : t3.vcKept = t2.vcKept := Tile.vcKept_ite ((Tile.err_vcKept _ _).trans (Tile.flagBit_vcKept _ _ _))
  have h4 : t4.vcKept = t3.vcKept := Tile.vcKept_ite (Tile.flagBit_vcKept _ _ _)
  have h5 : t5.vcKept = t4.vcKept := Tile.vcKept_ite (Tile.flagBit_vcKept _ _ _)
  have h6 : t6.vcKept = t5.vcKept := Tile.vcKept_ite (Tile.flagBit_vcKept _ _ _)
  have h7 : t7.vcKept = t6.vcKept := Tile.vcKept_ite (Tile.setReg_vcKept _ _ _)
  have hall : t7.vcKept = f.tile.vcKept := by rw [h7, h6, h5, h4, h3, h2, h1]
  exact ⟨_, _, rfl, rfl, rfl, hall⟩

theorem Tile.vcRun_vcOnly (t : Tile) (me : Site) {c : Cmd} (hok : vcOutOk c = true) (ph : Phys) (now : Nat) :
    ∃ (v : Tile) (r : Run), t.vcRun me c ph now = v.begin .vc r ∧ r.cmd = c ∧ r.malformed = false ∧ t.vcOnly c v := by
  obtain ⟨v, r, heq, hc, hm, hkept⟩ := t.vcRun_eq me c ph now
  have hphys : t.vcOnly c (t.phys ph) := .of_kept (t.phys_vcKept ph)
  exact ⟨v, r, heq, hc, hm, (hphys.trans ((t.phys ph).vcFlow_vcOnly me hok now)).trans (.of_kept hkept)⟩

theorem Tile.vcOutOk_of_wellFormed {t : Tile} {c : Cmd} (h : t.vcMalformed c = false) : vcOutOk c = true := by
  simp only [Tile.vcMalformed, Bool.not_eq_false', Bool.and_eq_true] at h
  tauto

theorem Tile.vcStart_runs {t : Tile} {c : Cmd} (hq : (t.unit .vc).queue.head? = some c) (hfence : c.badFence = false)
    (hwf : t.vcMalformed c = false) (hmet : t.fenceMet c = true) (hr : t.vcReady c = true) (me : Site) (ph : Phys) (now : Nat) :
    t.vcStart me ph now = t.vcRun me c ph now := by
  obtain ⟨rest, hrest⟩ := List.head?_eq_some_iff.1 hq
  have hqueue : t.units.vc.queue = c :: rest := hrest
  unfold Tile.vcStart
  simp [hqueue, hfence, hwf, hmet, hr]

theorem vcOperation_starts {s : State} {n : Site} (ph : Phys) {c : Cmd} (h : s.inReset = false) (hp : s.powered n = true)
    (hq : ((s.tile n).unit .vc).queue.head? = some c) (hfence : c.badFence = false) (hwf : (s.tile n).vcMalformed c = false)
    (hmet : (s.tile n).fenceMet c = true) (hr : (s.tile n).vcReady c = true) :
    Completes (.vcOperation n ph) s fun t => s.onlyTile t n ∧
      ∃ (v : Tile) (r : Run), t.tile n = v.begin .vc r ∧ r.cmd = c ∧ r.malformed = false ∧ (s.tile n).vcOnly c v :=
  completes_onUnits (f := fun s t => t.vcStart n ph (s.cycleOf n)) (by simp only [exec]; rfl) h hp fun t ht htile => by
    obtain ⟨v, r, heq, hrun⟩ := (s.tile n).vcRun_vcOnly n (Tile.vcOutOk_of_wellFormed hwf) ph (s.cycleOf n)
    exact ⟨ht, v, r, (htile.trans (Tile.vcStart_runs hq hfence hwf hmet hr n ph _)).trans heq, hrun⟩

/-! ## A yield cycle of the register ports (R139) -/

theorem Tile.onUnit_self (t : Tile) (u : UnitC) {f : UnitSt → UnitSt} (h : f (t.unit u) = t.unit u) : t.onUnit u f = t := by
  unfold Tile.onUnit
  rw [h]
  cases u <;> rfl

theorem Tile.trfYield_eq (t : Tile) (now : Nat) :
    t.trfYield now = { t.onUnit .vc fun x =>
      { x with running := x.running.map fun r =>
        { r with trf := r.trf.map fun u => if t.vcRows now = (0, 0) ∨ u.1 < now then u else (u.1 + 1, u.2) } } with
      trfRefused := (0, 0) } := by
  unfold Tile.trfYield
  dsimp only
  have hrows : Tile.vcRows { t with trfRefused := (0, 0) } now = t.vcRows now := rfl
  rw [hrows]
  split
  next hidle =>
    rw [t.onUnit_self .vc (by simp [hidle])]
  next hbusy =>
    simp only [hbusy, false_or]
    rfl

theorem trfYieldCycle_moves {s : State} {n : Site} (h : s.inReset = false) (hp : s.powered n = true)
    (hdue : (s.tile n).trfRefused.1 = 16 ∨ (s.tile n).trfRefused.2 = 16) :
    Completes (.trfYieldCycle n) s fun t => s.onlyTile t n ∧ t.tile n = (s.tile n).trfYield (s.cycleOf n) :=
  completes_onUnits (by simp only [exec]; rfl) h hp fun t ht htile =>
    ⟨ht, htile.trans (if_pos ((Bool.or_eq_true _ _).mpr (hdue.imp decide_eq_true decide_eq_true)))⟩

/-! ## The held SF fields (R181) -/

theorem Tile.reg_checkSlots_ne (t : Tile) {o : Nat} (h : o ≠ Reg.SF_UPSTAT) : t.checkSlots.reg o = t.reg o := by
  unfold Tile.checkSlots
  rw [Tile.reg_setReg, if_neg h]

theorem sfFieldsApply_applies {s : State} {n : Site} (h : s.inReset = false) (hp : s.powered n = true)
    (hheld : (s.tile n).sfHeld.isSome = true) (hold : (s.tile n).sfOldRunning = false) :
    Completes (.sfFieldsApply n) s fun t => s.onlyTile t n ∧
      t.tile n = { s.tile n with sfHeld := none, sfGen := (s.tile n).sfGen + 1 : Tile }.checkSlots :=
  completes_onUnits (by simp only [exec]; rfl) h hp fun t ht htile => by
    refine ⟨ht, htile.trans (if_pos ?_)⟩
    rw [hheld, hold]
    rfl

/-! ## The clauses of O22 -/

/-- Settles O22: a run of the operation writes nothing but its output, by an invariant of its beats; a yield cycle and the held SF fields
by what their rows do to the tile. -/
theorem vectorOperationsStartAndWriteTheirOutput : Obligations.VectorOperationsStartAndWriteTheirOutput := by
  refine ⟨fun s n ph c h hp hq hfence hwf hmet hr => ?_, fun s n h hp hdue => ?_, fun s n h hp hheld hold => ?_⟩
  · obtain ⟨t, hexec, ht, v, r, heq, hc, hm, hview, hout⟩ := vcOperation_starts ph h hp hq hfence hwf hmet hr
    simp only [Tile.vcView, Prod.mk.injEq] at hview
    obtain ⟨hmu, hcore, hgroups, hsh, helems, hvc, hqueues⟩ := hview
    refine ⟨t, hexec, ht, ?_⟩
    rw [heq]
    refine ⟨Tile.started_begin hvc hc hm, hmu, helems, hcore, hgroups, hsh, fun u hu => ?_, hout⟩
    rw [Tile.begin, Tile.unit_onUnit_ne _ _ hu]
    exact congrFun hqueues u
  · obtain ⟨t, hexec, ht, heq⟩ := trfYieldCycle_moves h hp hdue
    exact ⟨t, hexec, ht, heq.trans ((s.tile n).trfYield_eq _)⟩
  · obtain ⟨t, hexec, ht, heq⟩ := sfFieldsApply_applies h hp hheld hold
    refine ⟨t, hexec, ht, ?_⟩
    rw [heq]
    exact ⟨rfl, rfl, fun o ho => Tile.reg_checkSlots_ne _ ho, rfl⟩

end Sys2Proof.Machine


/-! # The core's instructions, traps and waits (O15 to O17) -/

namespace Sys2Proof.Machine

/-! ## Changes of one tile, one after another -/

theorem State.onlyTile.onTile {s u : State} {n : Site} (h : s.onlyTile u n) (f : Tile → Tile) : s.onlyTile (u.onTile n f) n := by
  obtain ⟨hframe, htiles⟩ := h
  refine ⟨?_, fun m hm => (u.tile_onTile_ne f hm).trans (htiles m hm)⟩
  rw [hframe]
  rfl

/-- Nothing but the tile has changed, so nothing is put back. -/
theorem State.onlyTile.leaves {s u : State} {n : Site} (hu : s.onlyTile u n) (h : s.inReset = false) : s.leaves u = u := by
  obtain ⟨hframe, -⟩ := hu
  rw [hframe]
  exact leaves_of_frame _ _ h rfl rfl

theorem Completes.imp {c : Instr} {s : State} {p q : State → Prop} (h : Completes c s p) (hpq : ∀ t, p t → q t) : Completes c s q := by
  obtain ⟨t, hexec, hp⟩ := h
  exact ⟨t, hexec, hpq t hp⟩

/-- A command that changes one tile. -/
theorem completes_onlyTile {c : Instr} {s : State} {n : Site} {f : State → State} {p : Tile → Prop} (he : exec c s = live s f)
    (h : s.inReset = false) (hf : s.onlyTile (f s) n) (hp : p ((f s).tile n)) :
    Completes c s fun t => s.onlyTile t n ∧ p (t.tile n) :=
  completes_live he h (by rw [hf.leaves h]; exact ⟨hf, hp⟩)

/-! ## The state in which an instruction runs (R193, R194) -/

/-- A corrected error of the fetch noted. -/
def Tile.noted (t : Tile) (ecc : CoreEcc) : Tile := if ecc = .ce then t.flagBit Reg.TC_ERR 1 else t

/-- The error of the fetch noted, and the wait for a load just before spent. -/
def State.readied (s : State) (n : Site) (ecc : CoreEcc) (w : Word) : State :=
  (s.noteCe n ecc).onTile n fun t => t.spend (s.loadWait n w)

theorem State.noteCe_onlyTile (s : State) (n : Site) (ecc : CoreEcc) : s.onlyTile (s.noteCe n ecc) n := by
  unfold State.noteCe
  split
  · exact (onlyTile_self s n).onTile _
  · exact onlyTile_self s n

theorem State.readied_onlyTile (s : State) (n : Site) (ecc : CoreEcc) (w : Word) : s.onlyTile (s.readied n ecc w) n :=
  (s.noteCe_onlyTile n ecc).onTile _

theorem State.noteCe_tile (s : State) (n : Site) (ecc : CoreEcc) : (s.noteCe n ecc).tile n = (s.tile n).noted ecc := by
  unfold Tile.noted
  cases ecc
  case ce => exact s.tile_onTile_same n _
  all_goals rfl

theorem State.readied_tile (s : State) (n : Site) (ecc : CoreEcc) (w : Word) :
    (s.readied n ecc w).tile n = ((s.tile n).noted ecc).spend (s.loadWait n w) := by
  rw [State.readied, State.tile_onTile_same, s.noteCe_tile]

theorem Tile.noted_none (t : Tile) : t.noted .none = t := if_neg (by decide)

theorem Tile.noted_frame (t : Tile) (ecc : CoreEcc) : t.noted ecc = { t with regs := (t.noted ecc).regs } := by
  unfold Tile.noted
  split
  · exact t.flagBit_frame _ _
  · rfl

/-- The core itself is as it was. -/
@[simp] theorem Tile.noted_core (t : Tile) (ecc : CoreEcc) : (t.noted ecc).core = t.core := by rw [t.noted_frame]

@[simp] theorem State.readied_core (s : State) (n : Site) (ecc : CoreEcc) (w : Word) :
    ((s.readied n ecc w).tile n).core = (s.tile n).core := by
  rw [s.readied_tile]
  exact Tile.noted_core _ _

@[simp] theorem State.readied_xreg (s : State) (n : Site) (ecc : CoreEcc) (w : Word) (i : Nat) :
    ((s.readied n ecc w).tile n).xreg i = (s.tile n).xreg i := by
  unfold Tile.xreg
  rw [s.readied_core]

/-! ## How an instruction ends -/

/-- What an instruction leaves that puts a value into a register and goes on. -/
theorem Tile.retire_setX_spend (t : Tile) (wait rd : Nat) (v next : Word) (cost : Nat) :
    ((t.spend wait).setX rd v).retire next cost = t.ran rd v next (wait + cost) := by
  unfold Tile.setX Tile.ran
  split
  · simp only [Tile.retire, Tile.spend, Tile.onCore, Nat.add_assoc]
  · simp only [Tile.retire, Tile.spend, Tile.onCore, Nat.add_assoc]

section
variable {s : State} {n : Site} {ecc : CoreEcc} {w raw : Word} {len : Nat} (h : s.coreAtIns n w len raw)
include h

/-- A standard instruction at the core's pc runs to its end. -/
theorem rvInstruction_ends (hecc : ∀ b, ecc ≠ .ueFetch b) {p : Tile → Prop}
    (hf : s.onlyTile (((s.readied n ecc w).coreStd n ecc w len raw).apply n) n)
    (hp : p ((((s.readied n ecc w).coreStd n ecc w len raw).apply n).tile n)) :
    Completes (.rvInstruction n ecc) s fun t => s.onlyTile t n ∧ p (t.tile n) := by
  obtain ⟨hr, hruns, hspecial, hfetch⟩ := h
  have hstd : s.runStd n ecc = ((s.readied n ecc w).coreStd n ecc w len raw).apply n := by
    unfold State.runStd
    rw [hfetch]
    rfl
  refine completes_live (by rw [exec, execRvInstruction]) hr ?_
  rw [if_neg (by simp [hruns])]
  cases ecc
  case ueFetch b => exact absurd rfl (hecc b)
  all_goals
    simp only [hspecial, hstd]
    rw [hf.leaves hr]
    exact ⟨hf, hp⟩

theorem rvInstruction_retires (hecc : ∀ b, ecc ≠ .ueFetch b) {p : Tile → Prop} {u : State} {next : Word} {cost : Nat}
    (he : (s.readied n ecc w).coreStd n ecc w len raw = .retire u next cost) (hu : s.onlyTile u n)
    (hp : p ((u.tile n).retire next cost)) : Completes (.rvInstruction n ecc) s fun t => s.onlyTile t n ∧ p (t.tile n) := by
  refine rvInstruction_ends h hecc ?_ ?_
  · rw [he, CoreEnd.apply]
    exact hu.onTile _
  · rw [he, CoreEnd.apply, State.tile_onTile_same]
    exact hp

/-- An instruction that raises an exception. -/
theorem rvInstruction_traps (hecc : ∀ b, ecc ≠ .ueFetch b) {cause : Nat} {tval : Word} (hc : cause < 16)
    (he : (s.readied n ecc w).coreStd n ecc w len raw = .trap (s.readied n ecc w) cause tval) :
    Completes (.rvInstruction n ecc) s fun t => s.onlyTile t n ∧
      (((s.tile n).noted ecc).spend (s.loadWait n w)).trapped (t.tile n) false cause := by
  refine rvInstruction_ends (p := fun b => (((s.tile n).noted ecc).spend (s.loadWait n w)).trapped b false cause) h hecc ?_ ?_
  · rw [he, CoreEnd.apply]
    exact (s.readied_onlyTile n ecc w).onTile _
  · rw [he, CoreEnd.apply, State.tile_onTile_same, s.readied_tile]
    exact Tile.trapped_trap _ n false tval hc

theorem rvInstruction_puts (hecc : ∀ b, ecc ≠ .ueFetch b) {rd : Nat} {v next : Word} {cost : Nat}
    (he : (s.readied n ecc w).coreStd n ecc w len raw = .retire ((s.readied n ecc w).onTile n fun t => t.setX rd v) next cost) :
    Completes (.rvInstruction n ecc) s fun t => s.onlyTile t n ∧
      t.tile n = ((s.tile n).noted ecc).ran rd v next (s.loadWait n w + cost) := by
  refine rvInstruction_retires (p := fun b => b = ((s.tile n).noted ecc).ran rd v next (s.loadWait n w + cost)) h hecc he ((s.readied_onlyTile n ecc w).onTile _) ?_
  rw [State.tile_onTile_same, s.readied_tile, Tile.retire_setX_spend]

/-- An instruction that writes no register is one that writes x0. -/
theorem rvInstruction_goes (hecc : ∀ b, ecc ≠ .ueFetch b) {next : Word} {cost : Nat}
    (he : (s.readied n ecc w).coreStd n ecc w len raw = .retire (s.readied n ecc w) next cost) :
    Completes (.rvInstruction n ecc) s fun t => s.onlyTile t n ∧
      t.tile n = ((s.tile n).noted ecc).ran 0 0 next (s.loadWait n w + cost) := by
  refine rvInstruction_retires (p := fun b => b = ((s.tile n).noted ecc).ran 0 0 next (s.loadWait n w + cost)) h hecc he (s.readied_onlyTile n ecc w) ?_
  rw [s.readied_tile]
  exact Tile.retire_setX_spend _ _ 0 0 next cost

end


/-! ## What each encoding does (R190) -/

theorem fld_lt {k : Nat} (w : BitVec k) (lo len : Nat) : fld w lo len < 2 ^ len := Nat.mod_lt _ (Nat.two_pow_pos len)

/-- A field within a field. -/
theorem fld_mod {k : Nat} (w : BitVec k) (lo : Nat) {m len : Nat} (hm : m ≤ len) : fld w lo len % 2 ^ m = fld w lo m :=
  Nat.mod_mod_of_dvd _ (pow_dvd_pow 2 hm)

/-- The low five bits of an immediate, a shift's amount. -/
theorem immOf_mod_32 (v : Nat) : (immOf v 12).toNat % 32 = v % 32 := by
  unfold immOf sext
  dsimp only
  have hlt : v % 2 ^ 12 < 2 ^ 12 := Nat.mod_lt _ (by decide)
  split
  · rw [BitVec.toNat_ofInt]
    omega
  · rw [BitVec.toNat_ofInt]
    omega

theorem rvAlu_base {f3 : Nat} (hf : f3 < 8) (a b : Word) :
    rvAlu f3 false a b = if f3 = 0 then a + b else if f3 = 1 then a <<< (b.toNat % 32)
      else if f3 = 2 then (if a.toInt < b.toInt then 1 else 0) else if f3 = 3 then (if a.toNat < b.toNat then 1 else 0)
      else if f3 = 4 then a ^^^ b else if f3 = 5 then a >>> (b.toNat % 32) else if f3 = 6 then a ||| b else a &&& b := by
  interval_cases f3 <;> simp [rvAlu, BitVec.slt, BitVec.ult]

theorem rvMulDiv_products {f3 : Nat} (hf : f3 < 4) (a b : Word) :
    rvMulDiv f3 a b = if f3 = 0 then a * b else if f3 = 1 then BitVec.ofInt 32 (a.toInt * b.toInt / 2 ^ 32)
      else if f3 = 2 then BitVec.ofInt 32 (a.toInt * (b.toNat : Int) / 2 ^ 32) else BitVec.ofNat 32 (a.toNat * b.toNat / 2 ^ 32) := by
  interval_cases f3 <;> rfl

theorem rvMulDiv_quotients {f3 : Nat} (hf : f3 < 8) (h4 : 4 ≤ f3) (a b : Word) :
    rvMulDiv f3 a b = if b = 0 then (if f3 < 6 then 0xFFFFFFFF else a)
      else if f3 = 4 then BitVec.ofInt 32 (a.toInt.tdiv b.toInt) else if f3 = 5 then BitVec.ofNat 32 (a.toNat / b.toNat)
      else if f3 = 6 then BitVec.ofInt 32 (a.toInt.tmod b.toInt) else BitVec.ofNat 32 (a.toNat % b.toNat) := by
  interval_cases f3 <;> rfl

theorem rvTaken_iff {f3 : Nat} (hf : f3 < 8) (h2 : f3 ≠ 2) (h3 : f3 ≠ 3) (a b : Word) :
    rvTaken f3 a b = true ↔ (f3 = 0 ∧ a = b) ∨ (f3 = 1 ∧ a ≠ b) ∨ (f3 = 4 ∧ a.toInt < b.toInt) ∨ (f3 = 5 ∧ b.toInt ≤ a.toInt) ∨
      (f3 = 6 ∧ a.toNat < b.toNat) ∨ (f3 = 7 ∧ b.toNat ≤ a.toNat) := by
  interval_cases f3 <;> simp_all [rvTaken, BitVec.slt, BitVec.ult]

section
variable (s : State) (n : Site) (ecc : CoreEcc) {w : Word} (len : Nat) (raw : Word)

theorem State.coreStd_op (hop : fld w 0 7 = 0x33) : s.coreStd n ecc w len raw =
    s.coreOp n w raw ((s.tile n).core.pc + BitVec.ofNat 32 len) ((s.tile n).xreg (fld w 15 5)) ((s.tile n).xreg (fld w 20 5)) := by
  simp only [State.coreStd, hop]

theorem State.coreStd_opImm (hop : fld w 0 7 = 0x13) : s.coreStd n ecc w len raw =
    s.coreOpImm n w raw ((s.tile n).core.pc + BitVec.ofNat 32 len) ((s.tile n).xreg (fld w 15 5)) := by
  simp only [State.coreStd, hop]

theorem State.coreStd_load (hop : fld w 0 7 = 0x03) (hf : fld w 12 3 ∈ [0, 1, 2, 4, 5]) : s.coreStd n ecc w len raw =
    s.coreLoad n ecc (fld w 12 3) (fld w 7 5) ((s.tile n).xreg (fld w 15 5) + immOf (fld w 20 12) 12)
      ((s.tile n).core.pc + BitVec.ofNat 32 len) := by
  have hf' : fld w 12 3 < 3 ∨ fld w 12 3 = 4 ∨ fld w 12 3 = 5 := by
    simp only [List.mem_cons, List.not_mem_nil, or_false] at hf
    omega
  simp [State.coreStd, hop, hf', or_assoc]

theorem State.coreStd_store (hop : fld w 0 7 = 0x23) (hf : fld w 12 3 < 3) : s.coreStd n ecc w len raw =
    s.coreStore n (fld w 12 3) ((s.tile n).xreg (fld w 15 5) + immS w) ((s.tile n).xreg (fld w 20 5))
      ((s.tile n).core.pc + BitVec.ofNat 32 len) := by
  simp [State.coreStd, hop, hf]

theorem State.coreStd_csr (hop : fld w 0 7 = 0x73) (hf : fld w 12 3 = 1) : s.coreStd n ecc w len raw =
    s.coreCsr n w raw ((s.tile n).core.pc + BitVec.ofNat 32 len) := by
  simp [State.coreStd, hop, hf]

theorem State.coreStd_system (hop : fld w 0 7 = 0x73) (hf : fld w 12 3 = 0) : s.coreStd n ecc w len raw =
    s.coreSystem n w raw := by
  simp [State.coreStd, hop, hf]

theorem State.coreStd_branch (hop : fld w 0 7 = 0x63) (h2 : fld w 12 3 ≠ 2) (h3 : fld w 12 3 ≠ 3) : s.coreStd n ecc w len raw =
    if rvTaken (fld w 12 3) ((s.tile n).xreg (fld w 15 5)) ((s.tile n).xreg (fld w 20 5)) then
      .retire s ((s.tile n).core.pc + immB w) 2
    else .retire s ((s.tile n).core.pc + BitVec.ofNat 32 len) 1 := by
  simp [State.coreStd, hop, h2, h3]

end


/-! ## Computing, branching and jumping (R190, R194) -/

section
variable {s : State} {n : Site} {ecc : CoreEcc} {w raw : Word} {len : Nat} (h : s.coreAtIns n w len raw)
  (hecc : ∀ b, ecc ≠ .ueFetch b)
include h hecc

/-- OP with the values `a` and `b` of its registers. -/
theorem rvInstruction_op {v : Word} {cost : Nat} (hop : fld w 0 7 = 0x33)
    (hv : ∀ u : State, u.coreOp n w raw ((s.tile n).core.pc + BitVec.ofNat 32 len) ((s.tile n).xreg (fld w 15 5))
        ((s.tile n).xreg (fld w 20 5)) =
      .retire (u.onTile n fun t => t.setX (fld w 7 5) v) ((s.tile n).core.pc + BitVec.ofNat 32 len) cost) :
    Completes (.rvInstruction n ecc) s fun t => s.onlyTile t n ∧ t.tile n = ((s.tile n).noted ecc).ran (fld w 7 5) v
      ((s.tile n).core.pc + BitVec.ofNat 32 len) (s.loadWait n w + cost) :=
  rvInstruction_puts h hecc (by rw [State.coreStd_op _ _ _ _ _ hop, s.readied_core, s.readied_xreg, s.readied_xreg, hv])

/-- OP-IMM. -/
theorem rvInstruction_opImm (hop : fld w 0 7 = 0x13)
    (hok : ((fld w 12 3 = 1 && fld w 25 7 ≠ 0) || (fld w 12 3 = 5 && fld w 25 7 ≠ 0 && fld w 25 7 ≠ 0x20)) = false) {v : Word}
    (hv : rvAlu (fld w 12 3) (fld w 12 3 = 5 && fld w 25 7 = 0x20) ((s.tile n).xreg (fld w 15 5)) (immOf (fld w 20 12) 12) = v) :
    Completes (.rvInstruction n ecc) s fun t => s.onlyTile t n ∧ t.tile n = ((s.tile n).noted ecc).ran (fld w 7 5) v
      ((s.tile n).core.pc + BitVec.ofNat 32 len) (s.loadWait n w + 1) := by
  refine rvInstruction_puts h hecc ?_
  rw [State.coreStd_opImm _ _ _ _ _ hop, s.readied_core, s.readied_xreg, ← hv]
  unfold State.coreOpImm
  exact if_neg (ne_true_of_eq_false hok)

/-- A branch, taken or not. -/
theorem rvInstruction_branch {taken : Prop} (hop : fld w 0 7 = 0x63) (h2 : fld w 12 3 ≠ 2) (h3 : fld w 12 3 ≠ 3)
    (ht : rvTaken (fld w 12 3) ((s.tile n).xreg (fld w 15 5)) ((s.tile n).xreg (fld w 20 5)) = true ↔ taken) :
    (taken → Completes (.rvInstruction n ecc) s fun t => s.onlyTile t n ∧
      t.tile n = ((s.tile n).noted ecc).ran 0 0 ((s.tile n).core.pc + immB w) (s.loadWait n w + 2)) ∧
    (¬taken → Completes (.rvInstruction n ecc) s fun t => s.onlyTile t n ∧
      t.tile n = ((s.tile n).noted ecc).ran 0 0 ((s.tile n).core.pc + BitVec.ofNat 32 len) (s.loadWait n w + 1)) := by
  have hstd := (s.readied n ecc w).coreStd_branch n ecc len raw hop h2 h3
  rw [s.readied_core, s.readied_xreg, s.readied_xreg] at hstd
  exact ⟨fun hyes => rvInstruction_goes h hecc (hstd.trans (if_pos (ht.2 hyes))),
    fun hno => rvInstruction_goes h hecc (hstd.trans (if_neg fun hyes => hno (ht.1 hyes)))⟩

end

theorem State.coreOp_base (s : State) (n : Site) {w : Word} (raw next a b : Word) (hf : fld w 25 7 = 0) :
    s.coreOp n w raw next a b = .retire (s.onTile n fun t => t.setX (fld w 7 5) (rvAlu (fld w 12 3) false a b)) next 1 := by
  simp [State.coreOp, hf]

theorem State.coreOp_alt (s : State) (n : Site) {w : Word} (raw next a b : Word) (hf : fld w 25 7 = 0x20)
    (h3 : fld w 12 3 = 0 ∨ fld w 12 3 = 5) :
    s.coreOp n w raw next a b = .retire (s.onTile n fun t => t.setX (fld w 7 5) (rvAlu (fld w 12 3) true a b)) next 1 := by
  simp [State.coreOp, hf, h3]

theorem State.coreOp_mulDiv (s : State) (n : Site) {w : Word} (raw next a b : Word) (hf : fld w 25 7 = 1) :
    s.coreOp n w raw next a b =
      .retire (s.onTile n fun t => t.setX (fld w 7 5) (rvMulDiv (fld w 12 3) a b)) next (mulCost (fld w 12 3) a b) := by
  simp [State.coreOp, hf]

theorem mulCost_products {f3 : Nat} (hf : f3 < 4) (a b : Word) : mulCost f3 a b = 2 := if_pos (by simp [hf])

/-- Cycles of a quotient or remainder (R194). -/
theorem mulCost_quotients (f3 : Nat) (a b : Word) :
    (mulCost f3 a b = 2 ∨ mulCost f3 a b = 34) ∧ (b = 0 → mulCost f3 a b = 2) := by
  unfold mulCost
  refine ⟨?_, fun hb => if_pos (by simp [hb])⟩
  split
  · exact .inl rfl
  · exact .inr rfl

/-! ## Loads and stores (R192, R193, R560) -/

/-- The `k` bytes of the core's memories at an address, those of IMEM below those of DMEM (R192). -/
def CoreSt.loadBytes (c : CoreSt) (a k : Nat) : List Byte :=
  if a < 0x10000 then Memory.readBytes c.imem a k else Memory.readBytes c.dmem (a - 0x10000) k

/-- Where a load or store of a misaligned address traps, the set-up space first (R560, assumption 55). -/
theorem coreAt_cases (a : Word) :
    (a.toNat < 0x10000 ∧ coreAt a = .imem a.toNat) ∨
    (0x10000 ≤ a.toNat ∧ a.toNat < 0x14000 ∧ coreAt a = .dmem (a.toNat - 0x10000)) ∨
    (0x20000 ≤ a.toNat ∧ a.toNat < 0x30000 ∧ coreAt a = .setup (a.toNat - 0x20000)) ∨
    (0x14000 ≤ a.toNat ∧ (a.toNat < 0x20000 ∨ 0x30000 ≤ a.toNat) ∧ coreAt a = .nowhere) := by
  unfold coreAt
  simp only [Bool.and_eq_true, decide_eq_true_eq]
  repeat' split
  all_goals simp; omega

section
variable (s : State) (n : Site) {f3 : Nat} (rd : Nat) {a : Word} (v next : Word)

theorem State.coreLoad_misaligned (ecc : CoreEcc) (h : a.toNat % 2 ^ (f3 % 4) ≠ 0) :
    ∃ tval, s.coreLoad n ecc f3 rd a next = .trap s (if 0x20000 ≤ a.toNat ∧ a.toNat < 0x30000 then 5 else 4) tval := by
  unfold State.coreLoad accessBytes
  rcases coreAt_cases a with ⟨hlt, hat⟩ | ⟨hge, hlt, hat⟩ | ⟨hge, hlt, hat⟩ | ⟨hge, hout, hat⟩
  · exact ⟨_, by rw [hat, if_neg (by omega)]; exact if_pos h⟩
  · exact ⟨_, by rw [hat, if_neg (by omega)]; exact if_pos h⟩
  · exact ⟨_, by rw [hat, if_pos ⟨hge, hlt⟩]; exact if_neg fun hok => hok.2 h⟩
  · exact ⟨_, by rw [hat, if_neg (by omega)]; exact if_pos h⟩

theorem State.coreLoad_nowhere (ecc : CoreEcc) (h : a.toNat % 2 ^ (f3 % 4) = 0) (hge : 0x14000 ≤ a.toNat)
    (hout : a.toNat < 0x20000 ∨ 0x30000 ≤ a.toNat ∨ f3 ≠ 2) :
    ∃ tval, s.coreLoad n ecc f3 rd a next = .trap s 5 tval := by
  unfold State.coreLoad accessBytes
  rcases coreAt_cases a with ⟨hlt, hat⟩ | ⟨-, hlt, hat⟩ | ⟨hlo, hhi, hat⟩ | ⟨-, -, hat⟩
  · omega
  · omega
  · exact ⟨_, by rw [hat]; exact if_neg fun hok => by omega⟩
  · exact ⟨_, by rw [hat]; exact if_neg fun hodd => hodd h⟩

/-- A load of the core's memories. -/
theorem State.coreLoad_memory (h : a.toNat % 2 ^ (f3 % 4) = 0) (hlt : a.toNat < 0x14000) :
    ∃ x, s.coreLoad n .none f3 rd a next = .retire
      ((s.onTile n fun t => t.setX rd (extendLoad f3 (leNat ((s.tile n).core.loadBytes a.toNat (2 ^ (f3 % 4)))))).onTile n fun t =>
        t.onCore fun c => { c with loaded := x }) next 1 := by
  unfold State.coreLoad accessBytes CoreSt.loadBytes
  rcases coreAt_cases a with ⟨hlow, hat⟩ | ⟨hge, -, hat⟩ | ⟨hlo, -, hat⟩ | ⟨hge, -, hat⟩
  · rw [hat, if_pos hlow]
    exact ⟨_, if_neg fun hodd => hodd h⟩
  · rw [hat, if_neg (by omega)]
    exact ⟨_, if_neg fun hodd => hodd h⟩
  · omega
  · omega

theorem State.coreStore_misaligned (h : a.toNat % 2 ^ (f3 % 4) ≠ 0) :
    ∃ tval, s.coreStore n f3 a v next = .trap s (if 0x20000 ≤ a.toNat ∧ a.toNat < 0x30000 then 7 else 6) tval := by
  unfold State.coreStore accessBytes
  rcases coreAt_cases a with ⟨hlt, hat⟩ | ⟨hge, hlt, hat⟩ | ⟨hge, hlt, hat⟩ | ⟨hge, hout, hat⟩
  · exact ⟨_, by rw [hat, if_neg (by omega)]; exact if_pos h⟩
  · exact ⟨_, by rw [hat, if_neg (by omega)]; exact if_pos h⟩
  · exact ⟨_, by rw [hat, if_pos ⟨hge, hlt⟩]; exact if_neg fun hok => hok.2 h⟩
  · exact ⟨_, by rw [hat, if_neg (by omega)]; exact if_pos h⟩

theorem State.coreStore_nowhere (h : a.toNat % 2 ^ (f3 % 4) = 0) (hmem : a.toNat < 0x10000 ∨ 0x14000 ≤ a.toNat)
    (hout : a.toNat < 0x20000 ∨ 0x30000 ≤ a.toNat ∨ f3 ≠ 2) :
    ∃ tval, s.coreStore n f3 a v next = .trap s 7 tval := by
  unfold State.coreStore accessBytes
  rcases coreAt_cases a with ⟨-, hat⟩ | ⟨hge, hlt, hat⟩ | ⟨hlo, hhi, hat⟩ | ⟨-, -, hat⟩
  · exact ⟨_, by rw [hat]; exact if_neg fun hodd => hodd h⟩
  · omega
  · exact ⟨_, by rw [hat]; exact if_neg fun hok => by omega⟩
  · exact ⟨_, by rw [hat]; exact if_neg fun hodd => hodd h⟩

theorem State.coreStore_memory (h : a.toNat % 2 ^ (f3 % 4) = 0) (hge : 0x10000 ≤ a.toNat) (hlt : a.toNat < 0x14000) :
    s.coreStore n f3 a v next = .retire (s.onTile n fun t => t.onCore fun c =>
      { c with dmem := Memory.writeBytes c.dmem (a.toNat - 0x10000) (leBytes (2 ^ (f3 % 4)) v.toNat) }) next 1 := by
  unfold State.coreStore accessBytes
  rcases coreAt_cases a with ⟨hlow, -⟩ | ⟨-, -, hat⟩ | ⟨hlo, -, -⟩ | ⟨hhi, -, -⟩
  · omega
  · rw [hat]
    exact if_neg fun hodd => hodd h
  · omega
  · omega

end

/-- A byte of a number written in bytes. -/
theorem leBytes_getD (n v i : Nat) (hi : i < n) : (leBytes n v).getD i 0 = BitVec.ofNat 8 (v / 2 ^ (8 * i)) := by
  induction n generalizing v i with
  | zero => omega
  | succ n ih =>
    cases i with
    | zero => simp [leBytes]
    | succ i =>
      rw [leBytes, List.getD_cons_succ, ih _ i (by omega), Nat.div_div_eq_div_mul, Nat.mul_succ, Nat.add_comm, Nat.pow_add]


/-! ### CSRs that hold what is written, and MRET (R191, R197) -/

/-- The CSRs of traps that hold what is written: mtvec, mscratch, mepc, mcause and mtval. -/
def trapCsrs : List Nat := [0x305, 0x340, 0x341, 0x342, 0x343]

/-- What one of them reads. -/
def CoreSt.trapCsr (c : CoreSt) (a : Nat) : Word :=
  if a = 0x305 then c.mtvec else if a = 0x340 then c.mscratch else if a = 0x341 then c.mepc else if a = 0x342 then c.mcause else c.mtval

theorem State.csr_trapCsr (s : State) (n : Site) {a : Nat} (ha : a ∈ trapCsrs) : s.csr n a = some ((s.tile n).core.trapCsr a) := by
  simp only [trapCsrs, List.mem_cons, List.not_mem_nil, or_false] at ha
  rcases ha with rfl | rfl | rfl | rfl | rfl <;> rfl

theorem CoreSt.setCsr_trapCsr {c : CoreSt} {time a : Nat} {v : Word} (ha : a ∈ trapCsrs) :
    c.setCsr time a v = { c with
      mtvec := if a = 0x305 then v &&& 0xFFFFFFFC else c.mtvec
      mscratch := if a = 0x340 then v else c.mscratch
      mepc := if a = 0x341 then v &&& 0xFFFFFFFE else c.mepc
      mcause := if a = 0x342 then v else c.mcause
      mtval := if a = 0x343 then v else c.mtval } := by
  simp only [trapCsrs, List.mem_cons, List.not_mem_nil, or_false] at ha
  rcases ha with rfl | rfl | rfl | rfl | rfl <;> rfl

theorem State.coreCsr_csrrw (s : State) (n : Site) {w : Word} (raw next : Word) (hf : fld w 12 3 = 1)
    (ha : fld w 20 12 ∈ trapCsrs) :
    ∃ time, s.coreCsr n w raw next = .retire
      ((s.onTile n fun t => t.setX (fld w 7 5) ((s.tile n).core.trapCsr (fld w 20 12))).onTile n fun t => t.onCore fun c =>
        c.setCsr time (fld w 20 12) ((s.tile n).xreg (fld w 15 5))) next 1 := by
  have hlow : fld w 20 12 / 1024 ≠ 3 ∧ fld w 20 12 ≠ 0xB02 ∧ fld w 20 12 ≠ 0xB82 := by
    simp only [trapCsrs, List.mem_cons, List.not_mem_nil, or_false] at ha
    omega
  obtain ⟨hro, hlo, hhi⟩ := hlow
  unfold State.coreCsr
  simp only [s.csr_trapCsr n ha, hf, hro, hlo, hhi]
  exact ⟨_, rfl⟩

theorem State.coreSystem_mret (s : State) (n : Site) {w : Word} (raw : Word) (hw : w = 0x30200073) :
    s.coreSystem n w raw = .retire (s.onTile n fun t => t.onCore fun c => { c with mie := c.mpie, mpie := true })
      (s.tile n).core.mepc 2 := by
  have h1 : ¬w = 0x00000073 := by rw [hw]; decide
  have h2 : ¬w = 0x00100073 := by rw [hw]; decide
  unfold State.coreSystem
  simp only [if_neg h1, if_neg h2, if_pos hw]

/-! ### The tile after a load or a store -/

/-- The tile after a load: as after an instruction that computes, but for what is remembered of the load (R194). -/
def Tile.ranLoad (t : Tile) (rd : Nat) (v next : Word) (x : Nat × Nat) (cost : Nat) : Tile :=
  { t.ran rd v next cost with core := { (t.ran rd v next 0).core with loaded := x } }

theorem Tile.retire_load (t : Tile) (wait rd : Nat) (v next : Word) (x : Nat × Nat) (cost : Nat) :
    (((t.spend wait).setX rd v).onCore fun c => { c with loaded := x }).retire next cost = t.ranLoad rd v next x (wait + cost) := by
  unfold Tile.setX Tile.ranLoad Tile.ran
  split
  · simp only [Tile.retire, Tile.spend, Tile.onCore, Nat.add_assoc]
  · simp only [Tile.retire, Tile.spend, Tile.onCore, Nat.add_assoc]

/-- The tile after a store. -/
theorem Tile.retire_store (t : Tile) (wait : Nat) (m : Memory) (next : Word) (cost : Nat) :
    ((t.spend wait).onCore fun c => { c with dmem := m }).retire next cost =
      { t.ran 0 0 next (wait + cost) with core := { (t.ran 0 0 next 0).core with dmem := m } } := by
  simp only [Tile.ran, Tile.retire, Tile.spend, Tile.onCore, Nat.add_assoc, if_true]

section
variable {s : State} {n : Site} {w raw : Word} {len : Nat} (h : s.coreAtIns n w len raw)
include h

theorem rvInstruction_load (hop : fld w 0 7 = 0x03) (hf : fld w 12 3 ∈ [0, 1, 2, 4, 5])
    (hal : ((s.tile n).xreg (fld w 15 5) + immOf (fld w 20 12) 12).toNat % 2 ^ (fld w 12 3 % 4) = 0)
    (hlt : ((s.tile n).xreg (fld w 15 5) + immOf (fld w 20 12) 12).toNat < 0x14000) :
    ∃ x, Completes (.rvInstruction n .none) s fun t => s.onlyTile t n ∧ t.tile n = (s.tile n).ranLoad (fld w 7 5)
      (extendLoad (fld w 12 3) (leNat ((s.tile n).core.loadBytes
        ((s.tile n).xreg (fld w 15 5) + immOf (fld w 20 12) 12).toNat (2 ^ (fld w 12 3 % 4)))))
      ((s.tile n).core.pc + BitVec.ofNat 32 len) x (s.loadWait n w + 1) := by
  have hstd := (s.readied n .none w).coreStd_load n .none len raw hop hf
  rw [s.readied_core, s.readied_xreg] at hstd
  obtain ⟨x, hload⟩ := (s.readied n .none w).coreLoad_memory n (fld w 7 5) ((s.tile n).core.pc + BitVec.ofNat 32 len) hal hlt
  rw [s.readied_core] at hload
  refine ⟨x, rvInstruction_retires (p := fun b => b = (s.tile n).ranLoad _ _ _ x _) h (by simp) (hstd.trans hload)
    (((s.readied_onlyTile n .none w).onTile _).onTile _) ?_⟩
  rw [State.tile_onTile_same, State.tile_onTile_same, s.readied_tile]
  exact Tile.retire_load _ _ _ _ _ x 1

/-- An instruction that raises an exception, where no error of its fetch was corrected. -/
theorem rvInstruction_except {cause : Nat} (hc : cause < 16)
    (he : ∃ tval, (s.readied n .none w).coreStd n .none w len raw = .trap (s.readied n .none w) cause tval) :
    Completes (.rvInstruction n .none) s fun t => s.onlyTile t n ∧ (s.tile n).trapped (t.tile n) false cause := by
  obtain ⟨tval, he⟩ := he
  exact rvInstruction_traps h (by simp) hc he

theorem rvInstruction_load_traps {cause : Nat} (hc : cause < 16) (hop : fld w 0 7 = 0x03) (hf : fld w 12 3 ∈ [0, 1, 2, 4, 5])
    (he : ∀ u : State, ∃ tval, u.coreLoad n .none (fld w 12 3) (fld w 7 5)
      ((s.tile n).xreg (fld w 15 5) + immOf (fld w 20 12) 12) ((s.tile n).core.pc + BitVec.ofNat 32 len) = .trap u cause tval) :
    Completes (.rvInstruction n .none) s fun t => s.onlyTile t n ∧ (s.tile n).trapped (t.tile n) false cause := by
  refine rvInstruction_except h hc ?_
  rw [State.coreStd_load _ _ _ _ _ hop hf, s.readied_core, s.readied_xreg]
  exact he _

theorem rvInstruction_store_traps {cause : Nat} (hc : cause < 16) (hop : fld w 0 7 = 0x23) (hf : fld w 12 3 < 3)
    (he : ∀ u : State, ∃ tval, u.coreStore n (fld w 12 3) ((s.tile n).xreg (fld w 15 5) + immS w) ((s.tile n).xreg (fld w 20 5))
      ((s.tile n).core.pc + BitVec.ofNat 32 len) = .trap u cause tval) :
    Completes (.rvInstruction n .none) s fun t => s.onlyTile t n ∧ (s.tile n).trapped (t.tile n) false cause := by
  refine rvInstruction_except h hc ?_
  rw [State.coreStd_store _ _ _ _ _ hop hf, s.readied_core, s.readied_xreg, s.readied_xreg]
  exact he _

theorem rvInstruction_store (hop : fld w 0 7 = 0x23) (hf : fld w 12 3 < 3)
    (hal : ((s.tile n).xreg (fld w 15 5) + immS w).toNat % 2 ^ (fld w 12 3 % 4) = 0)
    (hge : 0x10000 ≤ ((s.tile n).xreg (fld w 15 5) + immS w).toNat) (hlt : ((s.tile n).xreg (fld w 15 5) + immS w).toNat < 0x14000) :
    Completes (.rvInstruction n .none) s fun t => s.onlyTile t n ∧
      t.tile n = { (s.tile n).ran 0 0 ((s.tile n).core.pc + BitVec.ofNat 32 len) (s.loadWait n w + 1) with
        core := { ((s.tile n).ran 0 0 ((s.tile n).core.pc + BitVec.ofNat 32 len) 0).core with
          dmem := Memory.writeBytes (s.tile n).core.dmem (((s.tile n).xreg (fld w 15 5) + immS w).toNat - 0x10000)
            (leBytes (2 ^ (fld w 12 3 % 4)) ((s.tile n).xreg (fld w 20 5)).toNat) } } := by
  have hstd := (s.readied n .none w).coreStd_store n .none len raw hop hf
  rw [s.readied_core, s.readied_xreg, s.readied_xreg, State.coreStore_memory _ _ _ _ hal hge hlt] at hstd
  refine rvInstruction_retires (p := fun b => b = _) h (by simp) hstd ((s.readied_onlyTile n .none w).onTile _) ?_
  rw [State.tile_onTile_same, s.readied_tile]
  exact Tile.retire_store _ _ _ _ _

/-! ## CSRs and system instructions (R191, R197) -/

theorem rvInstruction_mret (hw : w = 0x30200073) : Completes (.rvInstruction n .none) s fun t => s.onlyTile t n ∧
    t.tile n = { s.tile n with
      cycles := (t.tile n).cycles
      core := { (s.tile n).core with mie := (s.tile n).core.mpie, mpie := true, pc := (s.tile n).core.mepc
                                     minstret := (s.tile n).core.minstret + 1 } } := by
  have hstd := (s.readied n .none w).coreStd_system n .none (w := w) len raw (by rw [hw]; decide) (by rw [hw]; decide)
  rw [State.coreSystem_mret _ _ _ hw, s.readied_core] at hstd
  refine rvInstruction_retires (p := fun b : Tile => b = { s.tile n with
      cycles := b.cycles
      core := { (s.tile n).core with mie := (s.tile n).core.mpie, mpie := true, pc := (s.tile n).core.mepc
                                     minstret := (s.tile n).core.minstret + 1 } })
    h (by simp) hstd ((s.readied_onlyTile n .none _).onTile _) ?_
  rw [State.tile_onTile_same, s.readied_tile, Tile.noted_none]
  simp only [Tile.retire, Tile.spend, Tile.onCore]

theorem rvInstruction_ecall (hw : w = 0x00000073) :
    Completes (.rvInstruction n .none) s fun t => s.onlyTile t n ∧ (s.tile n).trapped (t.tile n) false 11 := by
  refine rvInstruction_except h (by decide) ⟨0, ?_⟩
  rw [State.coreStd_system _ _ _ _ _ (by rw [hw]; decide) (by rw [hw]; decide)]
  exact if_pos hw

theorem rvInstruction_ebreak (hw : w = 0x00100073) :
    Completes (.rvInstruction n .none) s fun t => s.onlyTile t n ∧ (s.tile n).trapped (t.tile n) false 3 := by
  have hne : ¬w = 0x00000073 := by rw [hw]; decide
  refine rvInstruction_except h (by decide) ⟨tvalOf 3 ((s.readied n .none w).tile n).core.pc, ?_⟩
  rw [State.coreStd_system _ _ _ _ _ (by rw [hw]; decide) (by rw [hw]; decide)]
  exact (if_neg hne).trans (if_pos hw)

/-- CSRRW of a CSR that holds what is written. -/
theorem rvInstruction_csrrw (hop : fld w 0 7 = 0x73) (hf : fld w 12 3 = 1) (ha : fld w 20 12 ∈ trapCsrs) :
    ∃ time, Completes (.rvInstruction n .none) s fun t => s.onlyTile t n ∧ t.tile n =
      ((((s.tile n).spend (s.loadWait n w)).setX (fld w 7 5) ((s.tile n).core.trapCsr (fld w 20 12))).onCore fun c =>
        c.setCsr time (fld w 20 12) ((s.tile n).xreg (fld w 15 5))).retire ((s.tile n).core.pc + BitVec.ofNat 32 len) 1 := by
  have hstd := (s.readied n .none w).coreStd_csr n .none len raw hop hf
  obtain ⟨time, hcsr⟩ := (s.readied n .none w).coreCsr_csrrw n raw
    (((s.readied n .none w).tile n).core.pc + BitVec.ofNat 32 len) hf ha
  rw [hcsr, s.readied_core, s.readied_xreg] at hstd
  refine ⟨time, rvInstruction_retires (p := fun b => b = _) h (by simp) hstd (((s.readied_onlyTile n .none w).onTile _).onTile _) ?_⟩
  rw [State.tile_onTile_same, State.tile_onTile_same, s.readied_tile]
  rfl

end

/-- The tile after a CSRRW: `rd` holds the old value, the CSR the new one, and nothing else differs (R191). -/
theorem Tile.retire_csrrw (t : Tile) (wait time rd : Nat) (v next : Word) {a : Nat} (ha : a ∈ trapCsrs) :
    let b := (((t.spend wait).setX rd (t.core.trapCsr a)).onCore fun c => c.setCsr time a v).retire next 1
    b.core.x = (if rd = 0 then t.core.x else t.core.x.set rd (t.core.trapCsr a)) ∧ b.core.pc = next ∧
      b.core.minstret = t.core.minstret + 1 ∧
      b = { t with cycles := b.cycles, core := { t.core with
              x := b.core.x, pc := next, minstret := b.core.minstret,
              mtvec := if a = 0x305 then v &&& 0xFFFFFFFC else t.core.mtvec,
              mscratch := if a = 0x340 then v else t.core.mscratch,
              mepc := if a = 0x341 then v &&& 0xFFFFFFFE else t.core.mepc,
              mcause := if a = 0x342 then v else t.core.mcause,
              mtval := if a = 0x343 then v else t.core.mtval } } := by
  simp only [CoreSt.setCsr_trapCsr ha]
  unfold Tile.setX
  split
  · simp only [Tile.retire, Tile.spend, Tile.onCore, and_self]
  · simp only [Tile.retire, Tile.spend, Tile.onCore, and_self]

/-! ## The clauses of O15 -/

/-- Settles O15: each encoding ends as its row of R190 to R194 says, from the state in which its fetch has been noted. -/
theorem coreExecutesItsInstructions : Obligations.CoreExecutesItsInstructions := by
  refine ⟨fun s n ecc w raw len h hecc => ?_, fun s n w raw len h => ?_⟩
  · have hlt : fld w 12 3 < 8 := fld_lt w 12 3
    have hsh : (immOf (fld w 20 12) 12).toNat % 32 = fld w 20 5 := (immOf_mod_32 _).trans (fld_mod (m := 5) w 20 (by decide))
    refine ⟨fun hop hf7 => ?_, fun hop hf7 hf3 => ?_, fun hop hf7 hf3 => ?_, fun hop hf7 hf3 => ?_, fun hop hf7 hf3 => ?_,
      fun hop h1 h5 => ?_, fun hop hf3 hf7 => ?_, fun hop hf3 hf7 => ?_, fun hop hf3 hf7 => ?_, fun hop => ?_, fun hop => ?_,
      fun hop => ?_, fun hop hf3 => ?_, fun hop h2 h3 => ?_, fun hop hf3 => ?_⟩
    · exact rvInstruction_op h hecc hop fun u => by rw [u.coreOp_base n raw _ _ _ hf7, rvAlu_base hlt]
    · exact rvInstruction_op h hecc hop fun u => by rw [u.coreOp_alt n raw _ _ _ hf7 (.inl hf3), hf3]; rfl
    · exact rvInstruction_op h hecc hop fun u => by rw [u.coreOp_alt n raw _ _ _ hf7 (.inr hf3), hf3]; rfl
    · exact rvInstruction_op h hecc hop fun u => by
        rw [u.coreOp_mulDiv n raw _ _ _ hf7, rvMulDiv_products hf3, mulCost_products hf3]
    · obtain ⟨hcost, hzero⟩ := mulCost_quotients (fld w 12 3) ((s.tile n).xreg (fld w 15 5)) ((s.tile n).xreg (fld w 20 5))
      exact ⟨_, hcost, hzero, rvInstruction_op h hecc hop fun u => by
        rw [u.coreOp_mulDiv n raw _ _ _ hf7, rvMulDiv_quotients hlt hf3]⟩
    · refine rvInstruction_opImm h hecc hop (by simp [h1, h5]) ?_
      rw [show (decide (fld w 12 3 = 5) && decide (fld w 25 7 = 0x20)) = false by simp [h5], rvAlu_base hlt, if_neg h1, if_neg h5]
    · exact rvInstruction_opImm h hecc hop (by simp [hf3, hf7]) (by rw [hf3, ← hsh]; rfl)
    · exact rvInstruction_opImm h hecc hop (by simp [hf3, hf7]) (by rw [hf3, hf7, ← hsh]; rfl)
    · exact rvInstruction_opImm h hecc hop (by simp [hf3, hf7]) (by rw [hf3, hf7, ← hsh]; rfl)
    · exact rvInstruction_puts h hecc (by simp only [State.coreStd, hop, s.readied_core])
    · exact rvInstruction_puts h hecc (by simp only [State.coreStd, hop, s.readied_core])
    · exact rvInstruction_puts h hecc (by simp only [State.coreStd, hop, s.readied_core])
    · exact rvInstruction_puts h hecc (by simp only [State.coreStd, hop, hf3, if_true, s.readied_core, s.readied_xreg])
    · exact rvInstruction_branch h hecc hop h2 h3 (rvTaken_iff hlt h2 h3 _ _)
    · exact rvInstruction_goes h hecc (by simp only [State.coreStd, hop, hf3, if_true, s.readied_core])
  · refine ⟨fun hop hf hal hlt => ?_, fun hop hf hodd => ?_, fun hop hf hal hge hout => ?_, fun hop hf hal hge hlt => ?_,
      fun hop hf hodd => ?_, fun hop hf hal hmem hout => ?_, fun hop hf ha => ?_, fun hw => rvInstruction_mret h hw,
      fun hw => rvInstruction_ecall h hw, fun hw => rvInstruction_ebreak h hw⟩
    · obtain ⟨x, hload⟩ := rvInstruction_load h hop hf hal hlt
      exact hload.imp fun t ht => ⟨ht.1, by rw [ht.2]; rfl⟩
    · exact rvInstruction_load_traps h (by split <;> decide) hop hf fun u => u.coreLoad_misaligned n _ _ .none hodd
    · exact rvInstruction_load_traps h (by decide) hop hf fun u => u.coreLoad_nowhere n _ _ .none hal hge hout
    · refine (rvInstruction_store h hop hf hal hge hlt).imp fun t ht => ⟨ht.1, ?_⟩
      rw [ht.2]
      refine ⟨rfl, fun i hi => ?_, fun i hi => ?_⟩
      · rw [Memory.read_writeBytes, leBytes_length, if_pos (by omega), Nat.add_sub_cancel_left, leBytes_getD _ _ _ hi]
      · rw [Memory.read_writeBytes, leBytes_length, if_neg (by omega)]
    · exact rvInstruction_store_traps h (by split <;> decide) hop hf fun u => u.coreStore_misaligned n _ _ hodd
    · exact rvInstruction_store_traps h (by decide) hop hf fun u => u.coreStore_nowhere n _ _ hal hmem hout
    · obtain ⟨time, hcsr⟩ := rvInstruction_csrrw h hop hf ha
      refine hcsr.imp fun t ht => ⟨ht.1, _, s.csr_trapCsr n ha, ?_⟩
      rw [ht.2]
      exact Tile.retire_csrrw _ _ _ _ _ _ ha

end Sys2Proof.Machine


/-! # Traps, waits and code switches of the core (O16) -/

namespace Sys2Proof.Machine

/-! ## Traps after an error has been noted (R193, R197) -/

/-- Tile `b` is `a`, but that flags of TC_ERR may be set. -/
def Tile.flagged (a b : Tile) : Prop := b = { a with regs := b.regs } ∧ ∀ o, o ≠ Reg.TC_ERR → b.reg o = a.reg o

theorem Tile.flagBit_flagged (t : Tile) (bit : Nat) : t.flagged (t.flagBit Reg.TC_ERR bit) := by
  refine ⟨t.flagBit_frame _ _, fun o ho => ?_⟩
  rw [Tile.reg_flagBit _ _ _ rfl, if_neg ho]

theorem Tile.noted_flagged (t : Tile) (ecc : CoreEcc) : t.flagged (t.noted ecc) := by
  unfold Tile.noted
  split
  · exact t.flagBit_flagged 1
  · exact ⟨rfl, fun _ _ => rfl⟩

/-- A trap taken with an error noted is a trap of the tile as it was. -/
theorem Tile.trapped.of_flagged {a c b : Tile} {intr : Bool} {cause : Nat} (hc : a.flagged c) (h : c.trapped b intr cause) :
    a.trapped b intr cause := by
  obtain ⟨hframe, hregs⟩ := hc
  have hcore : c.core = a.core := by rw [hframe]
  have hsp : c.sp = a.sp := by rw [hframe]
  have houtq : c.outq = a.outq := by rw [hframe]
  unfold Tile.trapped at h ⊢
  rw [hcore, hsp, houtq, hregs Reg.TC_CFG (by decide)] at h
  obtain ⟨hx, himem, hdmem, hminstret, hsp', hend⟩ := h
  refine ⟨hx, himem, hdmem, hminstret, hsp', ?_⟩
  split
  next hh => rwa [if_pos hh] at hend
  next hh =>
    rw [if_neg hh] at hend
    obtain ⟨hmode, hpc, hmepc, hmcause, hmpie, hmie, hmtvec, hmscratch, hmeie, hout, hreg⟩ := hend
    exact ⟨hmode, hpc, hmepc, hmcause, hmpie, hmie, hmtvec, hmscratch, hmeie, hout, fun o ho => (hreg o ho).trans (hregs o ho)⟩

/-- A trap clears no flag of TC_ERR. -/
theorem Tile.bitOf_trap_err (t : Tile) (me : Site) (intr : Bool) (cause : Nat) (tval : Word) {i : Nat}
    (h : bitOf (t.reg Reg.TC_ERR) i = true) : bitOf ((t.trap me intr cause tval).reg Reg.TC_ERR) i = true := by
  unfold Tile.trap
  split
  · rw [Tile.reg_raise_haltCore]
    refine Tile.bitOf_flag_of_set _ _ _ _ _ ?_
    rw [Tile.reg_setReg, if_neg (by decide)]
    exact h
  · exact h

/-- Nor does it take back a packet that waits to leave, or change a register. -/
theorem Tile.trap_keeps (t : Tile) (me : Site) (intr : Bool) (cause : Nat) (tval : Word) :
    t.outq ⊆ (t.trap me intr cause tval).outq ∧ (t.trap me intr cause tval).core.x = t.core.x ∧
      (t.trap me intr cause tval).core.minstret = t.core.minstret := by
  unfold Tile.trap
  split
  · exact ⟨List.subset_append_left _ _, rfl, rfl⟩
  · exact ⟨List.Subset.refl _, rfl, rfl⟩

/-! ## Where no instruction runs -/

theorem Tile.special_of_not_ins {t : Tile} (h : ∀ w len raw, t.fetchIns ≠ .ins w len raw) : t.special = none := by
  unfold Tile.special
  split
  next w len raw heq => exact absurd heq (h w len raw)
  next => rfl

theorem State.fetchUe_eq (s : State) (n : Site) (second : Bool) :
    ∃ tval, s.fetchUe n second = (s.onTile n fun t => t.coreUe n).onTile n fun t => t.trap n false 1 tval := ⟨_, rfl⟩

theorem Tile.coreUe_core (t : Tile) (me : Site) : (t.coreUe me).core = t.core := by
  change (t.flagBit Reg.TC_ERR 2).core = t.core
  rw [t.flagBit_frame]

section
variable {s : State} {n : Site} (h : s.inReset = false) (hr : s.coreRuns n = true)
include h hr

/-- What a running core runs where no row of its own stands at its pc. -/
theorem rvInstruction_runStd {ecc : CoreEcc} {p : Tile → Prop} (hsp : (s.tile n).special = none) (hecc : ∀ b, ecc ≠ .ueFetch b)
    (hf : s.onlyTile (s.runStd n ecc) n) (hp : p ((s.runStd n ecc).tile n)) :
    Completes (.rvInstruction n ecc) s fun t => s.onlyTile t n ∧ p (t.tile n) := by
  refine completes_live (by rw [exec, execRvInstruction]) h ?_
  rw [if_neg (by simp [hr])]
  cases ecc
  case ueFetch b => exact absurd rfl (hecc b)
  all_goals
    simp only [hsp]
    rw [hf.leaves h]
    exact ⟨hf, hp⟩

/-- An undefined encoding. -/
theorem rvInstruction_bad {ecc : CoreEcc} {raw : Word} (hbad : (s.tile n).fetchIns = .bad raw) (hecc : ∀ b, ecc ≠ .ueFetch b) :
    Completes (.rvInstruction n ecc) s fun t => s.onlyTile t n ∧ (s.tile n).trapped (t.tile n) false 2 ∧
      (ecc = .ce → bitOf ((t.tile n).reg Reg.TC_ERR) 1 = true) := by
  have hrun : s.runStd n ecc = (s.noteCe n ecc).onTile n fun t => t.trap n false 2 (tvalOf 2 raw) := by
    unfold State.runStd
    rw [hbad]
    rfl
  refine rvInstruction_runStd (p := fun b => (s.tile n).trapped b false 2 ∧ (ecc = .ce → bitOf (b.reg Reg.TC_ERR) 1 = true)) h hr
    (Tile.special_of_not_ins (by simp [hbad])) hecc ?_ ?_
  · rw [hrun]
    exact (s.noteCe_onlyTile n ecc).onTile _
  · rw [hrun, State.tile_onTile_same, s.noteCe_tile]
    refine ⟨(Tile.trapped_trap _ n false _ (by decide)).of_flagged ((s.tile n).noted_flagged ecc), fun hce => ?_⟩
    refine Tile.bitOf_trap_err _ _ _ _ _ ?_
    rw [Tile.noted, if_pos hce]
    exact Tile.bitOf_flagBit_self _ _ (by decide)

/-- A fetch outside instruction memory. -/
theorem rvInstruction_fault {a : Word} (hfault : (s.tile n).fetchIns = .fault a) :
    Completes (.rvInstruction n .none) s fun t => s.onlyTile t n ∧ (s.tile n).trapped (t.tile n) false 1 := by
  have hrun : s.runStd n .none = s.onTile n fun t => t.trap n false 1 (tvalOf 1 a) := by
    unfold State.runStd
    rw [hfault]
    dsimp only [State.noteCe]
    rw [ite_self]
    rfl
  refine rvInstruction_runStd (p := fun b => (s.tile n).trapped b false 1) h hr (Tile.special_of_not_ins (by simp [hfault]))
    (by simp) ?_ ?_
  · rw [hrun]
    exact (onlyTile_self s n).onTile _
  · rw [hrun, State.tile_onTile_same]
    exact Tile.trapped_trap _ n false _ (by decide)

/-- An error of the fetch that is not corrected. -/
theorem rvInstruction_ueFetch (second : Bool) (hpc : (s.tile n).core.pc.toNat < 0x10000) :
    Completes (.rvInstruction n (.ueFetch second)) s fun t => s.onlyTile t n ∧ bitOf ((t.tile n).reg Reg.TC_ERR) 2 = true ∧
      (t.tile n).core.x = (s.tile n).core.x ∧ (t.tile n).core.minstret = (s.tile n).core.minstret ∧
      (∃ p ∈ (t.tile n).outq, ∃ f : FaultMsg, p.body = .ctrl (.fault f) ∧ f.code = 0x03 ∧ f.unit = 0xC) ∧
      (bitOf ((s.tile n).reg Reg.TC_CFG) 0 = false → (t.tile n).core.mcause = 1 ∧ (t.tile n).core.pc = (s.tile n).core.mtvec) := by
  refine completes_live (by rw [exec, execRvInstruction]) h ?_
  rw [if_neg (by simp [hr])]
  dsimp only
  rw [if_pos hpc]
  obtain ⟨tval, heq⟩ := s.fetchUe_eq n second
  have hf : s.onlyTile (s.fetchUe n second) n := by
    rw [heq]
    exact ((onlyTile_self s n).onTile _).onTile _
  have htile : (s.fetchUe n second).tile n = ((s.tile n).coreUe n).trap n false 1 tval := by
    rw [heq, State.tile_onTile_same, State.tile_onTile_same]
  have hcore := (s.tile n).coreUe_core n
  obtain ⟨hout, hx, hminstret⟩ := ((s.tile n).coreUe n).trap_keeps n false 1 tval
  obtain ⟨-, -, -, -, -, hend⟩ := ((s.tile n).coreUe n).trapped_trap n false tval (cause := 1) (by decide)
  rw [hf.leaves h, htile]
  refine ⟨hf, Tile.bitOf_trap_err _ _ _ _ _ ((s.tile n).bitOf_flagBit_self _ (by decide)), hx.trans (congrArg CoreSt.x hcore),
    hminstret.trans (congrArg CoreSt.minstret hcore), ⟨_, hout (List.mem_append_right _ (List.mem_singleton_self _)), _, rfl, rfl, rfl⟩,
    fun hcfg => ?_⟩
  have hcfg' : ((s.tile n).coreUe n).reg Reg.TC_CFG = (s.tile n).reg Reg.TC_CFG :=
    ((s.tile n).flagBit_flagged 2).2 _ (by decide)
  rw [hcfg', if_neg (by simp [hcfg]), hcore] at hend
  obtain ⟨-, hpc', -, hmcause, -⟩ := hend
  exact ⟨hmcause, hpc'⟩

end

/-- An encoding of an opcode that RV32IM does not have. -/
theorem rvInstruction_undefined {s : State} {n : Site} {w raw : Word} {len : Nat} (h : s.coreAtIns n w len raw)
    (hop : fld w 0 7 ∉ [0x03, 0x0F, 0x13, 0x17, 0x23, 0x33, 0x37, 0x63, 0x67, 0x6F, 0x73]) :
    Completes (.rvInstruction n .none) s fun t => s.onlyTile t n ∧ (s.tile n).trapped (t.tile n) false 2 := by
  refine rvInstruction_except h (by decide) ⟨tvalOf 2 raw, ?_⟩
  unfold State.coreStd
  dsimp only
  split
  case h_12 => rfl
  all_goals
    next heq => exact absurd (by rw [heq]; decide) hop

theorem interruptTaken_traps {s : State} {n : Site} (h : s.inReset = false) (hr : s.coreRuns n = true) (hm : (s.tile n).meip = true)
    (hmie : (s.tile n).core.mie = true) (hmeie : (s.tile n).core.meie = true) :
    Completes (.interruptTaken n) s fun t => s.onlyTile t n ∧ (s.tile n).trapped (t.tile n) true 11 := by
  refine completes_live (by rw [exec, execInterruptTaken]) h ?_
  dsimp only
  rw [if_pos (by simp [hr, hm, hmie, hmeie])]
  refine ⟨onlyTile_onTile s n _ h, ?_⟩
  rw [State.tile_leaves, State.tile_onTile_same]
  exact Tile.trapped_trap _ n true _ (by decide)

/-- A corrected error in the fetch of an instruction whose own row records none. -/
theorem rvInstruction_noteCe {s : State} {n : Site} {k : Nat} {w : Word} (h : s.coreAtSpecial n k w) (hk : 2 ≤ k) :
    Completes (.rvInstruction n .ce) s fun t => s.onlyTile t n ∧ t.tile n = (s.tile n).flagBit Reg.TC_ERR 1 := by
  obtain ⟨hreset, hr, hsp⟩ := h
  refine completes_live (by rw [exec, execRvInstruction]) hreset ?_
  rw [if_neg (by simp [hr])]
  simp only [hsp]
  rw [if_pos hk]
  refine ⟨onlyTile_onTile s n _ hreset, ?_⟩
  rw [State.tile_leaves, State.noteCe, State.tile_onTile_same]
  rfl

/-! ## Code switches (R196) -/

/-- From `a` to `b` the core has gone on: at TC_ENTRY where a code switch is pending, else with the next instruction. -/
def Tile.goesOn (a b : Tile) : Prop :=
  b.core.mode = .running ∧ b.core.imem = a.core.imem ∧ b.core.dmem = a.core.dmem ∧
    (if a.core.swpend = true then b.core.pc.toNat = fld (a.act 6 1) 0 16 ∧ (∀ i, b.xreg i = 0) ∧ b.core.swpend = false
     else b.core = { a.core with mode := .running, pc := a.core.pc + 4, minstret := a.core.minstret + 1 }) ∧
    b = { a with core := b.core, cycles := b.cycles }

/-- What the core holds once started (R195). -/
theorem Tile.startCore_core (t : Tile) (time : Nat) :
    (t.startCore time).core.pc.toNat = fld (t.act 6 1) 0 16 ∧ ∀ i, (t.startCore time).xreg i = 0 := by
  constructor
  · have hlt := fld_lt (t.act 6 1) 0 16
    change (BitVec.ofNat 32 (fld (t.act 6 1) 0 16)).toNat = _
    rw [BitVec.toNat_ofNat]
    omega
  · intro i
    change (if i = 0 then 0 else (List.replicate 32 (0 : Word)).getD i 0) = 0
    split
    · rfl
    · rw [List.getD_eq_getElem?_getD, List.getElem?_replicate]
      split <;> rfl

theorem Tile.codePoint_goesOn (t : Tile) (time : Nat) : t.goesOn (t.codePoint time 4) := by
  unfold Tile.codePoint
  dsimp only
  split
  next hsw =>
    obtain ⟨hpc, hx⟩ := Tile.startCore_core
      ((t.onCore fun c => { c with mode := .running }).retire (t.core.pc + BitVec.ofNat 32 4) 1) (time + 1)
    refine ⟨rfl, rfl, rfl, ?_, rfl⟩
    rw [if_pos (show t.core.swpend = true from hsw)]
    exact ⟨hpc, hx, rfl⟩
  next hsw =>
    refine ⟨rfl, rfl, rfl, ?_, rfl⟩
    rw [if_neg (show ¬t.core.swpend = true from hsw)]
    rfl

theorem Tile.wfiEnds_iff (t : Tile) : t.wfiEnds = true ↔ t.meip = true ∨ t.core.swpend = true := by
  rw [Tile.wfiEnds, Bool.or_eq_true]

theorem wfi_waits {s : State} {n : Site} {w : Word} (h : s.coreAtSpecial n 6 w) :
    Completes (.wfi n) s fun t => s.onlyTile t n ∧
      (if (s.tile n).meip = true ∨ (s.tile n).core.swpend = true then (s.tile n).goesOn (t.tile n)
       else t.tile n = { s.tile n with core := { (s.tile n).core with mode := .wfi } }) := by
  obtain ⟨hreset, hr, hsp⟩ := h
  refine completes_live (by rw [exec, execWfi]) hreset ?_
  simp only [hr, hsp]
  refine ⟨onlyTile_onTile s n _ hreset, ?_⟩
  rw [State.tile_leaves, State.tile_onTile_same]
  split
  next hends =>
    rw [if_pos ((Tile.wfiEnds_iff _).2 hends)]
    exact Tile.codePoint_goesOn _ _
  next hends =>
    rw [if_neg fun he => hends ((Tile.wfiEnds_iff _).1 he)]
    rfl

theorem wfiWake_goesOn {s : State} {n : Site} (h : s.inReset = false) (hp : s.powered n = true) (hm : (s.tile n).core.mode = .wfi)
    (hends : (s.tile n).meip = true ∨ (s.tile n).core.swpend = true) :
    Completes (.wfiWake n) s fun t => s.onlyTile t n ∧ (s.tile n).goesOn (t.tile n) := by
  refine completes_live (by rw [exec, execWfiWake]) h ?_
  dsimp only
  rw [if_pos (by simp [hp, hm, (Tile.wfiEnds_iff _).2 hends])]
  refine ⟨onlyTile_onTile s n _ h, ?_⟩
  rw [State.tile_leaves, State.tile_onTile_same]
  exact Tile.codePoint_goesOn _ _

theorem bkYield_goesOn {s : State} {n : Site} {w : Word} (h : s.coreAtSpecial n 5 w) :
    Completes (.bkYield n) s fun t => s.onlyTile t n ∧ (s.tile n).goesOn (t.tile n) := by
  obtain ⟨hreset, hr, hsp⟩ := h
  refine completes_live (by rw [exec, execBkYield]) hreset ?_
  simp only [hr, hsp]
  refine ⟨onlyTile_onTile s n _ hreset, ?_⟩
  rw [State.tile_leaves, State.tile_onTile_same]
  exact Tile.codePoint_goesOn _ _

/-- Settles O16 by its clauses: the exceptions of a fetch, the interrupt, the noted errors, and the points of a code switch. -/
theorem coreTrapsWaitsAndTakesCodeSwitches : Obligations.CoreTrapsWaitsAndTakesCodeSwitches := by
  refine ⟨⟨?_, ?_, ?_, ?_, ?_⟩, ?_, ?_, ?_, ?_⟩
  · exact fun s n ecc raw h hr hbad hecc => rvInstruction_bad h hr hbad hecc
  · exact fun s n w raw len h hop => rvInstruction_undefined h hop
  · exact fun s n a h hr hfault => rvInstruction_fault h hr hfault
  · exact fun s n second h hr hpc => rvInstruction_ueFetch h hr second hpc
  · exact fun s n h hr hm hmie hmeie => interruptTaken_traps h hr hm hmie hmeie
  · exact fun s n k w h hk => rvInstruction_noteCe h hk
  · exact fun s n w h => wfi_waits h
  · exact fun s n h hp hm hends => wfiWake_goesOn h hp hm hends
  · exact fun s n w h => bkYield_goesOn h

end Sys2Proof.Machine


/-! # Commands issued and awaited (O17) -/

namespace Sys2Proof.Machine

/-! ## The rows of the command extension (R198) -/

/-- The funct3 of BK.ISSUE or BK.TRYISSUE is the row's number. -/
theorem bkDecode_issue {w : Word} {k : Nat} (h : bkDecode w = some k) (hk : k < 2) : fld w 12 3 = k := by
  unfold bkDecode at h
  dsimp only at h
  split_ifs at h
  · exact Option.some.inj h
  · have := Option.some.inj h
    omega
  · have := Option.some.inj h
    omega

theorem special_issue {t : Tile} {w : Word} {k : Nat} (h : t.special = some (k, w)) (hk : k < 2) : fld w 12 3 = k := by
  unfold Tile.special at h
  split at h
  next v len raw heq =>
    split at h
    · cases h
      omega
    · obtain ⟨j, hj, hjw⟩ := Option.map_eq_some_iff.1 h
      cases hjw
      exact bkDecode_issue hj hk
  next => cases h

theorem unitCode_unitOfCode {k : Nat} {u : UnitC} (h : unitOfCode k = some u) : unitCode u = k := by
  unfold unitOfCode at h
  split at h <;> cases h <;> rfl

theorem unitOfCode_unitCode (u : UnitC) : unitOfCode (unitCode u) = some u := by cases u <;> rfl

theorem unitCode_inj {u v : UnitC} (h : unitCode u = unitCode v) : u = v :=
  Option.some.inj ((unitOfCode_unitCode u).symm.trans (h ▸ unitOfCode_unitCode v))

/-! ## An accepted command (R201, R204) -/

/-- Tile `b` is `a` after a command of the core with these words has been accepted for unit `u`, with its ticket in `rd`. -/
def Tile.accepted (a b : Tile) (u : UnitC) (words : List Word) (rd : Nat) : Prop :=
  let k := (a.unit u).issued + 1
  (b.unit u).issued = k ∧ (b.unit u).queue.length = (a.unit u).queue.length + 1 ∧
    (∃ c, (b.unit u).queue = (a.unit u).queue ++ [c] ∧ c.words = words) ∧ (b.unit u).running = (a.unit u).running ∧
    b.core.x = (if rd = 0 then a.core.x else a.core.x.set rd (at32 (unitCode u) 28 ||| at32 ((k - 1) % 65535 + 1) 0)) ∧
    b.core.pc = a.core.pc + 4 ∧ b.core.mode = .running ∧ b.core.bk = .none ∧ b.sp = a.sp ∧ b.core.dmem = a.core.dmem ∧
    ∀ v, v ≠ u → b.unit v = a.unit v

theorem Tile.setX_core (t : Tile) (rd : Nat) (v : Word) :
    (t.setX rd v).core = { t.core with x := if rd = 0 then t.core.x else t.core.x.set rd v } := by
  unfold Tile.setX
  split
  · rfl
  · rfl

theorem Tile.setX_frame (t : Tile) (rd : Nat) (v : Word) : t.setX rd v = { t with core := (t.setX rd v).core } := by
  unfold Tile.setX
  split <;> rfl

theorem Tile.accept_core_unit (t : Tile) (u : UnitC) (words : List Word) (f : List (Nat × Nat)) (x : Bool) :
    (t.accept u words (.core f x)).unit u = { t.unit u with
      queue := (t.unit u).queue ++ [{ words := words, src := .core f x, stamp := t.stamp }], issued := (t.unit u).issued + 1 } :=
  Tile.unit_setUnit_same _ _ _

/-- The tile after an accepted command: the units take it, and the core has written its ticket and gone on. -/
theorem Tile.issueNow_eq (t : Tile) (u : UnitC) (words : List Word) (mask : Word) (rd : Nat) :
    ∃ (f : List (Nat × Nat)) (x : Bool), t.issueNow u words mask rd = { t with
      units := (t.accept u words (.core f x)).units
      stamp := t.stamp + 1
      core := { t.core with x := if rd = 0 then t.core.x else t.core.x.set rd (ticket u ((t.unit u).issued + 1)), pc := t.core.pc + 4,
                            mode := .running, bk := .none, minstret := t.core.minstret + 1 }
      cycles := t.cycles + (words.length + 7) / 8 } := by
  refine ⟨t.fenceOf mask, decide (mask.toNat / 32 ≠ 0), ?_⟩
  unfold Tile.issueNow
  dsimp only
  rw [Tile.accept_core_unit, Tile.setX_frame, Tile.setX_core]
  rfl

theorem Tile.issueNow_accepted (t : Tile) (u : UnitC) (words : List Word) (mask : Word) (rd : Nat) :
    t.accepted (t.issueNow u words mask rd) u words rd := by
  obtain ⟨f, x, heq⟩ := t.issueNow_eq u words mask rd
  have hunit : (t.issueNow u words mask rd).unit u = (t.accept u words (.core f x)).unit u := by
    rw [heq]
    rfl
  have hne : ∀ v, v ≠ u → (t.issueNow u words mask rd).unit v = t.unit v := fun v hv => by
    rw [heq]
    exact t.accept_ne words (.core f x) hv
  have hcore := congrArg Tile.core heq
  rw [Tile.accept_core_unit] at hunit
  refine ⟨by rw [hunit], by rw [hunit, List.length_append, List.length_singleton], ⟨_, by rw [hunit], rfl⟩, by rw [hunit],
    by rw [hcore]; rfl, by rw [hcore], by rw [hcore], by rw [hcore], by rw [heq], by rw [hcore], hne⟩

/-- From a tile whose wait has been spent as from the tile itself. -/
theorem Tile.issueNow_spend (t : Tile) (wait : Nat) (u : UnitC) (words : List Word) (mask : Word) (rd : Nat) :
    t.accepted ((t.spend wait).issueNow u words mask rd) u words rd :=
  (t.spend wait).issueNow_accepted u words mask rd

/-! ## BK.ISSUE and BK.TRYISSUE (R200 to R202) -/

section
variable {s : State} {n : Site} {w : Word} {k : Nat} (h : s.coreAtSpecial n k w)
include h

/-- What an issue row leaves, once its words have been read. -/
theorem issueRow_offers {u : UnitC} {words : List Word} (hu : unitOfCode (fld w 25 3) = some u)
    (hwords : (s.tile n).commandWords u ((s.tile n).xreg (fld w 15 5)) = .ok words) :
    s.issueRow n .none k = (s.onTile n fun t => t.spend (s.loadWait n w)).onTile n fun t =>
      t.offer u words (t.xreg (fld w 20 5)) (fld w 7 5) (fld w 12 3 == 1) := by
  obtain ⟨-, hr, hsp⟩ := h
  unfold State.issueRow
  simp only [hr, hsp, if_true]
  unfold State.issue
  simp only [hu, hwords]
  rfl

theorem completes_issue {u : UnitC} {words : List Word} {p : Tile → Prop} (hk : k < 2) (hu : unitOfCode (fld w 25 3) = some u)
    (hwords : (s.tile n).commandWords u ((s.tile n).xreg (fld w 15 5)) = .ok words)
    (hp : p (((s.tile n).spend (s.loadWait n w)).offer u words ((s.tile n).xreg (fld w 20 5)) (fld w 7 5) (k == 1))) :
    Completes (if k = 0 then .bkIssue n .none else .bkTryIssue n .none) s fun t => s.onlyTile t n ∧ p (t.tile n) := by
  have hrow := issueRow_offers h hu hwords
  obtain ⟨hreset, -, hsp⟩ := h
  have hexec : exec (if k = 0 then .bkIssue n .none else .bkTryIssue n .none) s = live s fun s => s.issueRow n .none k := by
    interval_cases k
    · rw [if_pos rfl, exec, execBkIssue]
    · rw [if_neg (by decide), exec, execBkTryIssue]
  rw [special_issue hsp hk] at hrow
  refine completes_onlyTile hexec hreset ?_ ?_
  · rw [hrow]
    exact ((onlyTile_self s n).onTile _).onTile _
  · rw [hrow, State.tile_onTile_same, State.tile_onTile_same]
    exact hp

end

theorem Tile.flagBit_spend (t : Tile) (wait off bit : Nat) : (t.spend wait).flagBit off bit = (t.flagBit off bit).spend wait := by
  unfold Tile.flagBit Tile.flag
  dsimp only
  split
  · rfl
  · rfl

/-- Tile `b` is `a` after a command has been offered by BK.ISSUE, or by BK.TRYISSUE where `k` is 1 (R200 to R202). -/
def Tile.offered (a b : Tile) (wait : Nat) (u : UnitC) (words : List Word) (mask : Word) (rd k : Nat) : Prop :=
  if a.cmdsrc (unitCode u) = true then b = (a.flagBit Reg.TC_ERR 0).ran rd 0 (a.core.pc + 4) (wait + (words.length + 7) / 8)
  else if a.room u = true then a.accepted b u words rd
  else if k = 1 then b = a.ran rd 0 (a.core.pc + 4) (wait + (words.length + 7) / 8)
  else b.core.mode = .stalled ∧ b.core.bk = .issue u words mask rd ∧ b.units = a.units ∧ b.core.pc = a.core.pc ∧ b.core.x = a.core.x

theorem Tile.offer_offered (t : Tile) (wait : Nat) (u : UnitC) (words : List Word) (mask : Word) (rd k : Nat) :
    t.offered ((t.spend wait).offer u words mask rd (k == 1)) wait u words mask rd k := by
  have hsrc : (t.spend wait).cmdsrc (unitCode u) = t.cmdsrc (unitCode u) := rfl
  have hroom : (t.spend wait).room u = t.room u := rfl
  unfold Tile.offered Tile.offer
  dsimp only
  rw [hsrc, hroom]
  split
  next =>
    rw [Tile.flagBit_spend]
    exact Tile.retire_setX_spend _ _ _ _ _ _
  next =>
    split
    next => exact t.issueNow_spend wait u words mask rd
    next =>
      by_cases hk : k = 1
      · rw [if_pos hk, if_pos (by simp [hk])]
        exact Tile.retire_setX_spend _ _ _ _ _ _
      · rw [if_neg hk, if_neg (by simp [hk])]
        exact ⟨rfl, rfl, rfl, rfl, rfl⟩

theorem commandAccept_accepts {s : State} {n : Site} {u : UnitC} {words : List Word} {mask : Word} {rd : Nat} (h : s.inReset = false)
    (hp : s.powered n = true) (hbk : (s.tile n).core.bk = .issue u words mask rd) (hroom : (s.tile n).room u = true) :
    Completes (.commandAccept n) s fun t => s.onlyTile t n ∧ (s.tile n).accepted (t.tile n) u words rd := by
  refine completes_live (by rw [exec, execCommandAccept]) h ?_
  rw [if_pos hp]
  refine ⟨onlyTile_onTile s n _ h, ?_⟩
  rw [State.tile_leaves, State.tile_onTile_same]
  simp only [hbk, hroom, if_true]
  exact Tile.issueNow_accepted _ _ _ _ _

/-! ## Waiting for commands (R206 to R208) -/

/-- A row of the command extension that reads no memory. -/
theorem completes_bkRow {c : Instr} {s : State} {n : Site} {k : Nat} {w : Word} {f : Tile → Word → Tile} {p : Tile → Prop}
    (he : exec c s = live s fun s => s.bkRow n k f) (h : s.coreAtSpecial n k w)
    (hp : p (f ((s.tile n).spend (s.loadWait n w)) w)) : Completes c s fun t => s.onlyTile t n ∧ p (t.tile n) := by
  obtain ⟨hreset, hr, hsp⟩ := h
  have hrow : s.bkRow n k f = s.onTile n fun t => f (t.spend (s.loadWait n w)) w := by
    unfold State.bkRow
    simp only [hr, hsp, if_true]
  refine completes_onlyTile he hreset ?_ ?_
  · rw [hrow]
    exact (onlyTile_self s n).onTile _
  · rw [hrow, State.tile_onTile_same]
    exact hp

/-- The wait or poll has ended with `v` in `rd`. -/
def Tile.bkEnded (a b : Tile) (rd : Nat) (v : Word) : Prop :=
  b.core = { a.core with x := if rd = 0 then a.core.x else a.core.x.set rd v, pc := a.core.pc + 4, mode := .running, bk := .none,
                         minstret := a.core.minstret + 1 }

theorem Tile.bkEnd_ended (t : Tile) (rd : Nat) (v : Word) : t.bkEnded (t.bkEnd rd v) rd v := by
  unfold Tile.bkEnded Tile.bkEnd
  rw [t.setX_frame, t.setX_core]
  rfl

/-- Only the core has changed, and time has passed. -/
theorem Tile.bkEnd_frame (t : Tile) (wait rd : Nat) (v : Word) :
    (t.spend wait).bkEnd rd v = { t with core := ((t.spend wait).bkEnd rd v).core, cycles := ((t.spend wait).bkEnd rd v).cycles } := by
  unfold Tile.bkEnd
  rw [Tile.setX_frame]
  rfl

/-- A wait for a ticket goes on while the ticket is PENDING, else it ends with its status. -/
def Tile.waits (a b : Tile) (tk : Word) (rd : Nat) : Prop :=
  if fld (a.ticketStatus tk) 28 4 = 0xE then b.core = { a.core with mode := .stalled, bk := .wait tk rd }
  else a.bkEnded b rd (a.ticketStatus tk)

theorem Tile.waitTicket_waits (t : Tile) (wait : Nat) (tk : Word) (rd : Nat) :
    let b := (t.spend wait).waitTicket tk rd
    t.waits b tk rd ∧ b = { t with core := b.core, cycles := b.cycles } := by
  have hst : (t.spend wait).ticketStatus tk = t.ticketStatus tk := rfl
  unfold Tile.waitTicket Tile.waits
  dsimp only
  rw [hst]
  split
  · exact ⟨rfl, rfl⟩
  · exact ⟨(t.spend wait).bkEnd_ended rd _, t.bkEnd_frame wait rd _⟩

/-! ### The error summary (R208) -/

/-- The wait has ended with the error summary of the named units, which is cleared. -/
def Tile.summary (a b : Tile) (mask : Word) (rd : Nat) : Prop :=
  ∃ v, a.bkEnded b rd v ∧ ∀ u, bitOf v (unitCode u) = (bitOf mask (unitCode u) && (a.unit u).errSum) ∧
    (b.unit u).errSum = ((a.unit u).errSum && !bitOf mask (unitCode u)) ∧ (b.unit u).done = (a.unit u).done

theorem bitOf_zero (i : Nat) : bitOf (0 : Word) i = false := by simp [bitOf]

theorem mem_unitsOf {mask : Word} {u : UnitC} : u ∈ unitsOf mask ↔ bitOf mask (unitCode u) = true := by
  rw [unitsOf, List.mem_filter]
  exact ⟨fun h => h.2, fun h => ⟨by cases u <;> decide, h⟩⟩

theorem bitOf_flag32_unitCode (b : Bool) (u v : UnitC) : bitOf (flag32 b (unitCode v)) (unitCode u) = (b && decide (v = u)) := by
  cases b <;> cases u <;> cases v <;> rfl

/-- The bits of a summary word, one for each unit in turn. -/
theorem bitOf_summaryWord (t : Tile) (us : List UnitC) (w : Word) (u : UnitC) :
    bitOf (us.foldl (fun w v => w ||| flag32 (t.unit v).errSum (unitCode v)) w) (unitCode u) =
      (bitOf w (unitCode u) || (decide (u ∈ us) && (t.unit u).errSum)) := by
  induction us generalizing w with
  | nil => simp
  | cons v us ih =>
    rw [List.foldl_cons, ih, bitOf_or, bitOf_flag32_unitCode]
    by_cases hv : v = u
    · subst hv
      cases bitOf w (unitCode v) <;> cases (t.unit v).errSum <;> simp
    · have hmem : (u ∈ v :: us) = (u ∈ us) := propext (by simp [Ne.symm hv])
      simp [hv, hmem]

/-- The summaries cleared, one unit in turn. -/
theorem Tile.clearSummaries (us : List UnitC) (t : Tile) (u : UnitC) :
    let b := us.foldl (fun t v => t.onUnit v fun x => { x with errSum := false }) t
    (b.unit u).errSum = ((t.unit u).errSum && !decide (u ∈ us)) ∧ (b.unit u).done = (t.unit u).done ∧
      b.core = t.core := by
  induction us generalizing t with
  | nil => simp
  | cons v us ih =>
    obtain ⟨hsum, hdone, hcore⟩ := ih (t.onUnit v fun x => { x with errSum := false })
    dsimp only
    rw [List.foldl_cons]
    refine ⟨hsum.trans ?_, hdone.trans ?_, hcore⟩
    · by_cases hv : u = v
      · subst hv
        rw [Tile.unit_onUnit_same]
        simp
      · rw [t.unit_onUnit_ne _ hv]
        simp [hv]
    · by_cases hv : u = v
      · subst hv
        rw [Tile.unit_onUnit_same]
      · rw [t.unit_onUnit_ne _ hv]

theorem Tile.summary_bkEnd (t : Tile) (wait : Nat) (mask : Word) (rd : Nat) :
    t.summary (((t.spend wait).takeSummary mask).2.bkEnd rd ((t.spend wait).takeSummary mask).1) mask rd := by
  refine ⟨((t.spend wait).takeSummary mask).1, ?_, fun u => ?_⟩
  · obtain ⟨-, -, hcore⟩ := Tile.clearSummaries (unitsOf mask) (t.spend wait) .mu
    have hend := ((t.spend wait).takeSummary mask).2.bkEnd_ended rd ((t.spend wait).takeSummary mask).1
    unfold Tile.bkEnded at hend ⊢
    rwa [show ((t.spend wait).takeSummary mask).2.core = t.core from hcore] at hend
  · obtain ⟨hsum, hdone, -⟩ := Tile.clearSummaries (unitsOf mask) (t.spend wait) u
    have hunit : (((t.spend wait).takeSummary mask).2.bkEnd rd ((t.spend wait).takeSummary mask).1).unit u =
        ((t.spend wait).takeSummary mask).2.unit u := by
      unfold Tile.bkEnd
      rw [Tile.setX_frame]
      rfl
    have hmem : decide (u ∈ unitsOf mask) = bitOf mask (unitCode u) := by
      rw [Bool.eq_iff_iff, decide_eq_true_iff, mem_unitsOf]
    have hword := bitOf_summaryWord (t.spend wait) (unitsOf mask) 0 u
    rw [hmem] at hsum hword
    rw [hunit]
    exact ⟨hword.trans (by rw [bitOf_zero]; rfl), hsum, hdone⟩

/-- A wait for units goes on until each has completed what it is waited for. -/
theorem Tile.waitUnits_met {t : Tile} {targets : List (Nat × Nat)} (mask : Word) (rd : Nat)
    (h : ∀ e ∈ targets, ∀ u, e.1 = unitCode u → e.2 ≤ (t.unit u).done) :
    t.waitUnits targets mask rd = (t.takeSummary mask).2.bkEnd rd (t.takeSummary mask).1 := by
  unfold Tile.waitUnits
  refine if_pos (List.all_eq_true.2 fun e he => ?_)
  dsimp only
  split
  next v hv => exact decide_eq_true (h e he v (unitCode_unitOfCode hv).symm)
  next => rfl

theorem Tile.waitUnits_unmet {t : Tile} {targets : List (Nat × Nat)} (mask : Word) (rd : Nat)
    (h : ¬∀ e ∈ targets, ∀ u, e.1 = unitCode u → e.2 ≤ (t.unit u).done) :
    t.waitUnits targets mask rd = t.onCore fun c => { c with mode := .stalled, bk := .waitu targets mask rd } := by
  unfold Tile.waitUnits
  rw [if_neg]
  intro hall
  refine h fun e he u hu => ?_
  have hunit := List.all_eq_true.1 hall e he
  dsimp only at hunit
  rw [hu, unitOfCode_unitCode] at hunit
  exact of_decide_eq_true hunit

/-- What BK.WAITU waits for is met once each named unit has completed what was issued. -/
theorem Tile.issuedTargets_met (t : Tile) (mask : Word) :
    (∀ e ∈ (unitsOf mask).map fun u => (unitCode u, (t.unit u).issued), ∀ u, e.1 = unitCode u → e.2 ≤ (t.unit u).done) ↔
      ∀ u, bitOf mask (unitCode u) = true → (t.unit u).issued ≤ (t.unit u).done := by
  constructor
  · exact fun hall u hu => hall _ (List.mem_map_of_mem (mem_unitsOf.2 hu)) u rfl
  · intro hall e he u hu
    obtain ⟨v, hv, rfl⟩ := List.mem_map.1 he
    cases unitCode_inj hu
    exact hall _ (mem_unitsOf.1 hv)

theorem bkWaitu_waits {s : State} {n : Site} {w : Word} (h : s.coreAtSpecial n 4 w) :
    Completes (.bkWaitu n) s fun t => s.onlyTile t n ∧
      let met := ∀ u, bitOf ((s.tile n).xreg (fld w 15 5)) (unitCode u) = true → ((s.tile n).unit u).issued ≤ ((s.tile n).unit u).done
      (met → (s.tile n).summary (t.tile n) ((s.tile n).xreg (fld w 15 5)) (fld w 7 5)) ∧
        (¬met → (t.tile n).core.mode = .stalled ∧ (t.tile n).units = (s.tile n).units ∧
          (t.tile n).core.pc = (s.tile n).core.pc) := by
  refine completes_bkRow (p := fun b =>
    let met := ∀ u, bitOf ((s.tile n).xreg (fld w 15 5)) (unitCode u) = true → ((s.tile n).unit u).issued ≤ ((s.tile n).unit u).done
    (met → (s.tile n).summary b ((s.tile n).xreg (fld w 15 5)) (fld w 7 5)) ∧
      (¬met → b.core.mode = .stalled ∧ b.units = (s.tile n).units ∧ b.core.pc = (s.tile n).core.pc))
    (by rw [exec, execBkWaitu]) h ?_
  have hx : ((s.tile n).spend (s.loadWait n w)).xreg (fld w 15 5) = (s.tile n).xreg (fld w 15 5) := rfl
  have hmet := ((s.tile n).spend (s.loadWait n w)).issuedTargets_met ((s.tile n).xreg (fld w 15 5))
  dsimp only
  rw [hx]
  refine ⟨fun hyes => ?_, fun hno => ?_⟩
  · rw [Tile.waitUnits_met _ _ (hmet.2 hyes)]
    exact Tile.summary_bkEnd _ _ _ _
  · rw [Tile.waitUnits_unmet _ _ fun hyes => hno (hmet.1 hyes)]
    exact ⟨rfl, rfl, rfl⟩

/-- A row that ends a wait of a powered tile. -/
theorem completes_retireWait {c : Instr} {s : State} {n : Site} {f : Tile → Tile} {p : Tile → Prop}
    (he : exec c s = live s fun s => if s.powered n then s.onTile n f else s) (h : s.inReset = false) (hp : s.powered n = true)
    (ht : p (f (s.tile n))) : Completes c s fun t => s.onlyTile t n ∧ p (t.tile n) := by
  refine completes_onlyTile he h ?_ ?_
  · rw [if_pos hp]
    exact (onlyTile_self s n).onTile _
  · rw [if_pos hp, State.tile_onTile_same]
    exact ht

theorem Tile.waitTicket_ends {t : Tile} {tk : Word} {rd : Nat} (h : fld (t.ticketStatus tk) 28 4 ≠ 0xE) :
    t.bkEnded (t.waitTicket tk rd) rd (t.ticketStatus tk) ∧
      t.waitTicket tk rd = { t with core := (t.waitTicket tk rd).core, cycles := (t.waitTicket tk rd).cycles } := by
  obtain ⟨hwaits, hframe⟩ := t.waitTicket_waits 0 tk rd
  unfold Tile.waits at hwaits
  rw [if_neg h] at hwaits
  exact ⟨hwaits, hframe⟩

/-- Settles O17 by its clauses: what is offered, a held command accepted, and each wait. -/
theorem commandsAreIssuedAndAwaited : Obligations.CommandsAreIssuedAndAwaited := by
  refine ⟨⟨?_, ?_⟩, ?_, ?_, ?_, ?_, ?_⟩
  · exact fun s n w u words k hk h hu _ hwords => completes_issue
      (p := fun b => (s.tile n).offered b (s.loadWait n w) u words ((s.tile n).xreg (fld w 20 5)) (fld w 7 5) k) h hk hu hwords
      (Tile.offer_offered _ _ _ _ _ _ _)
  · exact fun s n u words mask rd h hp hbk hroom => commandAccept_accepts h hp hbk hroom
  · exact fun s n w h _ => completes_bkRow
      (p := fun b => (s.tile n).bkEnded b (fld w 7 5) ((s.tile n).ticketStatus ((s.tile n).xreg (fld w 15 5))) ∧
        b = { s.tile n with core := b.core, cycles := b.cycles })
      (by rw [exec, execBkPoll]) h ⟨Tile.bkEnd_ended _ _ _, Tile.bkEnd_frame _ _ _ _⟩
  · exact fun s n w h _ => completes_bkRow
      (p := fun b => (s.tile n).waits b ((s.tile n).xreg (fld w 15 5)) (fld w 7 5) ∧
        b = { s.tile n with core := b.core, cycles := b.cycles })
      (by rw [exec, execBkWait]) h (Tile.waitTicket_waits _ _ _ _)
  · intro s n tk rd h hp hbk hdone
    refine completes_retireWait (p := fun b => (s.tile n).bkEnded b rd ((s.tile n).ticketStatus tk) ∧
      b = { s.tile n with core := b.core, cycles := b.cycles }) (by rw [exec, execWaitRetire]) h hp ?_
    simp only [hbk]
    exact Tile.waitTicket_ends hdone
  · exact fun s n w h _ => bkWaitu_waits h
  · intro s n targets mask rd h hp hbk hdone
    refine completes_retireWait (p := fun b => (s.tile n).summary b mask rd) (by rw [exec, execWaituRetire]) h hp ?_
    simp only [hbk]
    rw [Tile.waitUnits_met _ _ hdone]
    exact (s.tile n).summary_bkEnd 0 mask rd

end Sys2Proof.Machine


/-! # GO, HALT, counters, freezes and their ends (O11) -/

namespace Sys2Proof.Machine

/-! ## What a tile that comes to stand frozen keeps (R323, R491) -/

/-- The core, and whether FROZEN reads 1. -/
def Tile.standing (t : Tile) : CoreSt × Bool := (t.core, t.freeze.frozen)

theorem Tile.flagBit_standing (t : Tile) (off bit : Nat) : (t.flagBit off bit).standing = t.standing := by
  rw [t.flagBit_frame]
  rfl

theorem Tile.err_standing (t : Tile) (cls : Nat) : (t.err cls).standing = t.standing := by
  rw [t.err_frame]
  rfl

theorem Tile.laFound_standing (t : Tile) (me : Site) (k : Nat) (e : EccKind) : (t.laFound me k e).standing = t.standing := by
  cases e with
  | ce => exact t.flagBit_standing _ _
  | ue => exact Tile.flagBit_standing _ _ _

theorem Tile.laCheckAll_standing (t : Tile) (me : Site) : (t.laCheckAll me).standing = t.standing := by
  refine foldl_keeps Tile.standing (fun t k => ?_) _ t
  refine (foldl_keeps Tile.standing (fun t e => t.laFound_standing me k e) _ _).trans ?_
  split <;> rfl

theorem Tile.spFrame.standing {a b : Tile} (h : a.spFrame b) : b.standing = a.standing := by
  rw [h.1]
  rfl

theorem Tile.sendReach_standing (t : Tile) (me : Site) (q : ReachReq) : (t.sendReach me q).standing = t.standing := by
  unfold Tile.sendReach
  cases q.data <;> rfl

theorem Tile.pumpReach_standing (t : Tile) (me : Site) : (t.pumpReach me).standing = t.standing :=
  (foldl_keeps Tile.standing (fun t q => t.sendReach_standing me q) _ _).trans rfl

theorem Tile.takeRegs_standing (t src : Tile) (l : List Nat) : (t.takeRegs src l).standing = t.standing :=
  foldl_keeps Tile.standing (f := fun t o => t.setReg o (src.reg o)) (fun _ _ => rfl) l t

theorem Tile.scanPart_standing (t : Tile) (me : Site) (p draw : Nat) : (t.scanPart me p draw).2.standing = t.standing := by
  unfold Tile.scanPart
  split
  case h_4 => exact t.laCheckAll_standing me
  case h_5 =>
    dsimp only
    split
    · rw [Tile.err_standing]
      exact (t.readRows_spFrame me _).standing
    · exact (t.readRows_spFrame me _).standing
  all_goals rfl

/-- A scan of the tile to a global address waits for its answers, and the core stands as it stood. -/
theorem Tile.scanWrite_standing (t : Tile) (me : Site) (bytes : List Byte) : (t.scanWrite me 3 bytes).standing = t.standing := by
  unfold Tile.scanWrite
  dsimp only
  rw [if_pos rfl]
  exact Tile.pumpReach_standing _ me

theorem Tile.sliceSave_standing (t : Tile) (me : Site) (item addr draw : Nat) :
    (t.sliceSave me item addr draw).standing = t.standing := by
  unfold Tile.sliceSave
  refine (Tile.takeRegs_standing _ t _).trans ((Tile.scanWrite_standing _ me _).trans ?_)
  exact foldl_keeps (fun a : List Word × Tile => a.2.standing)
    (f := fun a p => (a.1 ++ (partRecords p (a.2.scanPart me p draw).1).flatten, (a.2.scanPart me p draw).2))
    (fun a p => a.2.scanPart_standing me p draw) (sliceParts item) ([], t.ownScan item addr)

theorem State.tile_scans (s : State) (k : Nat) (l : List ScanShot) (m : Site) :
    ({ s with fresh := k, scans := l } : State).tile m = s.tile m := rfl

/-- A slice's site as it goes on: no other tile changes, nor does its core. -/
theorem State.sliceFrozen_spec (s : State) (n : Site) :
    (∀ m, m ≠ n → (s.sliceFrozen n).tile m = s.tile m) ∧ ((s.sliceFrozen n).tile n).standing = (s.tile n).standing := by
  unfold State.sliceFrozen
  split
  next x _ =>
    split
    · dsimp only
      split
      · exact ⟨fun _ _ => rfl, rfl⟩
      · refine ⟨fun m hm => ?_, ?_⟩
        · rw [State.tile_scans, State.tile_onTile_ne _ _ hm, State.tile_onSteward]
        · rw [State.tile_scans, State.tile_onTile_same, State.tile_onSteward]
          exact Tile.sliceSave_standing _ n _ _ _
    · exact ⟨fun _ _ => rfl, rfl⟩
  next => exact ⟨fun _ _ => rfl, rfl⟩

theorem State.sliceFrozen_of_no_slice {s : State} {n : Site} (h : s.inSlice n = false) : s.sliceFrozen n = s := by
  unfold State.inSlice at h
  unfold State.sliceFrozen
  split
  next x hx =>
    rw [hx] at h
    have hne : x.site ≠ n := by simpa using h
    rw [if_neg (by simp [hne])]
  next => rfl

/-! ## The core's controls (R195, R285, R224) -/

/-- A row that changes the tile of a powered site. -/
theorem completes_powered {c : Instr} {s : State} {n : Site} {f : Tile → Tile} {p : Tile → Prop}
    (he : exec c s = live s fun s => if s.powered n then s.onTile n f else s) (h : s.inReset = false) (hp : s.powered n = true)
    (ht : p (f (s.tile n))) : Completes c s fun t => s.onlyTile t n ∧ p (t.tile n) :=
  completes_retireWait he h hp ht

/-- GO starts a halted core that no freeze holds. -/
theorem Tile.goCore_starts {t : Tile} (time : Nat) (hm : t.core.mode = .halted) (hw : t.freeze.coreWas = .halted)
    (hf : t.freezeOn = false) : t.goCore time = t.startCore time := by
  unfold Tile.goCore
  rw [if_neg (by simp [hm, hw])]
  simp [hf]

theorem coreGo_starts {s : State} {n : Site} (h : s.inReset = false) (hp : s.powered n = true) (hm : (s.tile n).core.mode = .halted)
    (hw : (s.tile n).freeze.coreWas = .halted) (hf : (s.tile n).freezeOn = false) :
    Completes (.coreGo n) s fun t => s.onlyTile t n ∧ t.tile n = { s.tile n with core := (t.tile n).core } ∧
      (t.tile n).core.mode = .running ∧ (t.tile n).core.pc.toNat = fld ((s.tile n).act 6 1) 0 16 ∧
      (∀ w ∈ (t.tile n).core.x, w = 0) ∧ (t.tile n).core.imem = (s.tile n).core.imem ∧
      (t.tile n).core.dmem = (s.tile n).core.dmem := by
  obtain ⟨hpc, -⟩ := (s.tile n).startCore_core (s.time n)
  refine completes_onlyTile (f := fun s => if s.powered n then s.onTile n fun t => t.goCore (s.time n) else s)
    (p := fun b => b = { s.tile n with core := b.core } ∧ b.core.mode = .running ∧ b.core.pc.toNat = fld ((s.tile n).act 6 1) 0 16 ∧
      (∀ w ∈ b.core.x, w = 0) ∧ b.core.imem = (s.tile n).core.imem ∧ b.core.dmem = (s.tile n).core.dmem)
    (by rw [exec, execCoreGo]) h ?_ ?_
  · rw [if_pos hp]
    exact (onlyTile_self s n).onTile _
  · rw [if_pos hp, State.tile_onTile_same, Tile.goCore_starts _ hm hw hf]
    exact ⟨rfl, rfl, hpc, fun w hw => List.eq_of_mem_replicate hw, rfl, rfl⟩

/-! ## Freezes (R323, R327) -/

theorem Tile.freeze_stops {t : Tile} (hs : t.stitch.mode = .idle) (hm : t.core.mode ≠ .halted) :
    let b := t.setFreeze true
    b.freezeOn = true ∧ b.core.mode = .halted ∧ b.freeze.coreWas = (if t.core.mode = .wfi then .wfi else .running) ∧
      b.core.pc = t.core.pc ∧ b.core.x = t.core.x ∧ b = { t with regs := b.regs, freeze := b.freeze, core := b.core } := by
  unfold Tile.setFreeze Tile.applyFreeze
  dsimp only
  rw [if_pos rfl, if_pos (by simp [Tile.freezeOn, hs, hm])]
  refine ⟨rfl, rfl, ?_, rfl, rfl, rfl⟩
  simp only [Tile.setReg_core, beq_iff_eq]

theorem Tile.thaw_goes_on {t : Tile} (hh : t.freeze.halt = false) (hsl : t.freeze.slice = false) (hw : t.freeze.coreWas ≠ .halted) :
    let b := t.setFreeze false
    b.freezeOn = false ∧ b.freeze.frozen = false ∧ b.core = { t.core with mode := t.freeze.coreWas } ∧
      b = { t with regs := b.regs, freeze := b.freeze, core := b.core } := by
  unfold Tile.setFreeze Tile.endFreeze
  dsimp only
  rw [if_neg (by decide), if_neg (by simp [Tile.freezeOn, hh, hsl])]
  refine ⟨by simp [Tile.freezeOn, hh, hsl], rfl, if_neg (by simpa using hw), rfl⟩

/-- A tile under a freeze whose core stands, that is quiet and whose tokens have left, comes to stand frozen. -/
theorem Tile.tryFrozen_freezes {t : Tile} (hf : t.freezeOn = true) (hs : t.stitch.mode = .idle) (hm : t.core.mode = .halted)
    (hq : t.quiet = true) (hl : t.tokenLeft = false) : t.tryFrozen = { t with freeze := { t.freeze with frozen := true } } := by
  have happly : t.applyFreeze = t := by
    unfold Tile.applyFreeze
    rw [if_neg (by simp [hm])]
  unfold Tile.tryFrozen
  rw [happly]
  exact if_pos (by simp [hf, hs, hq, hl])

theorem tileFrozen_freezes {s : State} {n : Site} (h : s.inReset = false) (hf : (s.tile n).freezeOn = true)
    (hs : (s.tile n).stitch.mode = .idle) (hm : (s.tile n).core.mode = .halted) (hq : (s.tile n).quiet = true)
    (hl : (s.tile n).tokenLeft = false) :
    Completes (.tileFrozen n) s fun t => (∀ m, m ≠ n → t.tile m = s.tile m) ∧ (t.tile n).freeze.frozen = true ∧
      (t.tile n).core = (s.tile n).core ∧ (s.inSlice n = false → s.onlyTile t n ∧
        t.tile n = { s.tile n with freeze := { (s.tile n).freeze with frozen := true } }) := by
  have htry := Tile.tryFrozen_freezes hf hs hm hq hl
  obtain ⟨hne, hstanding⟩ := (s.onTile n Tile.tryFrozen).sliceFrozen_spec n
  rw [State.tile_onTile_same, htry] at hstanding
  obtain ⟨hcore, hfrozen⟩ := Prod.mk.inj hstanding
  refine completes_live (f := fun s => (s.onTile n Tile.tryFrozen).sliceFrozen n) (by rw [exec, execTileFrozen]) h
    ⟨fun m hm => (hne m hm).trans (s.tile_onTile_ne _ hm), hfrozen, hcore, fun hno => ?_⟩
  rw [State.sliceFrozen_of_no_slice (s := s.onTile n Tile.tryFrozen) hno]
  refine ⟨onlyTile_onTile s n _ h, ?_⟩
  rw [State.tile_leaves, State.tile_onTile_same, htry]

/-! ## The clauses of O11 -/

theorem stewardSignal_sets {s : State} {n : Site} (h : s.inReset = false) (hp : s.powered n = true) :
    Completes (.stewardSignal n) s fun t => s.onlyTile t n ∧ t.tile n = { s.tile n with regs := (t.tile n).regs } ∧
      bitOf ((t.tile n).reg Reg.TC_EVT) 2 = true ∧ ∀ o, o ≠ Reg.TC_EVT → (t.tile n).reg o = (s.tile n).reg o := by
  refine completes_powered (f := fun t => t.flagBit Reg.TC_EVT 2) (p := fun b => b = { s.tile n with regs := b.regs } ∧ bitOf (b.reg Reg.TC_EVT) 2 = true ∧
    ∀ o, o ≠ Reg.TC_EVT → b.reg o = (s.tile n).reg o) (by rw [exec, execStewardSignal]) h hp
    ⟨Tile.flagBit_frame _ _ _, Tile.bitOf_flagBit_self _ _ (by decide), fun o ho => Tile.reg_flagBit_ne _ _ ho ho⟩

/-- Settles O11 by its clauses: the controls of the core and the counters, then FREEZE, FROZEN and the end of a freeze. -/
theorem coreControlsAndFreezes : Obligations.CoreControlsAndFreezes := by
  refine ⟨⟨?_, ?_, ?_, ?_, ?_⟩, ?_, ?_, ?_⟩
  · exact fun s n h hp hm hw hf => coreGo_starts h hp hm hw hf
  · exact fun s n h hp => completes_powered (f := Tile.haltCore)
      (p := fun b => b = { s.tile n with core := b.core, freeze := b.freeze } ∧
        b.core = { (s.tile n).core with mode := .halted, bk := .none, swpend := false })
      (by rw [exec, execCoreHalt]) h hp ⟨rfl, rfl⟩
  · exact fun s n h hp => stewardSignal_sets h hp
  · exact fun s n h hp => completes_powered (f := fun t => { t with snap := t.live }) (p := fun b => b = { s.tile n with snap := (s.tile n).live })
      (by rw [exec, execCounterSnap]) h hp rfl
  · exact fun s n h hp => completes_powered (f := fun t => { t with live := [] }) (p := fun b => b = { s.tile n with live := [] })
      (by rw [exec, execCounterClear]) h hp rfl
  · exact fun s n h hp hs hm => completes_powered (f := fun t => t.setFreeze true)
      (p := fun b => b.freezeOn = true ∧ b.core.mode = .halted ∧
        b.freeze.coreWas = (if (s.tile n).core.mode = .wfi then .wfi else .running) ∧ b.core.pc = (s.tile n).core.pc ∧
        b.core.x = (s.tile n).core.x ∧ b = { s.tile n with regs := b.regs, freeze := b.freeze, core := b.core })
      (by rw [exec, execFreeze]) h hp (Tile.freeze_stops hs hm)
  · exact fun s n h hf hs hm hq hl => tileFrozen_freezes h hf hs hm hq hl
  · exact fun s n h hp hh hsl hw => completes_powered (f := fun t => t.setFreeze false)
      (p := fun b => b.freezeOn = false ∧ b.freeze.frozen = false ∧
        b.core = { (s.tile n).core with mode := (s.tile n).freeze.coreWas } ∧
        b = { s.tile n with regs := b.regs, freeze := b.freeze, core := b.core })
      (by rw [exec, execThaw]) h hp (Tile.thaw_goes_on hh hsl hw)

end Sys2Proof.Machine


/-! # Physical events, and writes of scratchpad rows (O23) -/

namespace Sys2Proof.Machine

/-! ## What physical events change (R229, R234, R235) -/

/-- A command in progress but for its mark of a conflict. -/
def Run.unconf (r : Run) : Run := { r with conflict := false }

/-- A unit but for the marks of conflicts of its commands in progress. -/
def UnitSt.unconf (x : UnitSt) : UnitSt := { x with running := x.running.map Run.unconf }

/-- The registers that a conflict sets. -/
def confRegs : List Nat := [Reg.SP_ERR, Reg.SP_CONF_COUNT, Reg.SP_CONF_LAST, Reg.MU_ERR, Reg.SH_ERR, Reg.TC_EVT]

/-- Tile `b` is `a` after physical events: stored words have gone bad, and conflicts are flagged and their commands marked. -/
structure Tile.upsetTo (a b : Tile) : Prop where
  frame : b = { a with regs := b.regs, units := b.units, sp := { a.sp with bad := b.sp.bad }, la := { a.la with bad := b.la.bad } }
  reg : ∀ o, o ∉ confRegs → b.reg o = a.reg o
  units : ∀ u, (b.unit u).unconf = (a.unit u).unconf
  unit : ∀ u, u ≠ .mu → u ≠ .sh → b.unit u = a.unit u

theorem Tile.upsetTo.refl (a : Tile) : a.upsetTo a := ⟨rfl, fun _ _ => rfl, fun _ => rfl, fun _ _ _ => rfl⟩

theorem Tile.upsetTo.trans {a b c : Tile} (h : a.upsetTo b) (k : b.upsetTo c) : a.upsetTo c := by
  refine ⟨?_, fun o ho => (k.reg o ho).trans (h.reg o ho), fun u => (k.units u).trans (h.units u),
    fun u hm hs => (k.unit u hm hs).trans (h.unit u hm hs)⟩
  rw [k.frame, h.frame]

theorem Tile.upsetTo.of_regs {a b : Tile} (h : b = { a with regs := b.regs }) (hr : ∀ o, o ∉ confRegs → b.reg o = a.reg o) :
    a.upsetTo b := by
  have hunit : ∀ u, b.unit u = a.unit u := fun u => by
    rw [h]
    rfl
  exact ⟨by rw [h], hr, fun u => by rw [hunit], fun u _ _ => hunit u⟩

theorem Tile.flagBit_upsetTo (t : Tile) {off : Nat} (bit : Nat) (h : off ∈ confRegs) : t.upsetTo (t.flagBit off bit) :=
  .of_regs (t.flagBit_frame off bit) fun o ho =>
    t.reg_flagBit_ne bit (fun he => ho (he ▸ h)) fun he => ho (he ▸ (by decide : Reg.TC_EVT ∈ confRegs))

theorem Tile.setReg_upsetTo (t : Tile) {off : Nat} (w : Word) (h : off ∈ confRegs) : t.upsetTo (t.setReg off w) :=
  .of_regs rfl fun o ho => by
    have hne : o ≠ off := fun he => ho (by rw [he]; exact h)
    rw [Tile.reg_setReg, if_neg hne]

/-- A change of the first element that has a property, of nothing that `g` reads. -/
theorem map_onFirst {α β : Type} (p : α → Bool) {f : α → α} {g : α → β} (h : ∀ x, g (f x) = g x) (l : List α) :
    (onFirst p f l).map g = l.map g := by
  induction l with
  | nil => rfl
  | cons x xs ih =>
    rw [onFirst]
    split
    · rw [List.map_cons, List.map_cons, h]
    · rw [List.map_cons, List.map_cons, ih]

theorem Tile.privConf_upsetTo (t : Tile) {u : UnitC} {flag : Nat} (bit : Nat) (p : Run → Bool) (hf : flag ∈ confRegs)
    (hu : u = .mu ∨ u = .sh) : t.upsetTo (t.privConf u flag bit p) := by
  unfold Tile.privConf
  split
  · refine (t.flagBit_upsetTo bit hf).trans ⟨rfl, fun _ _ => rfl, fun v => ?_, fun v hm hs => ?_⟩
    · by_cases hv : v = u
      · subst hv
        rw [Tile.unit_onUnit_same]
        simp only [UnitSt.unconf, List.map_reverse]
        rw [map_onFirst p (f := fun r => { r with conflict := true }) (g := Run.unconf) (fun _ => rfl), ← List.map_reverse,
          List.reverse_reverse]
      · rw [Tile.unit_onUnit_ne _ _ hv]
    · refine Tile.unit_onUnit_ne _ _ fun hv => ?_
      rcases hu with rfl | rfl
      · exact hm hv
      · exact hs hv
  · exact .refl t

theorem Tile.conflict_upsetTo (t : Tile) (own : Nat) (x : Conflict) : t.upsetTo (t.conflict own x) := by
  unfold Tile.conflict
  split
  next => exact .refl t
  next c _ =>
    dsimp only
    generalize hb : ((t.flagBit Reg.SP_ERR 3).count Reg.SP_CONF_COUNT 1).setReg Reg.SP_CONF_LAST (confWord c) = b
    have hflag : t.upsetTo b := by
      rw [← hb]
      exact ((t.flagBit_upsetTo 3 (by decide)).trans (Tile.setReg_upsetTo _ _ (by decide))).trans (Tile.setReg_upsetTo _ _ (by decide))
    have hmu : t.upsetTo (if confHas c 6 && own != 6 then b.privConf .mu Reg.MU_ERR 2 (fun r => !r.malformed) else b) := by
      split
      · exact hflag.trans (b.privConf_upsetTo 2 _ (by decide) (.inl rfl))
      · exact hflag
    split
    · exact hmu.trans (Tile.privConf_upsetTo _ 1 _ (by decide) (.inr rfl))
    · exact hmu

theorem Tile.physOf_upsetTo (t : Tile) (own : Nat) (ph : Phys) : t.upsetTo (t.physOf own ph) :=
  List.foldlRecOn (motive := fun b : Tile => t.upsetTo b) ph.conf _ ⟨rfl, fun _ _ => rfl, fun _ => rfl, fun _ _ _ => rfl⟩
    fun b hb x _ => hb.trans (b.conflict_upsetTo own x)

theorem Tile.phys_upsetTo (t : Tile) (ph : Phys) : t.upsetTo (t.phys ph) := t.physOf_upsetTo 0 ph

theorem Tile.physOf_none (t : Tile) (own : Nat) : t.physOf own { : Phys } = t := rfl

namespace Tile.upsetTo

variable {a b : Tile} (h : a.upsetTo b)
include h

theorem mem : b.sp.mem = a.sp.mem := by rw [h.frame]
theorem poison : b.sp.poison = a.sp.poison := by rw [h.frame]
theorem held : b.sp.held = a.sp.held := by rw [h.frame]
theorem core : b.core = a.core := by rw [h.frame]
theorem trf : b.trf = a.trf := by rw [h.frame]
theorem elems : b.la.elems = a.la.elems := by rw [h.frame]
theorem mu : b.mu = a.mu := by rw [h.frame]
theorem groups : b.groups = a.groups := by rw [h.frame]
theorem sh : b.sh = a.sh := by rw [h.frame]

theorem holdsEng (e : Nat) : b.holdsEng e = a.holdsEng e := by
  unfold Tile.holdsEng
  rw [h.held]

theorem gated (k : Nat) : b.gated k = a.gated k := by
  unfold Tile.gated
  rw [h.reg _ (by decide)]

theorem waking (k : Nat) : b.waking' k = a.waking' k := by
  unfold Tile.waking'
  rw [h.reg _ (by decide)]

theorem inService (r : Nat) : b.inService r = a.inService r := by
  unfold Tile.inService
  rw [h.gated, h.waking]

end Tile.upsetTo

/-! ## One row write (R227, R251) -/

/-- A write that its bank or its engine holds back: it waits behind the others, and nothing is stored. -/
theorem Tile.writeRow_held {t : Tile} (me : Site) {row off : Nat} {data : List Byte} (poison : Bool) {eng : Nat} (hd : data ≠ [])
    (h : ¬(t.inService row = true ∧ t.holdsEng eng = false)) :
    t.writeRow me row off data poison eng = { t with
      regs := (t.writeRow me row off data poison eng).regs
      sp := { t.sp with held := t.sp.held ++ [{ eng := eng, row := row, off := off, data := data, poison := poison }] } } := by
  have hhold : (t.holdsEng eng || t.gated (bankOf row) || t.waking' (bankOf row)) = true := by
    unfold Tile.inService at h
    cases hg : t.gated (bankOf row)
    · cases hw : t.waking' (bankOf row)
      · simpa [hg, hw] using h
      · simp
    · simp
  unfold Tile.writeRow
  rw [if_neg (by simpa using hd), if_pos hhold]
  dsimp only
  split <;> rfl

theorem Tile.writeRow_served {t : Tile} (me : Site) {row off : Nat} {data : List Byte} (poison : Bool) {eng : Nat} (hd : data ≠ [])
    (hs : t.inService row = true) (he : t.holdsEng eng = false) :
    t.writeRow me row off data poison eng = t.storeRow me row off data poison := by
  simp only [Tile.inService, Bool.and_eq_true, Bool.not_eq_true'] at hs
  unfold Tile.writeRow
  rw [if_neg (by simpa using hd), if_neg (by simp [he, hs])]

/-- A whole row stored: no word of it is merged with stored check bits, and it is poisoned as said (R229, R239). -/
theorem Tile.storeRow_whole (t : Tile) (me : Site) (row : Nat) {data : List Byte} (hd : data.length = 512) :
    t.storeRow me row 0 data false = { t with sp := { t.sp with
      mem := Memory.writeBytes t.sp.mem (512 * row) data, bad := (t.storeRow me row 0 data false).sp.bad
      writeback := (t.storeRow me row 0 data false).sp.writeback, poison := Map.set noPoison t.sp.poison row false } } := by
  unfold Tile.storeRow
  dsimp only
  rw [List.filter_eq_nil_iff.mpr, if_neg Bool.false_ne_true, if_pos (by omega)]
  · rfl
  · intro wk _
    have hfull : 8 * (wk.1 % 64) + 8 ≤ 0 + data.length := by omega
    rw [decide_eq_true hfull, decide_eq_true (Nat.zero_le _)]
    exact Bool.false_ne_true

/-! ## FILL and SCRUB (R214, R239) -/

/-- The row of bytes that FILL writes. -/
def fillRow (v : Word) : List Byte := (List.replicate 128 (leBytes 4 v.toNat)).flatten

theorem fillRow_length (v : Word) : (fillRow v).length = 512 := by
  simp [fillRow, leBytes_length]

theorem fillRow_getD (v : Word) {i : Nat} (hi : i < 512) : (fillRow v).getD i 0 = BitVec.ofNat 8 (v.toNat / 2 ^ (8 * (i % 4))) := by
  have hmany : ∀ n i, i < 4 * n →
      (List.replicate n (leBytes 4 v.toNat)).flatten.getD i 0 = (leBytes 4 v.toNat).getD (i % 4) 0 := by
    intro n
    induction n with
    | zero => omega
    | succ n ih =>
      intro i hi
      rw [List.replicate_succ, List.flatten_cons]
      by_cases h : i < 4
      · rw [List.getD_append _ _ _ _ (by rw [leBytes_length]; exact h), Nat.mod_eq_of_lt h]
      · rw [List.getD_append_right _ _ _ _ (by rw [leBytes_length]; omega), leBytes_length, ih (i - 4) (by omega)]
        rw [show (i - 4) % 4 = i % 4 by omega]
  rw [fillRow, hmany 128 i (by omega), leBytes_getD _ _ _ (Nat.mod_lt _ (by decide))]

/-- A row may be served: its engine holds nothing back, and no row from `r0` to it lies in a bank out of service. -/
def Tile.serves (t : Tile) (r0 row : Nat) : Prop := t.holdsEng 4 = false ∧ ∀ q, r0 ≤ q → q ≤ row → t.inService q = true

/-- What a row of a tile is after the `n` rows from `r0` on have been filled with `v`. -/
def Tile.filledRow (a b : Tile) (r0 n : Nat) (v : Word) (row : Nat) : Prop :=
  (r0 ≤ row → row < r0 + n → a.serves r0 row →
    (∀ i < 512, b.spByte row i = BitVec.ofNat 8 (v.toNat / 2 ^ (8 * (i % 4)))) ∧ b.rowPoison row = false) ∧
  (r0 ≤ row → row < r0 + n → ¬a.serves r0 row →
    (∀ i < 512, b.spByte row i = a.spByte row i) ∧ ∃ h ∈ b.sp.held, h.eng = 4 ∧ h.row = row ∧ h.off = 0 ∧ h.data.length = 512) ∧
  (¬(r0 ≤ row ∧ row < r0 + n) → (∀ i < 512, b.spByte row i = a.spByte row i) ∧ b.rowPoison row = a.rowPoison row)

/-- Tile `b` is `a` after the `n` rows from `r0` on have been filled with `v`: as long as they could be served the banks are as they
were, and from then on the engine holds. -/
structure Tile.Filled (a b : Tile) (r0 n : Nat) (v : Word) : Prop where
  beside : b.besideSp = a.besideSp
  rows : ∀ row, a.filledRow b r0 n v row
  served : (a.holdsEng 4 = false ∧ ∀ q, r0 ≤ q → q < r0 + n → a.inService q = true) →
    b.holdsEng 4 = false ∧ ∀ q, b.inService q = a.inService q
  holds : ¬(a.holdsEng 4 = false ∧ ∀ q, r0 ≤ q → q < r0 + n → a.inService q = true) → b.holdsEng 4 = true

theorem Tile.Filled.zero (a : Tile) (r0 : Nat) (v : Word) : a.Filled a r0 0 v :=
  ⟨rfl, fun row => ⟨fun h h' => by omega, fun h h' => by omega, fun _ => ⟨fun _ _ => rfl, rfl⟩⟩,
    fun h => ⟨h.1, fun _ => rfl⟩, fun h => by
      by_contra hno
      exact h ⟨by simpa using hno, fun q hq hq' => by omega⟩⟩

theorem Tile.spByte_other (t b : Tile) {row r i : Nat} {data : List Byte}
    (hb : b.sp.mem = Memory.writeBytes t.sp.mem (512 * r) data) (hd : data.length = 512) (hr : row ≠ r) (hi : i < 512) :
    b.spByte row i = t.spByte row i := by
  unfold Tile.spByte
  rw [hb, Memory.read_writeBytes, if_neg (by omega)]

/-- One row more, served. -/
theorem Tile.Filled.store {a b : Tile} {r0 n : Nat} {v : Word} (h : a.Filled b r0 n v) (me : Site)
    (hall : a.holdsEng 4 = false ∧ ∀ q, r0 ≤ q → q < r0 + (n + 1) → a.inService q = true) :
    a.Filled (b.writeRow me (r0 + n) 0 (fillRow v) false 4) r0 (n + 1) v := by
  obtain ⟨heng, hserv⟩ := hall
  obtain ⟨hbeng, hbserv⟩ := h.served ⟨heng, fun q hq hq' => hserv q hq (by omega)⟩
  have hne : fillRow v ≠ [] := List.ne_nil_of_length_pos (by rw [fillRow_length]; decide)
  have hstore := Tile.writeRow_served me (off := 0) false hne ((hbserv (r0 + n)).trans (hserv _ (by omega) (by omega))) hbeng
  rw [b.storeRow_whole me (r0 + n) (fillRow_length v)] at hstore
  have hbeside := b.writeRow_besideSp me (r0 + n) 0 (fillRow v) false 4
  generalize b.writeRow me (r0 + n) 0 (fillRow v) false 4 = u at hstore hbeside
  have hmem : u.sp.mem = Memory.writeBytes b.sp.mem (512 * (r0 + n)) (fillRow v) := by rw [hstore]
  have hpoison : u.sp.poison = Map.set noPoison b.sp.poison (r0 + n) false := by rw [hstore]
  have hother : ∀ row, row ≠ r0 + n → (∀ i < 512, u.spByte row i = b.spByte row i) ∧ u.rowPoison row = b.rowPoison row :=
    fun row hrow => ⟨fun i hi => b.spByte_other u hmem (fillRow_length v) hrow hi, by
      rw [Tile.rowPoison, hpoison, Map.get_set_ne _ _ _ hrow, Tile.rowPoison]⟩
  refine ⟨hbeside.trans h.beside, fun row => ?_, fun _ => ⟨?_, fun q => ?_⟩, fun hno => absurd ⟨heng, hserv⟩ hno⟩
  · by_cases hrow : row = r0 + n
    · subst hrow
      refine ⟨fun _ _ _ => ⟨fun i hi => ?_, ?_⟩, fun _ _ hno => absurd ⟨heng, fun q hq hq' => hserv q hq (by omega)⟩ hno,
        fun hout => by omega⟩
      · rw [Tile.spByte, hmem, Memory.read_writeBytes, fillRow_length, if_pos (by omega), Nat.add_sub_cancel_left, fillRow_getD v hi]
      · rw [Tile.rowPoison, hpoison, Map.get_set_same]
    · obtain ⟨hin, hheld, hout⟩ := h.rows row
      obtain ⟨hbyte, hpois⟩ := hother row hrow
      refine ⟨fun hlo hhi hs => ?_, fun hlo hhi hs => ?_, fun hno => ?_⟩
      · obtain ⟨hb, hp⟩ := hin hlo (by omega) hs
        exact ⟨fun i hi => (hbyte i hi).trans (hb i hi), hpois.trans hp⟩
      · exact absurd ⟨heng, fun q hq hq' => hserv q hq (by omega)⟩ hs
      · obtain ⟨hb, hp⟩ := hout (by omega)
        exact ⟨fun i hi => (hbyte i hi).trans (hb i hi), hpois.trans hp⟩
  · rw [hstore]
    exact hbeng
  · rw [hstore]
    exact hbserv q

/-- One row more, held. -/
theorem Tile.Filled.hold {a b : Tile} {r0 n : Nat} {v : Word} (h : a.Filled b r0 n v) (me : Site)
    (hno : ¬(a.holdsEng 4 = false ∧ ∀ q, r0 ≤ q → q < r0 + (n + 1) → a.inService q = true)) :
    a.Filled (b.writeRow me (r0 + n) 0 (fillRow v) false 4) r0 (n + 1) v := by
  have hne : fillRow v ≠ [] := List.ne_nil_of_length_pos (by rw [fillRow_length]; decide)
  have hbno : ¬(b.inService (r0 + n) = true ∧ b.holdsEng 4 = false) := by
    rintro ⟨hserv, heng⟩
    by_cases hbefore : a.holdsEng 4 = false ∧ ∀ q, r0 ≤ q → q < r0 + n → a.inService q = true
    · obtain ⟨-, hbserv⟩ := h.served hbefore
      refine hno ⟨hbefore.1, fun q hq hq' => ?_⟩
      by_cases hlast : q = r0 + n
      · rw [hlast, ← hbserv]
        exact hserv
      · exact hbefore.2 q hq (by omega)
    · exact absurd (h.holds hbefore) (by simp [heng])
  have hheldeq := Tile.writeRow_held me (off := 0) false hne hbno
  have hbeside := b.writeRow_besideSp me (r0 + n) 0 (fillRow v) false 4
  generalize b.writeRow me (r0 + n) 0 (fillRow v) false 4 = u at hheldeq hbeside
  have hmem : u.sp.mem = b.sp.mem := by rw [hheldeq]
  have hpoison : u.sp.poison = b.sp.poison := by rw [hheldeq]
  have hheld : u.sp.held = b.sp.held ++ [{ eng := 4, row := r0 + n, off := 0, data := fillRow v, poison := false }] := by rw [hheldeq]
  have hbyte : ∀ row i, u.spByte row i = b.spByte row i := fun row i => by rw [Tile.spByte, hmem, Tile.spByte]
  have hpois : ∀ row, u.rowPoison row = b.rowPoison row := fun row => by rw [Tile.rowPoison, hpoison, Tile.rowPoison]
  refine ⟨hbeside.trans h.beside, fun row => ?_, fun hyes => absurd hyes hno, fun _ => ?_⟩
  · obtain ⟨hin, hwait, hout⟩ := h.rows row
    refine ⟨fun hlo hhi hs => ?_, fun hlo hhi hs => ?_, fun hrow => ?_⟩
    · by_cases hrow : row = r0 + n
      · exact absurd ⟨hs.1, fun q hq hq' => hs.2 q hq (by omega)⟩ hno
      · obtain ⟨hb, hp⟩ := hin hlo (by omega) hs
        exact ⟨fun i hi => (hbyte row i).trans (hb i hi), (hpois row).trans hp⟩
    · by_cases hrow : row = r0 + n
      · obtain ⟨hb, -⟩ := hout (by omega)
        refine ⟨fun i hi => (hbyte row i).trans (hb i hi),
          { eng := 4, row := r0 + n, off := 0, data := fillRow v, poison := false }, ?_, rfl, hrow.symm, rfl, fillRow_length v⟩
        rw [hheld]
        exact List.mem_append_right _ (List.mem_singleton_self _)
      · obtain ⟨hb, w, hw, hprops⟩ := hwait hlo (by omega) hs
        refine ⟨fun i hi => (hbyte row i).trans (hb i hi), w, ?_, hprops⟩
        rw [hheld]
        exact List.mem_append_left _ hw
    · obtain ⟨hb, hp⟩ := hout (by omega)
      exact ⟨fun i hi => (hbyte row i).trans (hb i hi), (hpois row).trans hp⟩
  · unfold Tile.holdsEng
    rw [hheld, List.any_append]
    simp

theorem Tile.Filled.step {a b : Tile} {r0 n : Nat} {v : Word} (h : a.Filled b r0 n v) (me : Site) :
    a.Filled (b.writeRow me (r0 + n) 0 (fillRow v) false 4) r0 (n + 1) v := by
  by_cases hall : a.holdsEng 4 = false ∧ ∀ q, r0 ≤ q → q < r0 + (n + 1) → a.inService q = true
  · exact h.store me hall
  · exact h.hold me hall

theorem Tile.filled_rows (a : Tile) (me : Site) (r0 n : Nat) (v : Word) :
    a.Filled ((upto r0 n).foldl (fun t r => t.writeRow me r 0 (fillRow v) false 4) a) r0 n v := by
  induction n with
  | zero => exact .zero a r0 v
  | succ n ih =>
    rw [upto, List.range_succ, List.map_append, List.foldl_append]
    exact ih.step me

/-- A tile of whose state only scratchpad and registers differ from one that physical events have struck. -/
theorem Tile.upsetTo.kept {a b u : Tile} (h : a.upsetTo b) (hu : u.besideSp = b.besideSp) :
    u.trf = a.trf ∧ u.la.elems = a.la.elems ∧ u.core = a.core ∧ ∀ v, v ≠ .mu → v ≠ .sh → u.unit v = a.unit v := by
  obtain ⟨-, hcore, -, hunits, hla, htrf⟩ :
      u.mu = b.mu ∧ u.core = b.core ∧ u.groups = b.groups ∧ u.units = b.units ∧ u.la = b.la ∧ u.trf = b.trf := by
    simpa [Tile.besideSp] using hu
  refine ⟨htrf.trans h.trf, (congrArg LaSt.elems hla).trans h.elems, hcore.trans h.core, fun v hm hs => ?_⟩
  exact (congrArg (fun x : PerUnit UnitSt => x.get v) hunits).trans (h.unit v hm hs)

/-- What FILL and SCRUB write: each row named is whole at once or waits whole (R214, R227, R239, R251). -/
theorem Tile.fillRows_fills (t : Tile) (me : Site) (ph : Phys) (c : Cmd) (v : Word) :
    let b := (t.phys ph).fillRows me c v
    t.started b .sp c ∧ b.trf = t.trf ∧ b.la.elems = t.la.elems ∧ b.core = t.core ∧
      ∀ row, t.filledRow b (spRow c) (spArg c + 1) v row := by
  have hup := t.phys_upsetTo ph
  have hfill := (t.phys ph).filled_rows me (spRow c) (spArg c + 1) v
  have hrun : (t.phys ph).fillRows me c v = ((upto (spRow c) (spArg c + 1)).foldl (fun t r => t.writeRow me r 0 (fillRow v) false 4)
      (t.phys ph)).begin .sp { cmd := c, writes := [(spRow c, spArg c + 1)] } := rfl
  dsimp only
  rw [hrun]
  generalize (upto (spRow c) (spArg c + 1)).foldl (fun t r => t.writeRow me r 0 (fillRow v) false 4) (t.phys ph) = u at hfill
  obtain ⟨htrf, helems, hcore, hunit⟩ := hup.kept hfill.beside
  refine ⟨Tile.started_begin (hunit .sp (by decide) (by decide)) rfl rfl, htrf, helems, hcore, fun row => ?_⟩
  have hserves : t.serves (spRow c) row ↔ (t.phys ph).serves (spRow c) row := by
    unfold Tile.serves
    rw [hup.holdsEng]
    exact and_congr_right fun _ => forall_congr' fun q => by rw [hup.inService]
  obtain ⟨hin, hwait, hout⟩ := hfill.rows row
  have hbyte : ∀ i, (t.phys ph).spByte row i = t.spByte row i := fun i => by rw [Tile.spByte, hup.mem, Tile.spByte]
  have hpois : (t.phys ph).rowPoison row = t.rowPoison row := by rw [Tile.rowPoison, hup.poison, Tile.rowPoison]
  refine ⟨fun hlo hhi hs => hin hlo hhi (hserves.1 hs), fun hlo hhi hs => ?_, fun hno => ?_⟩
  · obtain ⟨hb, hw⟩ := hwait hlo hhi fun h => hs (hserves.2 h)
    exact ⟨fun i hi => (hb i hi).trans (hbyte i), hw⟩
  · obtain ⟨hb, hp⟩ := hout hno
    exact ⟨fun i hi => (hb i hi).trans (hbyte i), hp.trans hpois⟩

/-- The clauses of the statement, byte by byte. -/
theorem Tile.filledRow.byte {a b : Tile} {r0 n : Nat} {v : Word} {row i : Nat} (h : a.filledRow b r0 (n + 1) v row) (hi : i < 512) :
    (r0 ≤ row ∧ row ≤ r0 + n → (a.holdsEng 4 = false ∧ ∀ q, r0 ≤ q → q ≤ row → a.inService q = true) →
      b.spByte row i = BitVec.ofNat 8 (v.toNat / 2 ^ (8 * (i % 4))) ∧ b.rowPoison row = false) ∧
    (r0 ≤ row ∧ row ≤ r0 + n → ¬(a.holdsEng 4 = false ∧ ∀ q, r0 ≤ q → q ≤ row → a.inService q = true) →
      b.spByte row i = a.spByte row i ∧
        ∃ h ∈ b.sp.held, h.eng = 4 ∧ h.row = row ∧ h.off = 0 ∧ h.data.length = 512) ∧
    (¬(r0 ≤ row ∧ row ≤ r0 + n) → b.spByte row i = a.spByte row i ∧ b.rowPoison row = a.rowPoison row) := by
  obtain ⟨hin, hwait, hout⟩ := h
  refine ⟨fun hrow hs => ?_, fun hrow hs => ?_, fun hrow => ?_⟩
  · obtain ⟨hb, hp⟩ := hin hrow.1 (by omega) hs
    exact ⟨hb i hi, hp⟩
  · obtain ⟨hb, hw⟩ := hwait hrow.1 (by omega) hs
    exact ⟨hb i hi, hw⟩
  · obtain ⟨hb, hp⟩ := hout (by omega)
    exact ⟨hb i hi, hp⟩

/-! ## POKE (R214) -/

/-- A write of part of a row, byte by byte: stored where its bank and its engine serve it, else nothing. -/
theorem Tile.writeRow_spByte (t : Tile) (me : Site) {r off : Nat} {data : List Byte} (poison : Bool) (eng : Nat) (hd : data ≠ [])
    (hlen : off + data.length ≤ 512) (row : Nat) {i : Nat} (hi : i < 512) :
    (t.writeRow me r off data poison eng).spByte row i =
      if (row = r ∧ off ≤ i ∧ i < off + data.length) ∧ t.inService r = true ∧ t.holdsEng eng = false then data.getD (i - off) 0
      else t.spByte row i := by
  by_cases hserve : t.inService r = true ∧ t.holdsEng eng = false
  · rw [Tile.writeRow_served me poison hd hserve.1 hserve.2, Tile.spByte, Tile.storeRow_mem, Memory.read_writeBytes]
    by_cases hin : row = r ∧ off ≤ i ∧ i < off + data.length
    · obtain ⟨rfl, hlo, hhi⟩ := hin
      rw [if_pos (by omega), if_pos ⟨⟨rfl, hlo, hhi⟩, hserve⟩]
      congr 1
      omega
    · rw [if_neg (by omega), if_neg fun h => hin h.1]
      rfl
  · rw [if_neg fun h => hserve h.2, Tile.writeRow_held me poison hd hserve]
    rfl

/-! ## SPADV (R214, R243) -/

@[simp] theorem Tile.spool_setSpool_same (t : Tile) (n : Nat) (x : Spool) : (t.setSpool n x).spool n = x :=
  Map.get_set_same _ _ _ _

theorem Tile.spool_setSpool_ne (t : Tile) {n j : Nat} (x : Spool) (h : j ≠ n) : (t.setSpool n x).spool j = t.spool j :=
  Map.get_set_ne _ _ _ h

/-- A spool's head or tail moved: that pointer alone, and no other spool. -/
theorem Tile.advanceTo_moves (t : Tile) (k : Nat) (tailEnd : Bool) (rows : Nat) :
    (t.advanceTo k tailEnd rows).regs = t.regs ∧ (t.advanceTo k tailEnd rows).units = t.units ∧
      (t.advanceTo k tailEnd rows).sp.mem = t.sp.mem ∧ (∀ j, j ≠ k → (t.advanceTo k tailEnd rows).spool j = t.spool j) ∧
      (if tailEnd = true then
        ((t.advanceTo k tailEnd rows).spool k).tail = ((t.spool k).tail + rows) % spoolSize (t.spoolCfg k) ∧
          ((t.advanceTo k tailEnd rows).spool k).head = (t.spool k).head
       else ((t.advanceTo k tailEnd rows).spool k).head = ((t.spool k).head + rows) % spoolSize (t.spoolCfg k) ∧
          ((t.advanceTo k tailEnd rows).spool k).tail = (t.spool k).tail) := by
  unfold Tile.advanceTo
  cases tailEnd with
  | true =>
    dsimp only
    rw [if_pos rfl, if_pos rfl]
    exact ⟨rfl, rfl, rfl, fun j hj => t.spool_setSpool_ne _ hj, by rw [Tile.spool_setSpool_same], by rw [Tile.spool_setSpool_same]⟩
  | false =>
    dsimp only
    rw [if_neg Bool.false_ne_true, if_neg Bool.false_ne_true]
    exact ⟨rfl, rfl, rfl, fun j hj => t.spool_setSpool_ne _ hj, by rw [Tile.spool_setSpool_same], by rw [Tile.spool_setSpool_same]⟩

/-- What may be advanced: an enabled spool, over rows that it has room for (its tail) or that it holds (its head). -/
theorem Tile.advanceOk_iff (t : Tile) (k : Nat) (tailEnd : Bool) (rows : Nat) :
    t.advanceOk k tailEnd rows = true ↔ bitOf (t.spoolCfg k) 31 = true ∧
      (if tailEnd = true then rows + t.spoolCount k + (t.spool k).rsv ≤ spoolSize (t.spoolCfg k) else rows ≤ t.spoolCount k) := by
  unfold Tile.advanceOk
  rw [Bool.and_eq_true]
  cases tailEnd with
  | true => simp
  | false => simp

theorem Tile.spAdv_ok {t : Tile} {c : Cmd} (h : t.advanceOk (fld (c.w 1) 27 5) (bitOf (c.w 1) 26) (spArg c) = true) :
    t.spAdv c = (t.advanceTo (fld (c.w 1) 27 5) (bitOf (c.w 1) 26) (spArg c)).begin .sp { cmd := c, refused := false } := by
  unfold Tile.spAdv Tile.spoolAdvance
  rw [if_pos h]
  rfl

theorem Tile.spAdv_refused {t : Tile} {c : Cmd} (h : t.advanceOk (fld (c.w 1) 27 5) (bitOf (c.w 1) 26) (spArg c) ≠ true) :
    t.spAdv c = (t.flagBit Reg.SP_ERR 4).begin .sp { cmd := c, refused := true } := by
  unfold Tile.spAdv Tile.spoolAdvance
  rw [if_neg h]
  rfl

/-! ## Check bits and the patrol (R238, R240) -/

/-- What a write-back does: the oldest word leaves the list, and its corrected error is gone. -/
theorem Tile.writeback_of_cons {t : Tile} {w : Nat} {ws : List Nat} (h : t.sp.writeback = w :: ws) :
    t.writeback = { t with sp := { t.sp with
      writeback := ws, bad := if Map.get noBad t.sp.bad w = some .ce then Map.drop t.sp.bad w else t.sp.bad } } := by
  unfold Tile.writeback
  rw [h]
  rfl

theorem get_dropIfCe (bad : Map (Option EccKind)) (w : Nat) :
    let bad' := if Map.get noBad bad w = some .ce then Map.drop bad w else bad
    Map.get noBad bad' w ≠ some .ce ∧ ∀ v, v ≠ w → Map.get noBad bad' v = Map.get noBad bad v := by
  dsimp only
  split
  next =>
    refine ⟨?_, fun v hv => ?_⟩
    · rw [Map.get_drop, if_pos rfl]
      exact fun h => by cases h
    · rw [Map.get_drop, if_neg hv]
  next hno => exact ⟨hno, fun _ _ => rfl⟩

/-- The patrol takes the row it points at where that row's bank is on. -/
theorem Tile.patrolRow_of_on {t : Tile} {r : Nat} (hr : r < 4096) (h : t.gated (bankOf r) = false) :
    t.patrolRow r = some r := by
  have hbank : (bankOf r + 0) % 16 = bankOf r := by
    unfold bankOf
    omega
  unfold Tile.patrolRow
  rw [show List.range 17 = 0 :: (List.range 16).map (· + 1) by decide, List.findSome?_cons]
  dsimp only
  rw [hbank, h]
  rfl

theorem Tile.checkRow_of_good {t : Tile} (me : Site) (row : Nat) (h : t.sp.bad = []) : t.checkRow me row = t := by
  unfold Tile.checkRow Tile.badIn
  rw [h]
  rfl

/-- A patrol read steps the pointer by one row, and reads: no byte, no tile register, nothing of the core changes. -/
theorem Tile.patrolRead_of_on {t : Tile} (me : Site) (hcfg : bitOf (t.reg Reg.SP_CFG) 1 = true)
    (hon : t.gated (bankOf t.sp.patrol.toNat) = false) :
    (t.patrolRead me).sp.patrol = t.sp.patrol + 1 ∧ (t.patrolRead me).sp.mem = t.sp.mem ∧ (t.patrolRead me).trf = t.trf ∧
      (t.patrolRead me).core = t.core ∧
      (t.sp.bad = [] → t.waking' (bankOf t.sp.patrol.toNat) = false →
        t.patrolRead me = { t with sp := { t.sp with patrol := t.sp.patrol + 1 } }) := by
  have hnext : BitVec.ofNat 12 (t.sp.patrol.toNat + 1) = t.sp.patrol + 1 := by
    bv_omega
  unfold Tile.patrolRead
  rw [if_pos hcfg, Tile.patrolRow_of_on t.sp.patrol.isLt hon]
  dsimp only
  rw [hnext]
  refine ⟨rfl, ?_, ?_, ?_, fun hgood hserve => ?_⟩
  · split
    · rw [Tile.err_frame, Tile.flagBit_frame]
      rfl
    · exact (t.checkRow_spFrame me _).2
  · split
    · rw [Tile.err_frame, Tile.flagBit_frame]
      rfl
    · rw [(t.checkRow_spFrame me _).1]
      rfl
  · split
    · rw [Tile.err_frame, Tile.flagBit_frame]
      rfl
    · rw [(t.checkRow_spFrame me _).1]
      rfl
  · rw [hserve, if_neg Bool.false_ne_true, Tile.checkRow_of_good me _ hgood]
    rfl

/-! ## The commands -/

theorem completes_fill {i : Instr} {s : State} {n : Site} {op : Nat} {ph : Phys} {c : Cmd} {v : Cmd → Word}
    (he : exec i s = live s fun s => s.onUnits n fun t =>
      t.startOp .sp op spMalformed (fun _ => true) fun c => (t.phys ph).fillRows n c (v c))
    (h : s.inReset = false) (hp : s.powered n = true) (hs : (s.tile n).starts .sp op spMalformed c) :
    Completes i s fun t => s.onlyTile t n ∧ (s.tile n).started (t.tile n) .sp c ∧ (t.tile n).trf = (s.tile n).trf ∧
      (t.tile n).la.elems = (s.tile n).la.elems ∧ (t.tile n).core = (s.tile n).core ∧
      ∀ row, (s.tile n).filledRow (t.tile n) (spRow c) (spArg c + 1) (v c) row :=
  completes_startOp (u := .sp) (op := op) (bad := spMalformed) (ready := fun _ _ _ => true)
    (run := fun _ t c => (t.phys ph).fillRows n c (v c)) he h hp hs rfl fun t ht htile => by
    rw [htile]
    exact ⟨ht, (s.tile n).fillRows_fills n ph c (v c)⟩

theorem completes_poke {s : State} {n : Site} (ph : Phys) {c : Cmd} (h : s.inReset = false) (hp : s.powered n = true)
    (hs : (s.tile n).starts .sp 2 spMalformed c) :
    Completes (.poke n ph) s fun t => s.onlyTile t n ∧ (s.tile n).started (t.tile n) .sp c ∧
      (t.tile n).trf = (s.tile n).trf ∧ (t.tile n).la.elems = (s.tile n).la.elems ∧ (t.tile n).core = (s.tile n).core ∧
      ∀ row i, i < 512 → (t.tile n).spByte row i =
        (if (row = spRow c ∧ 4 * spArg c ≤ i ∧ i < 4 * spArg c + 4) ∧ (s.tile n).inService row = true ∧ (s.tile n).holdsEng 4 = false
          then BitVec.ofNat 8 ((c.w 1).toNat / 2 ^ (8 * (i % 4)))
         else (s.tile n).spByte row i) := by
  refine completes_startOp (u := .sp) (op := 2) (bad := spMalformed) (ready := fun _ _ _ => true)
    (run := fun _ t c => (t.phys ph).spPoke n c) rfl h hp hs rfl fun t ht htile => ?_
  rw [htile]
  have harg : spArg c ≤ 127 := by
    obtain ⟨-, hop, -, hbad, -⟩ := hs
    unfold spMalformed at hbad
    rw [hop] at hbad
    simpa using (Bool.or_eq_false_iff.1 hbad).2
  have hlen : (leBytes 4 (c.w 1).toNat).length = 4 := leBytes_length _ _
  have hne : leBytes 4 (c.w 1).toNat ≠ [] := List.ne_nil_of_length_pos (by omega)
  have hup := (s.tile n).phys_upsetTo ph
  obtain ⟨htrf, helems, hcore, hunit⟩ :=
    hup.kept (((s.tile n).phys ph).writeRow_besideSp n (spRow c) (4 * spArg c) (leBytes 4 (c.w 1).toNat) false 4)
  refine ⟨ht, Tile.started_begin (hunit .sp (by decide) (by decide)) rfl rfl, htrf, helems, hcore, fun row i hi => ?_⟩
  have hbyte : ((s.tile n).phys ph).spByte row i = (s.tile n).spByte row i := by rw [Tile.spByte, hup.mem, Tile.spByte]
  refine (Tile.writeRow_spByte _ n false 4 hne (by omega) row hi).trans ?_
  rw [hlen, hup.inService, hup.holdsEng, hbyte]
  by_cases hin : row = spRow c ∧ 4 * spArg c ≤ i ∧ i < 4 * spArg c + 4
  · obtain ⟨rfl, hlo, hhi⟩ := hin
    rw [leBytes_getD _ _ _ (by omega), show i - 4 * spArg c = i % 4 by omega]
  · rw [if_neg fun h => hin h.1, if_neg fun h => hin h.1]

theorem completes_spadv {s : State} {n : Site} {c : Cmd} (h : s.inReset = false) (hp : s.powered n = true)
    (hs : (s.tile n).starts .sp 4 spMalformed c) :
    let k := fld (c.w 1) 27 5
    let size := spoolSize ((s.tile n).spoolCfg k)
    let x := (s.tile n).spool k
    let ok := bitOf ((s.tile n).spoolCfg k) 31 = true ∧ (if bitOf (c.w 1) 26 = true then
      spArg c + (s.tile n).spoolCount k + x.rsv ≤ size else spArg c ≤ (s.tile n).spoolCount k)
    Completes (.spadv n) s fun t => s.onlyTile t n ∧ (s.tile n).started (t.tile n) .sp c ∧
      (t.tile n).sp.mem = (s.tile n).sp.mem ∧ (∀ j, j ≠ k → (t.tile n).spool j = (s.tile n).spool j) ∧
      (ok → (t.tile n).regs = (s.tile n).regs ∧
        (if bitOf (c.w 1) 26 = true then ((t.tile n).spool k).tail = (x.tail + spArg c) % size ∧ ((t.tile n).spool k).head = x.head
         else ((t.tile n).spool k).head = (x.head + spArg c) % size ∧ ((t.tile n).spool k).tail = x.tail)) ∧
      (¬ok → (t.tile n).spool k = x ∧ bitOf ((t.tile n).reg Reg.SP_ERR) 4 = true ∧
        ∃ r, ((t.tile n).unit .sp).running.getLast? = some r ∧ r.refused = true) := by
  intro k size x ok
  have hok : (s.tile n).advanceOk k (bitOf (c.w 1) 26) (spArg c) = true ↔ ok := (s.tile n).advanceOk_iff _ _ _
  refine completes_startOp (u := .sp) (op := 4) (bad := spMalformed) (ready := fun _ _ _ => true)
    (run := fun _ t c => t.spAdv c) rfl h hp hs rfl fun t ht htile => ?_
  rw [htile]
  by_cases hadv : (s.tile n).advanceOk k (bitOf (c.w 1) 26) (spArg c) = true
  · obtain ⟨hregs, hunits, hmem, hother, hmoved⟩ := (s.tile n).advanceTo_moves k (bitOf (c.w 1) 26) (spArg c)
    rw [Tile.spAdv_ok hadv]
    exact ⟨ht, Tile.started_begin (congrArg (fun x : PerUnit UnitSt => x.get .sp) hunits) rfl rfl, hmem, hother,
      fun _ => ⟨hregs, hmoved⟩, fun hno => absurd (hok.1 hadv) hno⟩
  · have hframe := (s.tile n).flagBit_frame Reg.SP_ERR 4
    rw [Tile.spAdv_refused hadv]
    refine ⟨ht, Tile.started_begin ?_ rfl rfl, ?_, fun j _ => ?_, fun hyes => absurd (hok.2 hyes) hadv, fun _ => ⟨?_, ?_, ?_⟩⟩
    · rw [hframe]
      rfl
    · exact (congrArg (fun t : Tile => t.sp.mem) hframe).trans rfl
    · exact (congrArg (fun t : Tile => t.spool j) hframe).trans rfl
    · exact (congrArg (fun t : Tile => t.spool k) hframe).trans rfl
    · exact Tile.bitOf_flagBit_self _ _ (by decide)
    · exact ⟨{ cmd := c, refused := true }, by rw [(Tile.begin_unit _ _ _).2, List.getLast?_concat], rfl⟩

/-- Settles O23: FILL and SCRUB row by row (`fillRows_fills`: a row is served as long as every row before it was), POKE as one write of
part of a row, SPADV by the spool's own moves, the write-back and the patrol by what they do to the check bits. -/
theorem scratchpadCommandsWriteTheirRows : Obligations.ScratchpadCommandsWriteTheirRows := by
  unfold Obligations.ScratchpadCommandsWriteTheirRows
  refine ⟨?_, ?_, ?_, ?_⟩
  · refine ⟨fun s n ph c h hp hs => ?_, fun s n ph c h hp hs => ?_, fun s n ph c h hp hs => completes_poke ph h hp hs⟩
    · exact (completes_fill (v := fun c => c.w 1) rfl h hp hs).imp fun t ⟨ht, hstart, htrf, helems, hcore, hrows⟩ =>
        ⟨ht, hstart, htrf, helems, hcore, fun row i hi => (hrows row).byte hi⟩
    · exact (completes_fill (v := fun _ => 0) rfl h hp hs).imp fun t ⟨ht, hstart, htrf, helems, hcore, hrows⟩ =>
        ⟨ht, hstart, htrf, helems, hcore, fun row i hi => (hrows row).byte hi⟩
  · exact fun s n c h hp hs => completes_spadv h hp hs
  · refine fun s n w ws h hp hw => completes_onUnits (f := fun _ t => t.writeback) rfl h hp fun t ht htile => ?_
    obtain ⟨hself, hother⟩ := get_dropIfCe (s.tile n).sp.bad w
    rw [htile, Tile.writeback_of_cons hw]
    exact ⟨ht, rfl, rfl, hself, hother, rfl⟩
  · refine fun s n ph h hp hcfg hon => completes_onUnits
      (f := fun _ t => if bitOf (t.reg Reg.SP_CFG) 1 = true then (t.phys ph).patrolRead n else t) rfl h hp fun t ht htile => ?_
    have hup := (s.tile n).phys_upsetTo ph
    have hpatrol : ((s.tile n).phys ph).sp.patrol = (s.tile n).sp.patrol := by rw [hup.frame]
    obtain ⟨hnext, hmem, htrf, hcore, -⟩ := Tile.patrolRead_of_on (t := (s.tile n).phys ph) n
      ((congrArg (bitOf · 1) (hup.reg _ (by decide))).trans hcfg) (by rw [hpatrol, hup.gated, hon])
    rw [htile, if_pos hcfg]
    refine ⟨ht, by rw [hnext, hpatrol], hmem.trans hup.mem, htrf.trans hup.trf, hcore.trans hup.core, ?_⟩
    rintro rfl hgood hserve
    obtain ⟨-, -, -, -, hwhole⟩ := Tile.patrolRead_of_on n hcfg hon
    exact hwhole hgood hserve

end Sys2Proof.Machine


/-! # Acknowledgements and warp words (O27) -/

namespace Sys2Proof.Machine

/-! ## Packets taken from the weft, and changes of two tiles -/

theorem State.receive_of_mayGet {s : State} {m : Pkt → Bool} (f : State → State) (h : s.mayGet m = true) :
    s.receive m f = f (s.deliver fun p => m p && s.mayTake p) := by
  rw [State.receive, if_pos h]

/-- A packet that the weft has brought changes its tile, and the weft. -/
theorem completes_received {c : Instr} {s : State} {n : Site} {m : Pkt → Bool} {f : Tile → Tile} {p : State → Prop}
    (he : exec c s = live s fun s => s.receive m fun s => s.onTile n f) (h : s.inReset = false) (hm : s.mayGet m = true)
    (hq : ∀ t : State, t = { s with tiles := t.tiles, net := t.net } → (∀ k, k ≠ n → t.tile k = s.tile k) →
      t.tile n = f (s.tile n) → p t) : Completes c s p := by
  refine completes_live he h ?_
  rw [State.receive_of_mayGet _ hm, leaves_of_frame s ((s.deliver _).onTile n f) h rfl rfl]
  exact hq _ (State.eq_of_offWeft rfl) (fun k hk => State.tile_onTile_ne _ f hk) (State.tile_onTile_same _ n f)

/-- The state with tile `m` and then tile `n` changed. -/
def State.onTwo (s : State) (m n : Site) (g f : Tile → Tile) : State := (s.onTile m g).onTile n f

theorem State.tile_onTwo (s : State) {m n : Site} (g f : Tile → Tile) :
    (s.onTwo m n g f).tile n = f ((s.onTile m g).tile n) := State.tile_onTile_same _ n f

theorem State.tile_onTwo_other (s : State) {m n k : Site} (g f : Tile → Tile) (hn : k ≠ n) (hm : k ≠ m) :
    (s.onTwo m n g f).tile k = s.tile k := by
  rw [State.onTwo, State.tile_onTile_ne _ f hn, State.tile_onTile_ne _ g hm]

theorem State.tile_onTwo_ne (s : State) {m n : Site} (g f : Tile → Tile) (h : n ≠ m) :
    (s.onTwo m n g f).tile n = f (s.tile n) ∧ (s.onTwo m n g f).tile m = g (s.tile m) := by
  rw [State.tile_onTwo, State.tile_onTile_ne s g h, State.onTwo, State.tile_onTile_ne _ f (Ne.symm h), State.tile_onTile_same]
  exact ⟨rfl, rfl⟩

theorem State.leaves_onTwo (s : State) (m n : Site) (g f : Tile → Tile) (h : s.inReset = false) :
    s.leaves (s.onTwo m n g f) = s.onTwo m n g f := leaves_of_frame s _ h rfl rfl

/-! ## Acknowledgements (R205, R275, R337) -/

/-- The rows and the acknowledgements of the oldest shuttle command that waits for one. -/
theorem Tile.rowCounted_running {t : Tile} {dst : Site} {row : Nat} (ok : Bool) {r : Run} {rest : List Run}
    (hrun : (t.unit .sh).running = r :: rest) (hack : (dst.val, row) ∈ r.acks) :
    ((t.rowCounted dst row ok).unit .sh).running =
        { r with left := r.left - 1, acks := r.acks.erase (dst.val, row), refused := r.refused || !ok } :: rest ∧
      ((t.rowCounted dst row ok).unit .sh).queue = (t.unit .sh).queue := by
  unfold Tile.rowCounted
  dsimp only
  rw [Tile.unit_onUnit_same]
  change onFirst _ _ (t.unit .sh).running = _ ∧ _
  rw [hrun, onFirst, if_pos (by simpa using hack)]
  exact ⟨rfl, rfl⟩

/-- Where a counted row shows: the shuttle unit, and the rows that a scan awaits. -/
theorem Tile.rowCounted_frame (t : Tile) (dst : Site) (row : Nat) (ok : Bool) :
    t.rowCounted dst row ok = { t with units := (t.rowCounted dst row ok).units, freeze := (t.rowCounted dst row ok).freeze } := rfl

/-- A tile after a row was counted, as the statement says it; `w` is the tile but for the wires of its warp links. -/
theorem Tile.rowCounted_counts {t w : Tile} (hw : w = { t with wires := w.wires }) {dst : Site} {row : Nat} (ok : Bool) {r : Run}
    {rest : List Run} (hrun : (t.unit .sh).running = r :: rest) (hack : (dst.val, row) ∈ r.acks) :
    let b := w.rowCounted dst row ok
    (b.unit .sh).running = { r with left := r.left - 1, acks := r.acks.erase (dst.val, row), refused := r.refused || !ok } :: rest ∧
      (b.unit .sh).queue = (t.unit .sh).queue ∧ b.sp = t.sp ∧ b.la = t.la ∧ b.outq = t.outq := by
  have hunit : w.unit .sh = t.unit .sh := by
    rw [hw]
    rfl
  obtain ⟨hr, hq⟩ := w.rowCounted_running ok (hunit ▸ hrun) hack
  refine ⟨hr, hq.trans (congrArg UnitSt.queue hunit), ?_, ?_, ?_⟩
  · rw [w.rowCounted_frame, hw]
  · rw [w.rowCounted_frame, hw]
  · rw [w.rowCounted_frame, hw]

/-- A tile without a word that its wires carried back. -/
def Tile.wireEmptied (t : Tile) (x : Site × WarpAck) : Tile := { t with wires := t.wires.erase x }

/-- A credit of the port's present destination is added, up to CREDITS (R265, R275). -/
theorem Tile.addCredits_present (t : Tile) (u p k : Nat) :
    ((t.addCredits u p k (t.portSt u p).gen).portSt u p).credits = min ((t.portSt u p).credits + k) (t.portCredits u p) := by
  unfold Tile.addCredits
  rw [if_pos rfl, Tile.setPortSt, Tile.portSt, Map.get_set_same]

/-- What the wires of a warp link bring back leaves them, and changes the tile that it is for. -/
theorem completes_warpAck {s : State} {n src : Site} {a : WarpAck} {f : Tile → Tile} {p : State → Prop} (h : s.inReset = false)
    (he : exec (.warpAck n a) s = live s fun s => s.onTwo src n (fun t => t.wireEmptied (n, a)) f)
    (hq : ∀ t : State, t = { s with tiles := t.tiles } → (∀ m, m ≠ n → m ≠ src → t.tile m = s.tile m) →
      t.tile n = f ((s.onTile src fun t => t.wireEmptied (n, a)).tile n) → p t) : Completes (.warpAck n a) s p := by
  refine completes_live he h ?_
  rw [State.leaves_onTwo _ _ _ _ _ h]
  exact hq _ rfl (fun m hn hsrc => s.tile_onTwo_other _ f hn hsrc) (s.tile_onTwo _ f)

theorem completes_rowAck {s : State} {n src : Site} {row : BitVec 12} {st : BitVec 2} (h : s.inReset = false) (hst : st.toNat < 2) :
    Completes (.warpAck n (.row src row st)) s fun t => t = { s with tiles := t.tiles } ∧
      (∀ m, m ≠ n → m ≠ src → t.tile m = s.tile m) ∧
      ∃ w : Tile, w = { s.tile n with wires := w.wires } ∧ t.tile n = w.rowCounted src row.toNat (st == 0) := by
  refine completes_warpAck (src := src) (f := fun t => t.rowCounted src row.toNat (st == 0)) h ?_ fun t ht hother htile =>
    ⟨ht, hother, _, ?_, htile⟩
  · change live s (fun s => _) = _
    simp only [if_pos hst]
    rfl
  · by_cases hn : n = src
    · rw [hn, State.tile_onTile_same]
      rfl
    · rw [State.tile_onTile_ne _ _ hn]

/-! ## Warp words (R277, R278) -/

/-- What a word from tile `m`, with `left` hops to go, does at tile `n`: it is latched, goes on from the fifth pass register, or is still
on its way. -/
def State.wordHeld (s : State) (n m : Site) (w : WarpWord) (left : Nat) : State :=
  match bitOf ((s.tile n).passBits n.val) (passBit w.side.toNat), w.body with
  | false, .data d => s.onTwo m n (fun t => t.warpSent m w) fun t => t.onSp fun x => { x with arrived := x.arrived ++ [d] }
  | false, .token u q tok src =>
    if s.seqTested n = true then s
    else s.onTwo m n (fun t => t.warpSent m w) fun t => t.tokenArrive n u.toNat q.toNat tok src
  | true, _ => if left = 0 then s.onTwo m n (fun t => t.warpSent m w) fun t => { t with warpq := t.warpq ++ [w] } else s

theorem exec_warpWordHold {s : State} {n m : Site} {w : WarpWord} {left : Nat} (h : s.inReset = false)
    (hfrom : s.wordFrom w 5 n = some (m, left)) (hpow : s.steward.site n.val ≠ 0) :
    exec (.warpWordHold n w) s = .next (s.wordHeld n m w left) := by
  change execWarpWordHold n w s = _
  unfold execWarpWordHold State.wordHeld
  rw [live_out _ _ h]
  dsimp only
  rw [hfrom]
  dsimp only
  rw [if_neg hpow]
  cases bitOf ((s.tile n).passBits n.val) (passBit w.side.toNat) with
  | false =>
    cases w.body with
    | data d => exact congrArg _ (State.leaves_onTwo _ _ _ _ _ h)
    | token u q tok src =>
      by_cases htest : s.seqTested n = true
      · simp only [htest, Bool.not_false, if_true, leaves_self s h]
      · simp only [htest, Bool.not_false, if_true, Bool.false_eq_true, if_false]
        exact congrArg _ (State.leaves_onTwo _ _ _ _ _ h)
  | true =>
    by_cases hleft : left = 0
    · simp only [hleft, Bool.not_true, if_true, Bool.false_eq_true, if_false]
      exact congrArg _ (State.leaves_onTwo _ _ _ _ _ h)
    · simp only [hleft, Bool.not_true, Bool.false_eq_true, if_false, leaves_self s h]

/-- Settles O27: `rowCounted_counts` for the two ways that an acknowledgement comes, `addCredits_present` for a credit, and the cases of
the register and the word for a warp word. -/
theorem acknowledgementsAndWarpWordsArrive : Obligations.AcknowledgementsAndWarpWordsArrive := by
  unfold Obligations.AcknowledgementsAndWarpWordsArrive
  refine ⟨fun s n src row st h hst hget => ?_, fun s n src row st h hst => ?_, fun s n src u p gen h hne hgen => ?_,
    fun s n m w left h hfrom hpow hne => ?_⟩
  · refine completes_received (f := fun t => t.rowCounted src row.toNat (st == 0)) ?_ h hget fun t ht hother htile =>
      ⟨ht, hother, fun r rest hrun hack => ?_⟩
    · change live s (fun s => _) = _
      simp only [if_pos hst]
      rfl
    · rw [htile]
      exact Tile.rowCounted_counts rfl _ hrun hack
  · refine (completes_rowAck h hst).imp fun t ⟨ht, hother, w, hw, htile⟩ => ⟨ht, hother, fun r rest hrun hack => ?_⟩
    rw [htile]
    exact Tile.rowCounted_counts hw _ hrun hack
  · refine completes_warpAck (src := src) (f := fun t => t.addCredits u.toNat p.toNat 1 gen) h rfl fun t ht hother htile =>
      ⟨ht, hother, ?_⟩
    rw [htile, State.tile_onTile_ne _ _ hne, hgen, Tile.addCredits_present]
  · refine ⟨_, exec_warpWordHold h hfrom hpow, ?_⟩
    unfold State.wordHeld
    cases bitOf ((s.tile n).passBits n.val) (passBit w.side.toNat) with
    | false =>
      cases w.body with
      | data d =>
        obtain ⟨hn, hm⟩ := s.tile_onTwo_ne (fun t => t.warpSent m w) (fun t => t.onSp fun x => { x with arrived := x.arrived ++ [d] }) hne
        exact ⟨rfl, fun k hk hk' => s.tile_onTwo_other _ _ hk hk', hm, hn⟩
      | token u q tok src =>
        dsimp only
        by_cases htest : s.seqTested n = true
        · rw [if_pos htest, if_pos rfl, if_pos htest]
          exact ⟨rfl, fun _ _ _ => rfl, rfl⟩
        · obtain ⟨hn, hm⟩ := s.tile_onTwo_ne (fun t => t.warpSent m w) (fun t => t.tokenArrive n u.toNat q.toNat tok src) hne
          rw [if_neg htest, if_pos rfl, if_neg htest]
          exact ⟨rfl, fun k hk hk' => s.tile_onTwo_other _ _ hk hk', hm, hn⟩
    | true =>
      dsimp only
      rw [if_neg (show ¬true = false by decide)]
      by_cases hleft : left = 0
      · obtain ⟨hn, hm⟩ := s.tile_onTwo_ne (fun t => t.warpSent m w) (fun t => { t with warpq := t.warpq ++ [w] }) hne
        rw [if_pos hleft, if_pos hleft]
        exact ⟨rfl, fun k hk hk' => s.tile_onTwo_other _ _ hk hk', hm, hn⟩
      · rw [if_neg hleft, if_neg hleft]
        exact ⟨rfl, fun _ _ _ => rfl, rfl⟩

end Sys2Proof.Machine


/-! # Answers at a tile (O45) -/

namespace Sys2Proof.Machine

/-! ## A refused piece that writes a row (R58, R406)

A GET of 32 FP32 elements to MXFP6 at LROW 8, from address 448: two pieces of 64 bytes each, and a group of three rows whose bytes beyond
the only block are zero (R58). Rows 9 and 10 of the group hold no block, so that they count as whole from the first answer on. -/

/-- The GET. -/
def padGet : Cmd := { words := [0x3217D000, 0x00801000, 0x00008000, 448, 0, 0], src := .core [] false, stamp := 0 }

/-- A tile with both pieces asked for and none answered; a byte of row 9 is not zero. -/
def padTile : Tile :=
  { Tile.reset.setUnit .sh { UnitSt.reset with running := [{ cmd := padGet, left := 2 }], issued := 1 } with
    sp := { SpSt.reset with mem := [(512 * 9, 7)] }
    sh := { ShSt.reset with out := [{ rtag := 5, user := .cmd 0, goff := 0, len := 64 }, { rtag := 6, user := .cmd 0, goff := 64, len := 64 }]
                            gets := [{ cmd := padGet, parts := [], left := 2, done := [] }] } }

/-- The chiplet with that tile at site 60. -/
def padState : State := { State.reset with inReset := false, tiles := [(60, padTile)] }

/-- The scratchpad of a site in the state that a command goes to. -/
def memAfter (o : Host.Outcome State Fault Refusal) (n : Site) : Option Memory :=
  match o with
  | .next t => some (t.tile n).sp.mem
  | _ => none

/-- The GET is well formed and its pieces are those that the tile has asked for. -/
theorem padGet_wellFormed : shMalformed padGet = false ∧
    reachPieces (shGaddr padGet) (elemsBytes (shSfmt padGet) (shCount padGet)) = [(0, 64), (64, 64)] := by
  decide +kernel

/-- The first piece is refused, and row 9 is zero. -/
theorem memAfter_padState : memAfter (exec (.gdata 60 5 1 [] []) padState) 60 = some [] := by
  decide +kernel

/-- Refutes O45: a refused piece of a converting GET writes the rows of a 6-bit group that hold no block, so that the scratchpad does not
stay as it was. -/
theorem not_reachAnswersReachTheirCommands : ¬ Obligations.ReachAnswersReachTheirCommands := by
  unfold Obligations.ReachAnswersReachTheirCommands
  rintro ⟨hget, -⟩
  obtain ⟨t, hexec, -, -, -, -, -, hanswer⟩ := hget padState 60 5 1 [] [] rfl (by decide +kernel)
  obtain ⟨-, hrefused, -⟩ := hanswer { rtag := 5, user := .cmd 0, goff := 0, len := 64 } 0
    { cmd := padGet, parts := [], left := 2, done := [] } (by decide +kernel) rfl (by decide +kernel)
  have hmem : memAfter (exec (.gdata 60 5 1 [] []) padState) 60 = some (t.tile 60).sp.mem := by
    rw [hexec]
    rfl
  rw [memAfter_padState, hrefused (by decide) (by decide) rfl] at hmem
  exact absurd hmem (by decide +kernel)

end Sys2Proof.Machine


/-! # Incoming transfers and their rows (O26) -/

namespace Sys2Proof.Machine

/-! ## The first row of a transfer (R220, R244) -/

/-- A transfer noted at its tile, as accepted or refused. -/
def Tile.notesRow (t : Tile) (x : Transfer) (ok : Bool) : Tile :=
  t.onSp fun s => { s with inX := s.inX ++ [{ src := x.src, tag := x.tag, ok := ok, row := x.row.toNat, left := x.n.toNat }] }

/-- A transfer names the row after the reserved ones of a spool, and the spool has room for its rows. -/
def Tile.fitsSpool (t : Tile) (k : Nat) (x : Transfer) : Prop :=
  x.row.toNat = spoolBase (t.spoolCfg k) + ((t.spool k).tail + (t.spool k).rsv) % spoolSize (t.spoolCfg k) ∧
    x.n.toNat + t.spoolCount k + (t.spool k).rsv ≤ spoolSize (t.spoolCfg k)

/-- A spool with the rows of a transfer reserved. -/
def Tile.reserved (t : Tile) (k : Nat) (x : Transfer) : Spool :=
  { t.spool k with
    rsv := (t.spool k).rsv + x.n.toNat
    xfers := (t.spool k).xfers ++ [{ src := x.src, tag := x.tag, row := x.row.toNat, n := x.n.toNat
                                     off := ((t.spool k).tail + (t.spool k).rsv) % spoolSize (t.spoolCfg k), past := 0, ended := false }] }

section
variable {t : Tile} {x : Transfer} (h : t.knows x.src x.tag = false)
include h

theorem Tile.incoming_refused : t.incoming false x = t.notesRow x false := by
  unfold Tile.incoming
  rw [if_neg (by simp [h]), if_pos (by decide)]
  rfl

theorem Tile.incoming_absolute (hs : t.flowSpool x.row.toNat = none) : t.incoming true x = t.notesRow x true := by
  unfold Tile.incoming
  rw [if_neg (by simp [h]), if_neg (by decide), hs]
  rfl

theorem Tile.incoming_fits {k : Nat} (hs : t.flowSpool x.row.toNat = some k) (hf : t.fitsSpool k x) :
    t.incoming true x = t.setSpool k (t.reserved k x) := by
  unfold Tile.fitsSpool at hf
  unfold Tile.incoming
  rw [if_neg (by simp [h]), if_neg (by decide), hs]
  dsimp only
  rw [if_pos (by simpa using hf)]
  rfl

theorem Tile.incoming_full {k : Nat} (hs : t.flowSpool x.row.toNat = some k) (hf : ¬t.fitsSpool k x) :
    t.incoming true x = (t.flagBit Reg.SP_ERR 4).notesRow x false := by
  unfold Tile.fitsSpool at hf
  unfold Tile.incoming
  rw [if_neg (by simp [h]), if_neg (by decide), hs]
  dsimp only
  rw [if_neg (by simpa using hf)]
  rfl

end

/-! ## The end of a row (R218, R237, R275, R337) -/

/-- A row that ends moves its transfer on, which is in the scratchpad's notes and not in its bytes; then it is answered, unless it is a
skipped one. -/
theorem Tile.rowEnds_eq (t : Tile) (me : Site) (d : DataRow) (warp ok : Bool) :
    ∃ u : Tile, u = { t with sp := u.sp } ∧ u.sp.mem = t.sp.mem ∧
      t.rowEnds me d warp ok = if d.skip = true then u else u.answerRow me d warp ok := by
  unfold Tile.rowEnds
  cases t.spoolOf d with
  | none =>
    dsimp only
    refine ⟨_, ?_, ?_, rfl⟩
    · rfl
    · rfl
  | some kx =>
    dsimp only
    refine ⟨_, ?_, ?_, rfl⟩
    · rfl
    · rfl

/-- What is the same of a tile before and after a row: the accumulators, the tile registers and the core. -/
def Tile.besideRows (t : Tile) : Map LaElem × Map Word × CoreSt := (t.la.elems, t.trf, t.core)

theorem Tile.answerRow_sp (t : Tile) (me : Site) (d : DataRow) (warp ok : Bool) : (t.answerRow me d warp ok).sp = t.sp := by
  cases warp with
  | true => rfl
  | false => rfl

theorem Tile.answerRow_besideRows (t : Tile) (me : Site) (d : DataRow) (warp ok : Bool) :
    (t.answerRow me d warp ok).besideRows = t.besideRows := by
  cases warp with
  | true => rfl
  | false => rfl

/-- An answer is on its way: over the wires of the warp link, or as a packet of VC0. -/
def Tile.answers (t : Tile) (me : Site) (d : DataRow) (warp ok : Bool) : Prop :=
  if warp = true then (d.src, WarpAck.row me d.row (if ok = true then 0 else 1)) ∈ t.wires
  else ∃ p ∈ t.outq, p.dst = .site d.src ∧ p.cls = 0 ∧ p.body = .ack d.row (if ok = true then 0 else 1)

theorem Tile.answerRow_answers (t : Tile) (me : Site) (d : DataRow) (warp ok : Bool) :
    (t.answerRow me d warp ok).answers me d warp ok := by
  unfold Tile.answers Tile.answerRow
  cases warp with
  | true => exact List.mem_append_right _ (List.mem_singleton_self _)
  | false => exact ⟨_, List.mem_append_right _ (List.mem_singleton_self _), rfl, rfl, rfl⟩

/-- The bytes, and what lies beside the rows, after a row has ended. -/
theorem Tile.rowEnds_keeps (t : Tile) (me : Site) (d : DataRow) (warp ok : Bool) :
    (t.rowEnds me d warp ok).sp.mem = t.sp.mem ∧ (t.rowEnds me d warp ok).besideRows = t.besideRows := by
  obtain ⟨u, hu, hmem, heq⟩ := t.rowEnds_eq me d warp ok
  have hbeside : u.besideRows = t.besideRows := by
    rw [hu]
    rfl
  rw [heq]
  split
  · exact ⟨hmem, hbeside⟩
  · exact ⟨(congrArg SpSt.mem (u.answerRow_sp me d warp ok)).trans hmem, (u.answerRow_besideRows me d warp ok).trans hbeside⟩

theorem Tile.rowEnds_skipped (t : Tile) (me : Site) {d : DataRow} (warp ok : Bool) (h : d.skip = true) :
    (t.rowEnds me d warp ok).wires = t.wires ∧ (t.rowEnds me d warp ok).outq = t.outq := by
  obtain ⟨u, hu, -, heq⟩ := t.rowEnds_eq me d warp ok
  rw [heq, if_pos h, hu]
  exact ⟨rfl, rfl⟩

theorem Tile.rowEnds_answers (t : Tile) (me : Site) {d : DataRow} (warp ok : Bool) (h : d.skip = false) :
    (t.rowEnds me d warp ok).answers me d warp ok := by
  obtain ⟨u, -, -, heq⟩ := t.rowEnds_eq me d warp ok
  rw [heq, if_neg (by simp [h])]
  exact u.answerRow_answers me d warp ok

/-! ## A row written (R237, R251) -/

theorem Tile.storeRow_held (t : Tile) (me : Site) (row off : Nat) (data : List Byte) (poison : Bool) :
    (t.storeRow me row off data poison).sp.held = t.sp.held := by
  have hword : ∀ (t : Tile) (wk : Nat × EccKind), (match wk.2 with
      | .ce => t.spCe
      | .ue => t.spUe me row).sp.held = t.sp.held := fun t wk => by
    cases wk.2 with
    | ce =>
      dsimp only
      rw [Tile.spCe, Tile.count, Tile.flagBit_frame]
      rfl
    | ue =>
      dsimp only
      rw [Tile.spUe, Tile.flagBit_frame]
      rfl
  have hfold := foldl_keeps (p := fun t : Tile => t.sp.held) (f := fun (t : Tile) (wk : Nat × EccKind) => match wk.2 with
    | .ce => t.spCe
    | .ue => t.spUe me row) hword
  unfold Tile.storeRow
  dsimp only
  split
  · exact hfold _ t
  · split
    · exact hfold _ t
    · exact hfold _ t

theorem Tile.writeRow_empty (t : Tile) (me : Site) (row off : Nat) (poison : Bool) (eng : Nat) :
    t.writeRow me row off [] poison eng = t := by
  rw [Tile.writeRow, if_pos (by decide)]

/-- A write waits for its bank or behind its engine's others. -/
def Tile.mustWait (t : Tile) (h : HeldWrite) : Prop :=
  h.data ≠ [] ∧ ¬(t.inService h.row = true ∧ t.holdsEng h.eng = false)

/-- A write that need not wait is done at once, and what follows it is done. -/
theorem Tile.applyWrite_now {t : Tile} (me : Site) {h : HeldWrite} (hw : ¬t.mustWait h) :
    t.applyWrite me h = (t.writeRow me h.row h.off h.data h.poison h.eng).writeEnds me h := by
  have hheld : (t.writeRow me h.row h.off h.data h.poison h.eng).sp.held = t.sp.held := by
    by_cases hd : h.data = []
    · rw [hd, Tile.writeRow_empty]
    · obtain ⟨hs, he⟩ := not_not.1 fun hno => hw ⟨hd, hno⟩
      rw [Tile.writeRow_served me h.poison hd hs he, Tile.storeRow_held]
  unfold Tile.applyWrite
  dsimp only
  rw [if_pos (by rw [hheld])]

/-- A write that must wait is held behind the others; nothing is written or answered. -/
theorem Tile.applyWrite_held {t : Tile} (me : Site) {h : HeldWrite} (hw : t.mustWait h) :
    t.applyWrite me h = { t with
      regs := (t.writeRow me h.row h.off h.data h.poison h.eng).regs, sp := { t.sp with held := t.sp.held ++ [h] } } := by
  have hwrite := Tile.writeRow_held me (off := h.off) h.poison hw.1 hw.2
  unfold Tile.applyWrite
  dsimp only
  rw [hwrite, if_neg (by simp)]
  simp [Tile.onSp]

/-! ## An arrived row (R221, R244) -/

/-- An arrived row as a write that may have to wait. -/
def Tile.rowWrite (d : DataRow) (warp : Bool) : HeldWrite :=
  { eng := 3, row := d.row.toNat, off := d.off.toNat, data := d.data, poison := d.poison, came := some (d, warp) }

/-- A tile without an arrived row that it has taken up. -/
def Tile.takenUp (t : Tile) (d : DataRow) : Tile := t.onSp fun s => { s with arrived := s.arrived.erase d }

/-- A row of a transfer to absolute rows: written where it names if its transfer is accepted and it is not a skipped one, else ended. -/
theorem Tile.rowArrives_absolute {t : Tile} (me : Site) (takes : Bool) {d : DataRow} {e : InRows} (hspool : t.spoolOf d = none)
    (hnoted : (t.sp.inX.find? fun e => decide (e.src = d.src) && decide (e.tag = d.tag)) = some e) :
    t.rowArrives me takes d =
      if e.ok = true ∧ takes = true ∧ d.skip = false then (t.takenUp d).applyWrite me (Tile.rowWrite d (decide (d ∈ t.sp.arrived)))
      else (t.takenUp d).rowEnds me d (decide (d ∈ t.sp.arrived)) (e.ok && takes) := by
  have hspool' : (t.takenUp d).spoolOf d = none := hspool
  have hnoted' : ((t.takenUp d).sp.inX.find? fun e => decide (e.src = d.src) && decide (e.tag = d.tag)) = some e := hnoted
  change (match (t.takenUp d).spoolOf d with
    | some (n, x) => _
    | none => _) = _
  rw [hspool']
  dsimp only
  change (match (t.takenUp d).sp.inX.find? fun e => decide (e.src = d.src) && decide (e.tag = d.tag) with
    | some e => _
    | none => _) = _
  rw [hnoted']
  dsimp only
  by_cases hw : e.ok = true ∧ takes = true ∧ d.skip = false
  · rw [if_pos hw, if_pos (by simp [hw])]
    rfl
  · rw [if_neg hw, if_neg (by simpa [and_assoc] using hw)]
    rfl

/-- The outcome of an arrived row at a tile that is `a` before it, by whether its transfer takes it. -/
structure Tile.Arrived (a b : Tile) (me : Site) (d : DataRow) (taken : Prop) [Decidable taken] : Prop where
  byte : ∀ row i, i < 512 → b.spByte row i =
    if (taken ∧ d.skip = false ∧ row = d.row.toNat ∧ d.off.toNat ≤ i ∧ i < d.off.toNat + d.data.length ∧ a.inService row = true ∧
      a.holdsEng 3 = false) then d.data.getD (i - d.off.toNat) 0 else a.spByte row i
  waits : taken ∧ d.skip = false ∧ a.mustWait (Tile.rowWrite d (decide (d ∈ a.sp.arrived))) →
    Tile.rowWrite d (decide (d ∈ a.sp.arrived)) ∈ b.sp.held
  silent : d.skip = true ∨ (taken ∧ d.skip = false ∧ a.mustWait (Tile.rowWrite d (decide (d ∈ a.sp.arrived)))) →
    b.wires = a.wires ∧ b.outq = a.outq
  answers : ¬(d.skip = true ∨ (taken ∧ d.skip = false ∧ a.mustWait (Tile.rowWrite d (decide (d ∈ a.sp.arrived))))) →
    b.answers me d (decide (d ∈ a.sp.arrived)) (decide taken)
  beside : b.besideRows = a.besideRows

theorem Tile.writeRow_besideRows (t : Tile) (me : Site) (row off : Nat) (data : List Byte) (poison : Bool) (eng : Nat) :
    (t.writeRow me row off data poison eng).besideRows = t.besideRows := by
  obtain ⟨-, hcore, -, -, hla, htrf⟩ := by
    simpa [Tile.besideSp] using t.writeRow_besideSp me row off data poison eng
  rw [Tile.besideRows, hla, htrf, hcore, Tile.besideRows]

/-- A row that is taken, and not a skipped one: its write. -/
theorem Tile.arrived_write (t : Tile) (me : Site) {d : DataRow} (hlen : d.off.toNat + d.data.length ≤ 512) (hskip : d.skip = false) :
    t.Arrived ((t.takenUp d).applyWrite me (Tile.rowWrite d (decide (d ∈ t.sp.arrived)))) me d True := by
  generalize hx : Tile.rowWrite d (decide (d ∈ t.sp.arrived)) = x
  have hsame : (t.takenUp d).mustWait x ↔ t.mustWait x := Iff.rfl
  by_cases hw : t.mustWait x
  · rw [Tile.applyWrite_held me (hsame.2 hw)]
    refine ⟨fun row i _ => ?_, fun _ => ?_, fun _ => ⟨rfl, rfl⟩, fun hno => absurd (.inr ⟨trivial, hskip, hx ▸ hw⟩) hno, rfl⟩
    · rw [if_neg]
      · rfl
      · rintro ⟨-, -, rfl, hlo, hhi, hserve, hheld⟩
        subst hx
        exact hw.2 ⟨hserve, hheld⟩
    · rw [hx]
      exact List.mem_append_right _ (List.mem_singleton_self _)
  · rw [Tile.applyWrite_now me fun h => hw (hsame.1 h)]
    subst hx
    obtain ⟨hmem, hbeside⟩ := ((t.takenUp d).writeRow me d.row.toNat d.off.toNat d.data d.poison 3).rowEnds_keeps me d
      (decide (d ∈ t.sp.arrived)) true
    refine ⟨fun row i hi => ?_, fun h => absurd h.2.2 hw, fun h => ?_, fun _ => ?_, ?_⟩
    · refine (congrArg (fun m => Memory.read m (512 * row + i)) hmem).trans ?_
      by_cases hd : d.data = []
      · rw [hd, Tile.writeRow_empty, if_neg (by rw [List.length_nil]; omega)]
        rfl
      · refine (Tile.writeRow_spByte (t.takenUp d) me d.poison 3 hd hlen row hi).trans (if_congr ?_ rfl rfl)
        constructor
        · rintro ⟨⟨rfl, hlo, hhi⟩, hserve, hheld⟩
          exact ⟨trivial, hskip, rfl, hlo, hhi, hserve, hheld⟩
        · rintro ⟨-, -, rfl, hlo, hhi, hserve, hheld⟩
          exact ⟨⟨rfl, hlo, hhi⟩, hserve, hheld⟩
    · rcases h with h | h
      · rw [hskip] at h
        cases h
      · exact absurd h.2.2 hw
    · exact Tile.rowEnds_answers _ me _ _ hskip
    · exact hbeside.trans ((t.takenUp d).writeRow_besideRows me _ _ _ _ _)

/-- A row that is not taken, or a skipped one: it ends. -/
theorem Tile.arrived_end (t : Tile) (me : Site) {d : DataRow} {taken : Prop} [Decidable taken] (h : ¬(taken ∧ d.skip = false)) :
    t.Arrived ((t.takenUp d).rowEnds me d (decide (d ∈ t.sp.arrived)) (decide taken)) me d taken := by
  obtain ⟨hmem, hbeside⟩ := (t.takenUp d).rowEnds_keeps me d (decide (d ∈ t.sp.arrived)) (decide taken)
  refine ⟨fun row i _ => ?_, fun hno => absurd ⟨hno.1, hno.2.1⟩ h, fun hs => ?_, fun hs => ?_, hbeside⟩
  · rw [if_neg fun hno => h ⟨hno.1, hno.2.1⟩]
    exact congrArg (fun m => Memory.read m (512 * row + i)) hmem
  · rcases hs with hskip | hno
    · exact (t.takenUp d).rowEnds_skipped me _ _ hskip
    · exact absurd ⟨hno.1, hno.2.1⟩ h
  · refine (t.takenUp d).rowEnds_answers me _ _ ?_
    simpa using fun hskip => hs (.inl hskip)

/-- A row that has arrived at tile `a`, after whatever physical events there are. -/
theorem Tile.rowArrives_arrived {a : Tile} (me : Site) (ph : Phys) (takes : Bool) {d : DataRow} {e : InRows} (hspool : a.spoolOf d = none)
    (hnoted : (a.sp.inX.find? fun e => decide (e.src = d.src) && decide (e.tag = d.tag)) = some e)
    (hlen : d.off.toNat + d.data.length ≤ 512) {taken : Prop} [Decidable taken] (ht : taken ↔ e.ok = true ∧ takes = true) :
    a.Arrived ((a.phys ph).rowArrives me takes d) me d taken := by
  have hup := a.phys_upsetTo ph
  have hsp : (a.phys ph).sp = { a.sp with bad := (a.phys ph).sp.bad } := by rw [hup.frame]
  have harrived : (a.phys ph).Arrived ((a.phys ph).rowArrives me takes d) me d taken := by
    rw [Tile.rowArrives_absolute (e := e) me takes (by rw [Tile.spoolOf, hsp]; exact hspool) (by rw [hsp]; exact hnoted)]
    by_cases hw : taken ∧ d.skip = false
    · have htaken : taken = True := eq_true hw.1
      obtain ⟨hok, htakes⟩ := ht.1 hw.1
      rw [if_pos ⟨hok, htakes, hw.2⟩]
      have hdone := (a.phys ph).arrived_write me hlen hw.2
      subst htaken
      convert hdone
    · have hok : (e.ok && takes) = decide taken := by
        rw [Bool.eq_iff_iff, Bool.and_eq_true, decide_eq_true_iff, ht]
      rw [if_neg fun hno => hw ⟨ht.2 ⟨hno.1, hno.2.1⟩, hno.2.2⟩, hok]
      exact (a.phys ph).arrived_end me hw
  have hin : (a.phys ph).sp.arrived = a.sp.arrived := by rw [hsp]
  have hwait : ∀ x, (a.phys ph).mustWait x ↔ a.mustWait x := fun x => by
    unfold Tile.mustWait
    rw [hup.inService, hup.holdsEng]
  have hout : (a.phys ph).wires = a.wires ∧ (a.phys ph).outq = a.outq := by
    rw [hup.frame]
    exact ⟨rfl, rfl⟩
  obtain ⟨hbyte, hheld, hsilent, hanswers, hbeside⟩ := harrived
  simp only [hin, hwait, hout] at hheld hsilent hanswers
  refine ⟨fun row i hi => ?_, hheld, hsilent, hanswers, hbeside.trans ?_⟩
  · rw [hbyte row i hi, hup.inService, hup.holdsEng]
    exact congrArg _ (by rw [Tile.spByte, hup.mem, Tile.spByte])
  · rw [Tile.besideRows, hup.elems, hup.trf, hup.core, Tile.besideRows]

/-! ## The commands -/

theorem State.named_src (s : State) (n : Site) (y : Transfer) : (s.named n y).src = y.src ∧ (s.named n y).tag = y.tag := by
  unfold State.named
  split <;> exact ⟨rfl, rfl⟩

/-- What a transfer's first row does at its tile. -/
theorem completes_incomingTransfer {s : State} {n : Site} {y : Transfer} (h : s.inReset = false) :
    Completes (.incomingTransfer n y) s fun t => s.onlyTile t n ∧
      t.tile n = (s.tile n).incoming ((s.tile n).takesRows (s.steward.site n.val)) (s.named n y) :=
  completes_live (f := fun s => s.onTile n fun t => t.incoming (t.takesRows (s.steward.site n.val)) (s.named n y)) rfl h
    ⟨onlyTile_onTile s n _ h, (State.tile_leaves s _ n).trans (State.tile_onTile_same s n _)⟩

/-- What an arrived row of a transfer that the tile knows does there. -/
theorem completes_dataRowWrite {s : State} {n : Site} {d : DataRow} {ph : Phys} {e : InRows} (h : s.inReset = false)
    (hnoted : ((s.tile n).sp.inX.find? fun e => decide (e.src = d.src) && decide (e.tag = d.tag)) = some e)
    (hbank : s.bankTested n d.row.toNat = false)
    (hget : s.mayGet (fun p => !(d ∈ (s.tile n).sp.arrived) && p.dst = .site n && p.body = .data d) = true) :
    Completes (.dataRowWrite n d ph) s fun t => t = { s with tiles := t.tiles, net := t.net } ∧ (∀ m, m ≠ n → t.tile m = s.tile m) ∧
      t.tile n = ((s.tile n).phys ph).rowArrives n ((s.tile n).takesAdmitted (s.steward.site n.val)) d := by
  have hknows : (s.tile n).knows d.src d.tag = true := by
    unfold Tile.knows
    have hmatch := List.find?_some (p := fun e : InRows => decide (e.src = d.src) && decide (e.tag = d.tag)) hnoted
    rw [Bool.or_eq_true]
    exact .inl (List.any_eq_true.2 ⟨e, List.mem_of_find?_eq_some hnoted, hmatch⟩)
  refine completes_received (f := fun t => (t.phys ph).rowArrives n (t.takesAdmitted (s.steward.site n.val)) d) ?_ h hget
    fun t ht hother htile => ⟨ht, hother, htile⟩
  change live s _ = live s _
  rw [live_out _ _ h, live_out _ _ h, if_pos (by rw [hknows, hbank]; rfl)]
  rfl

/-- Settles O26: the four outcomes of a transfer's first row (`incoming_…`), and `rowArrives_arrived` for its rows. -/
theorem transfersArriveAtTheirRows : Obligations.TransfersArriveAtTheirRows := by
  unfold Obligations.TransfersArriveAtTheirRows
  refine ⟨fun s n y h hknows => ?_, fun s n d ph e h hspool hnoted hlen hbank hget => ?_⟩
  · refine (completes_incomingTransfer h).imp fun t ⟨ht, htile⟩ => ?_
    rw [htile]
    have hnew : (s.tile n).knows (s.named n y).src (s.named n y).tag = false := by
      rw [(s.named_src n y).1, (s.named_src n y).2, hknows]
    refine ⟨ht, ?_⟩
    cases htakes : (s.tile n).takesRows (s.steward.site n.val) with
    | false =>
      rw [Tile.incoming_refused hnew, if_pos rfl]
      exact ⟨⟨rfl, rfl⟩, rfl⟩
    | true =>
      rw [if_neg (show ¬true = false by decide)]
      cases hflow : (s.tile n).flowSpool (s.named n y).row.toNat with
      | none =>
        rw [Tile.incoming_absolute hnew hflow]
        exact ⟨⟨rfl, rfl⟩, rfl⟩
      | some k =>
        by_cases hfits : (s.tile n).fitsSpool k (s.named n y)
        · rw [Tile.incoming_fits hnew hflow hfits]
          refine ⟨⟨fun _ => ⟨?_, ?_, fun j hj => Tile.spool_setSpool_ne _ _ hj, rfl, rfl⟩, fun hno => absurd hfits hno⟩, rfl⟩
          · rw [Tile.spool_setSpool_same]
            rfl
          · rw [Tile.spool_setSpool_same]
            exact List.length_append
        · have hframe := (s.tile n).flagBit_frame Reg.SP_ERR 4
          rw [Tile.incoming_full hnew hflow hfits]
          refine ⟨⟨fun hyes => absurd hyes hfits, fun _ => ⟨?_, Tile.bitOf_flagBit_self _ _ (by decide)⟩⟩, ?_⟩
          · rw [hframe]
            rfl
          · rw [hframe]
            rfl
  · refine (completes_dataRowWrite h hnoted hbank hget).imp fun t ⟨ht, hother, htile⟩ => ?_
    have hrow := Tile.rowArrives_arrived n ph ((s.tile n).takesAdmitted (s.steward.site n.val)) hspool hnoted hlen
      (taken := e.ok = true ∧ (s.tile n).takesAdmitted (s.steward.site n.val) = true) Iff.rfl
    rw [← htile] at hrow
    have hbeside := hrow.beside
    simp only [Tile.besideRows, Prod.mk.injEq] at hbeside
    obtain ⟨helems, htrf, hcore⟩ := hbeside
    refine ⟨ht, hother, fun row i hi => hrow.byte row i hi, fun hw => ⟨_, hrow.waits hw, rfl, rfl, rfl⟩, ?_, helems, htrf, hcore⟩
    split
    next hsilent => exact hrow.silent hsilent
    next hspeaks =>
      have hanswer := hrow.answers hspeaks
      unfold Tile.answers at hanswer
      simpa using hanswer

end Sys2Proof.Machine


/-! # Shuttle commands (O25) -/

namespace Sys2Proof.Machine

/-! ## What a shuttle command leaves as it is (R215 to R221) -/

/-- The state that a shuttle command's work keeps: all that is beside the scratchpad but for the marks of the commands in progress, whose
order and whose words it keeps. -/
def Tile.shView (t : Tile) : (Map LaElem × List ExpRow × List ExpRow) × MuSt × Map Word × CoreSt × Map GroupSt ×
    (UnitC → List Cmd) × List (Cmd × Bool) :=
  ((t.la.elems, t.la.exports, t.la.late), t.mu, t.trf, t.core, t.groups, fun v => (t.unit v).queue,
    (t.unit .sh).running.map fun r => (r.cmd, r.malformed))

/-- That with the scratchpad's bytes. -/
def Tile.shFrame (t : Tile) := (t.shView, t.sp.mem)

theorem Tile.shView_of_besideSp {a b : Tile} (h : b.besideSp = a.besideSp) : b.shView = a.shView := by
  obtain ⟨hmu, hcore, hgroups, hunits, hla, htrf⟩ :
      b.mu = a.mu ∧ b.core = a.core ∧ b.groups = a.groups ∧ b.units = a.units ∧ b.la = a.la ∧ b.trf = a.trf := by
    simpa [Tile.besideSp] using h
  unfold Tile.shView Tile.unit
  rw [hmu, hcore, hgroups, hunits, hla, htrf]

theorem Tile.shFrame_of_besideSp {a b : Tile} (h : b.besideSp = a.besideSp) (hm : b.sp.mem = a.sp.mem) : b.shFrame = a.shFrame := by
  rw [Tile.shFrame, Tile.shView_of_besideSp h, hm, Tile.shFrame]

theorem Tile.spFrame.shFrame {a b : Tile} (h : a.spFrame b) : b.shFrame = a.shFrame := Tile.shFrame_of_besideSp h.besideSp h.2

theorem Tile.flagBit_shFrame (t : Tile) (off bit : Nat) : (t.flagBit off bit).shFrame = t.shFrame := by
  rw [t.flagBit_frame]
  rfl

theorem Tile.err_shFrame (t : Tile) (cls : Nat) : (t.err cls).shFrame = t.shFrame := by
  rw [t.err_frame]
  rfl

theorem Tile.flag_shFrame (t : Tile) (off : Nat) (w : Word) : (t.flag off w).shFrame = t.shFrame := by
  unfold Tile.flag
  dsimp only
  split <;> rfl

/-- The marks of commands in progress may change, not the commands. -/
theorem Tile.onRun_shFrame (t : Tile) (stamp : Nat) {f : Run → Run} (hf : ∀ r, (f r).cmd = r.cmd ∧ (f r).malformed = r.malformed) :
    (t.onRun .sh stamp f).shFrame = t.shFrame := by
  have hqueue : ∀ v, ((t.onRun .sh stamp f).unit v).queue = (t.unit v).queue := fun v => by
    cases v <;> rfl
  have hrun : ((t.onRun .sh stamp f).unit .sh).running.map (fun r => (r.cmd, r.malformed)) =
      (t.unit .sh).running.map fun r => (r.cmd, r.malformed) := by
    rw [Tile.onRun, Tile.unit_onUnit_same, List.map_map]
    refine List.map_congr_left fun r _ => ?_
    dsimp only [Function.comp]
    split
    · rw [(hf r).1, (hf r).2]
    · rfl
  unfold Tile.shFrame Tile.shView
  rw [funext hqueue, hrun]
  rfl

theorem Tile.upsetTo.shFrame {a b : Tile} (h : a.upsetTo b) : b.shFrame = a.shFrame := by
  have hqueue : ∀ v, (b.unit v).queue = (a.unit v).queue := fun v => by
    have hunit := congrArg UnitSt.queue (h.units v)
    exact hunit
  have hmap : ∀ x : UnitSt, x.unconf.running.map (fun r => (r.cmd, r.malformed)) = x.running.map fun r => (r.cmd, r.malformed) :=
    fun x => List.map_map
  have hrun : (b.unit .sh).running.map (fun r => (r.cmd, r.malformed)) = (a.unit .sh).running.map fun r => (r.cmd, r.malformed) := by
    rw [← hmap, h.units, hmap]
  have hla : b.la.elems = a.la.elems ∧ b.la.exports = a.la.exports ∧ b.la.late = a.la.late := by
    rw [h.frame]
    exact ⟨rfl, rfl, rfl⟩
  unfold Tile.shFrame Tile.shView
  rw [hla.1, hla.2.1, hla.2.2, h.mu, h.trf, h.core, h.groups, funext hqueue, hrun, h.mem]

/-! ## A command starts (R206, R221) -/

/-- A tile that has only begun a command: the measure of what its work keeps. -/
def Tile.begun (t : Tile) (c : Cmd) : Tile := t.begin .sh { cmd := c }

theorem Tile.begin_shView {a u : Tile} {r : Run} (h : u.shView = a.shView) (hm : r.malformed = false) :
    (u.begin .sh r).shView = (a.begun r.cmd).shView := by
  have hview : ∀ (t : Tile) (r : Run), (t.begin .sh r).shView = (t.shView.1, t.shView.2.1, t.shView.2.2.1, t.shView.2.2.2.1,
      t.shView.2.2.2.2.1, (fun v => if v = .sh then (t.shView.2.2.2.2.2.1 v).drop 1 else t.shView.2.2.2.2.2.1 v),
      t.shView.2.2.2.2.2.2 ++ [(r.cmd, r.malformed)]) := fun t r => by
    have hqueue : ∀ v, ((t.begin .sh r).unit v).queue = if v = .sh then (t.unit v).queue.drop 1 else (t.unit v).queue := fun v => by
      cases v <;> rfl
    unfold Tile.shView
    rw [funext hqueue, (t.begin_unit .sh r).2, List.map_append]
    rfl
  rw [Tile.begun, hview, hview, h, hm]

theorem Tile.shBegin_shFrame (t : Tile) (me : Site) (c : Cmd) (ph : Phys) (rows : List Nat) :
    (t.shBegin me c ph rows).1.shFrame = (t.begun c).shFrame := by
  have hstep : ∀ (u : Tile) (p q : Bool) (off bit cls : Nat) (r : Run), u.shFrame = t.shFrame → r.cmd = c → r.malformed = false →
      ((let u := if p then u.flagBit off bit else u; if q then u.err cls else u).begin .sh r).shFrame = (t.begun c).shFrame :=
    fun u p q off bit cls r hu hc hm => by
      subst hc
      generalize hw : (let u := if p then u.flagBit off bit else u; if q then u.err cls else u) = w
      have hwu : w.shFrame = t.shFrame := by
        rw [← hw, apply_ite Tile.shFrame, Tile.err_shFrame, ite_self, apply_ite Tile.shFrame, Tile.flagBit_shFrame, ite_self, hu]
      rw [Tile.shFrame, Tile.begin_shView (congrArg Prod.fst hwu) hm]
      exact congrArg (Prod.mk _) (congrArg Prod.snd hwu)
  exact hstep _ _ _ _ _ _ _ (((Tile.readRows_spFrame _ me _).shFrame).trans (t.physOf_upsetTo _ ph).shFrame) rfl rfl

/-- What the statement says of a tile `b` that a shuttle command has started at, from what its work keeps. -/
theorem Tile.started_of_shView {a b : Tile} {c : Cmd} (h : b.shView = (a.begun c).shView) :
    a.started b .sh c ∧ b.la.elems = a.la.elems ∧ b.mu = a.mu ∧ b.trf = a.trf ∧ b.core = a.core ∧ b.groups = a.groups ∧
      ∀ v, v ≠ .sh → (b.unit v).queue = (a.unit v).queue := by
  unfold Tile.shView at h
  simp only [Prod.mk.injEq] at h
  obtain ⟨⟨helems, -, -⟩, hmu, htrf, hcore, hgroups, hqueue, hrun⟩ := h
  obtain ⟨hdrop, happend⟩ := a.begin_unit .sh { cmd := c }
  refine ⟨⟨(congrFun hqueue .sh).trans hdrop, ?_⟩, helems, hmu, htrf, hcore, hgroups, fun v hv => (congrFun hqueue v).trans ?_⟩
  · rw [Tile.begun, happend, List.map_append] at hrun
    have hlen := congrArg List.length hrun
    rw [List.length_map, List.length_append, List.length_map] at hlen
    have hlast := congrArg List.getLast? hrun
    rw [List.getLast?_map, List.getLast?_append] at hlast
    obtain ⟨r, hr, hview⟩ := Option.map_eq_some_iff.1 (hlast.trans rfl)
    exact ⟨r, hr, congrArg Prod.fst hview, congrArg Prod.snd hview, hlen⟩
  · exact congrArg UnitSt.queue (Tile.unit_onUnit_ne _ _ hv)

/-! ## The steps of a shuttle command (R60, R216, R406) -/

theorem Tile.cvtFlags_shFrame (t : Tile) (stamp : Nat) (f : Word) : (t.cvtFlags stamp f).shFrame = t.shFrame := by
  have hflag : (if f = 0 then t else t.flag Reg.SH_CVT_FLAGS f).shFrame = t.shFrame := by
    split
    · rfl
    · exact t.flag_shFrame _ f
  unfold Tile.cvtFlags
  dsimp only
  generalize (if f = 0 then t else t.flag Reg.SH_CVT_FLAGS f) = u at hflag
  split
  · refine (Tile.onRun_shFrame _ _ fun r => ?_).trans ?_
    · exact ⟨rfl, rfl⟩
    · split
      · exact (u.err_shFrame 2).trans hflag
      · exact hflag
  · exact hflag

theorem Tile.newTag_shFrame (t : Tile) : t.newTag.2.shFrame = t.shFrame := rfl

theorem Tile.pumpReach_shFrame (t : Tile) (me : Site) : (t.pumpReach me).shFrame = t.shFrame :=
  foldl_keeps Tile.shFrame (f := fun (t : Tile) q => t.sendReach me q) (fun _ _ => rfl) _ _

theorem Tile.askReach_shFrame (t : Tile) (me : Site) (qs : List ReachReq) : (t.askReach me qs).shFrame = t.shFrame :=
  Tile.pumpReach_shFrame _ me

/-- A write of a row changes the scratchpad, registers and packets, and nothing else. -/
theorem Tile.storeRow_frame (t : Tile) (me : Site) (row off : Nat) (data : List Byte) (poison : Bool) :
    t.storeRow me row off data poison = { t with
      regs := (t.storeRow me row off data poison).regs, outq := (t.storeRow me row off data poison).outq
      sp := (t.storeRow me row off data poison).sp } := by
  unfold Tile.storeRow
  simp only
  generalize hl : List.filter _ (t.badIn row) = l
  have h := Tile.foldl_spFrame (fun (t : Tile) (wk : Nat × EccKind) => match wk.2 with
    | .ce => t.spCe
    | .ue => t.spUe me row) (fun t x => by
      cases x.2
      · exact t.spCe_spFrame
      · exact t.spUe_spFrame me row) l t
  generalize List.foldl (fun (t : Tile) (wk : Nat × EccKind) => match wk.2 with
    | .ce => t.spCe
    | .ue => t.spUe me row) t l = u at h
  obtain ⟨hframe, -⟩ := h
  split
  · rw [hframe]
    rfl
  · split
    · rw [hframe]
      rfl
    · rw [hframe]
      rfl

theorem Tile.writeRow_sh (t : Tile) (me : Site) (row off : Nat) (data : List Byte) (poison : Bool) (eng : Nat) :
    (t.writeRow me row off data poison eng).sh = t.sh := by
  unfold Tile.writeRow
  split
  · rfl
  · split
    · dsimp only
      split <;> rfl
    · rw [Tile.storeRow_frame]

/-! ## Rows written or sent (R216, R221, R337) -/

/-- A row that goes to the tile's own scratchpad. -/
def Tile.writeHere (t : Tile) (me : Site) (stamp : Nat) (r : OutRow) : Tile :=
  (t.writeRow me r.row 0 r.data r.poison (shEng t stamp)).onRun .sh stamp fun x => { x with writes := x.writes ++ [(r.row, 1)] }

theorem Tile.sendRow_here (t : Tile) (me : Site) (stamp tag : Nat) (r : OutRow) :
    t.sendRow me .here stamp tag r = if r.skip = true then t else t.writeHere me stamp r := rfl

theorem Tile.writeHere_shView (t : Tile) (me : Site) (stamp : Nat) (r : OutRow) : (t.writeHere me stamp r).shView = t.shView := by
  have hrun := Tile.onRun_shFrame (t.writeRow me r.row 0 r.data r.poison (shEng t stamp)) stamp
    (f := fun x => { x with writes := x.writes ++ [(r.row, 1)] }) fun _ => ⟨rfl, rfl⟩
  exact (congrArg Prod.fst hrun).trans (Tile.shView_of_besideSp (t.writeRow_besideSp me _ _ _ _ _))

/-- A row that goes elsewhere leaves the scratchpad as it is. -/
theorem Tile.sendRow_shFrame (t : Tile) (me : Site) {sink : Sink} (stamp tag : Nat) (r : OutRow) (h : sink ≠ .here) :
    (t.sendRow me sink stamp tag r).shFrame = t.shFrame := by
  have hwait : ∀ (u : Tile) (s : Site), u.shFrame = t.shFrame → (if r.skip = true then u else
      u.onRun .sh stamp fun x => { x with left := x.left + 1, acks := x.acks ++ [(s.val, r.row)] }).shFrame = t.shFrame := fun u s hu => by
    split
    · exact hu
    · refine (u.onRun_shFrame stamp fun _ => ?_).trans hu
      exact ⟨rfl, rfl⟩
  cases sink with
  | here => exact absurd rfl h
  | weft s vch => exact hwait _ s rfl
  | warp side s => exact hwait _ s rfl
  | nowhere =>
    refine (Tile.onRun_shFrame (t.flagBit Reg.TC_WV_ERR 4) stamp fun _ => ?_).trans (t.flagBit_shFrame _ _)
    exact ⟨rfl, rfl⟩

theorem Tile.sendRow_shView (t : Tile) (me : Site) (sink : Sink) (stamp tag : Nat) (r : OutRow) :
    (t.sendRow me sink stamp tag r).shView = t.shView := by
  by_cases h : sink = .here
  · rw [h, Tile.sendRow_here]
    split
    · rfl
    · exact t.writeHere_shView me stamp r
  · exact congrArg Prod.fst (t.sendRow_shFrame me stamp tag r h)

theorem Tile.sendRow_sh (t : Tile) (me : Site) (sink : Sink) (stamp tag : Nat) (r : OutRow) : (t.sendRow me sink stamp tag r).sh = t.sh := by
  cases sink with
  | here =>
    rw [Tile.sendRow_here]
    split
    · rfl
    · exact t.writeRow_sh me _ _ _ _ _
  | weft s vch =>
    unfold Tile.sendRow
    dsimp only
    split <;> rfl
  | warp side s =>
    unfold Tile.sendRow
    dsimp only
    split <;> rfl
  | nowhere =>
    change (t.flagBit Reg.TC_WV_ERR 4).sh = t.sh
    rw [t.flagBit_frame]

/-- A tile that keeps what a shuttle command's work keeps, and every byte outside the rows of `ws`. -/
structure Tile.Moved (ws : List RowRange) (a b : Tile) : Prop where
  view : b.shView = a.shView
  byte : ∀ row i, i < 512 → (∀ w ∈ ws, ¬(w.1 ≤ row ∧ row < w.2)) → b.spByte row i = a.spByte row i

theorem Tile.Moved.of_shFrame (ws : List RowRange) {a b : Tile} (h : b.shFrame = a.shFrame) : Tile.Moved ws a b :=
  ⟨congrArg Prod.fst h, fun row i _ _ => by
    have hmem : b.sp.mem = a.sp.mem := congrArg Prod.snd h
    rw [Tile.spByte, hmem, Tile.spByte]⟩

theorem Tile.Moved.trans {ws : List RowRange} {a b c : Tile} (h : Tile.Moved ws a b) (k : Tile.Moved ws b c) : Tile.Moved ws a c :=
  ⟨k.view.trans h.view, fun row i hi hw => (k.byte row i hi hw).trans (h.byte row i hi hw)⟩

theorem Tile.Moved.foldl {α : Type} {ws : List RowRange} {f : Tile → α → Tile} (l : List α) (t : Tile)
    (hf : ∀ (t : Tile), ∀ x ∈ l, Tile.Moved ws t (f t x)) : Tile.Moved ws t (l.foldl f t) :=
  List.foldlRecOn (motive := fun u : Tile => Tile.Moved ws t u) l f (.of_shFrame ws rfl) fun u hu x hx => hu.trans (hf u x hx)

/-- A row that a command names: in one of the ranges, and not longer than a row; a skipped row is not written. -/
def OutRow.named (ws : List RowRange) (r : OutRow) : Prop :=
  r.skip = true ∨ ((∃ w ∈ ws, w.1 ≤ r.row ∧ r.row < w.2) ∧ r.data.length ≤ 512)

theorem Tile.sendRow_moved {ws : List RowRange} (t : Tile) (me : Site) {sink : Sink} (stamp tag : Nat) {r : OutRow}
    (h : sink = .here → r.named ws) : Tile.Moved ws t (t.sendRow me sink stamp tag r) := by
  by_cases hs : sink = .here
  · refine ⟨t.sendRow_shView me sink stamp tag r, fun row i hi hw => ?_⟩
    rw [hs, Tile.sendRow_here]
    split
    next => rfl
    next hskip =>
      obtain ⟨⟨w, hmem, hlo, hhi⟩, hlen⟩ := (h hs).resolve_left hskip
      have hrow : row ≠ r.row := fun heq => hw w hmem (heq ▸ ⟨hlo, hhi⟩)
      change (t.writeRow me r.row 0 r.data r.poison (shEng t stamp)).spByte row i = _
      by_cases hd : r.data = []
      · rw [hd, Tile.writeRow_empty]
      · rw [Tile.writeRow_spByte t me r.poison _ hd (by omega) row hi, if_neg fun hin => hrow hin.1.1]
  · exact .of_shFrame ws (t.sendRow_shFrame me stamp tag r hs)

theorem Tile.sendRows_moved {ws : List RowRange} (t : Tile) (me : Site) {sink : Sink} (stamp tag : Nat) {rows : List OutRow}
    (h : sink = .here → ∀ r ∈ rows, r.named ws) : Tile.Moved ws t (t.sendRows me sink stamp tag rows) :=
  .foldl rows t fun u _ hr => u.sendRow_moved me stamp tag fun hs => h hs _ hr

/-- A plane whose rows a command names. -/
def OutPlane.named (ws : List RowRange) (p : OutPlane) : Prop := ∃ w ∈ ws, w.1 ≤ p.row ∧ p.row + (p.bytes.length + 511) / 512 ≤ w.2

theorem OutPlane.named.rows {ws : List RowRange} {p : OutPlane} (h : p.named ws) : ∀ r ∈ p.rows, r.named ws := by
  obtain ⟨w, hw, hlo, hhi⟩ := h
  intro r hr
  obtain ⟨k, hk, rfl⟩ := List.mem_map.1 hr
  have hk := List.mem_range.1 hk
  refine .inr ⟨⟨w, hw, ?_, ?_⟩, List.length_take_le _ _⟩
  · dsimp only
    omega
  · dsimp only
    omega

theorem Tile.sendPlanes_moved {ws : List RowRange} (t : Tile) (me : Site) {sink : Sink} (stamp : Nat) {ps : List OutPlane}
    (h : sink = .here → ∀ p ∈ ps, p.named ws) : Tile.Moved ws t (t.sendPlanes me sink stamp ps) := by
  refine Tile.Moved.trans (b := t.newTag.2) (.of_shFrame ws rfl) (.foldl _ _ fun u i hi => u.sendRows_moved me stamp _ fun hs => ?_)
  rw [List.getD_eq_getElem _ _ (List.mem_range.1 hi)]
  exact (h hs _ (List.getElem_mem _)).rows

/-! ## The planes of a command and the rows that it names (R216, R217, R219) -/

/-- What of a command's form its rows rest on (R217, R219, R220). -/
structure ShForm (c : Cmd) : Prop where
  plane : shPlane c = true → (c.op = 1 ∨ c.op = 2) ∧ shSame c = true ∧ fmtMx (shSfmt c) = true
  split : c.op = 6 → shSfmt c = 1 ∧ shDfmt c = 2
  skew : c.op = 3 → shCount c % 32 = 0

theorem ShForm.of_wellFormed {c : Cmd} (h : shMalformed c = false) : ShForm c := by
  simp only [shMalformed, Bool.not_eq_false', Bool.and_eq_true] at h
  obtain ⟨⟨⟨⟨⟨⟨⟨-, hformats⟩, -⟩, -⟩, hfields⟩, hcount⟩, -⟩, -⟩ := h
  refine ⟨fun hplane => ?_, fun hop => ?_, fun hop => ?_⟩
  · simp only [shFieldsOk, hplane, Bool.and_eq_true, Bool.or_eq_true, beq_iff_eq] at hfields
    obtain ⟨⟨⟨⟨⟨-, hpl⟩, -⟩, -⟩, -⟩, -⟩ := hfields
    simp only [Bool.not_true, Bool.false_eq_true, false_or] at hpl
    exact ⟨hpl.1.1, hpl.1.2, hpl.2⟩
  · simp only [shFormatsOk, hop, Bool.and_eq_true, beq_iff_eq] at hformats
    exact hformats.2
  · simp only [shCountOk, hop, Bool.and_eq_true, Bool.or_eq_true, beq_iff_eq] at hcount
    simpa using hcount.2

theorem rows_le_planeEnd (fmt a n : Nat) : a + (n + 511) / 512 ≤ planeEnd fmt a n := by
  unfold planeEnd
  split
  · omega
  · split <;> omega

/-- Bytes in the rows of a format's plane. -/
theorem OutPlane.named.of_fmtRows {ws : List RowRange} {p : OutPlane} {fmt n : Nat} (hw : fmtRows fmt p.row n ∈ ws)
    (hn : p.bytes.length = n) : p.named ws :=
  ⟨_, hw, Nat.le_refl _, hn ▸ rows_le_planeEnd fmt p.row n⟩

theorem OutPlane.named.of_byteRows {ws : List RowRange} {p : OutPlane} {n : Nat} (hw : byteRows p.row n ∈ ws)
    (hn : p.bytes.length = n) : p.named ws :=
  ⟨_, hw, Nat.le_refl _, hn ▸ Nat.le_refl _⟩

theorem sliceBytes_length (bs : List Byte) (o n : Nat) : (sliceBytes bs o n).length = n := by
  simp only [sliceBytes, List.length_append, List.length_take, List.length_replicate]
  omega

theorem shConvert_length (c : Cmd) (x : ByteSrc) : (shConvert c x).length = shBlocks c := by
  simp [shConvert]

/-- The blocks that PUT, SKEW and SPLIT convert: none where the bytes move unchanged. -/
def putBlocks (c : Cmd) (x : Rows) : List CvtBlock := if (c.op = 1 && shSame c) = true then [] else shConvert c (localSrc c x)

/-- The planes that PUT, SKEW and SPLIT write or send. -/
def putPlanes (c : Cmd) (x : Rows) : List OutPlane :=
  if (c.op = 1 && shSame c) = true then [samePlane c x (if shPlane c then shRscl c else shRrow c)]
  else if c.op = 3 then skewPlanes c (putBlocks c x) else blockPlanes c (shRrow c) (shRscl c) (putBlocks c x)

/-- The requests of a PUT to global memory. -/
def putAsks (c : Cmd) (p : OutPlane) : List ReachReq :=
  (reachPieces (shGaddr c) p.bytes.length).map fun g =>
    { user := .cmd c.stamp, goff := g.1, addr := (shGaddr c + g.1) % 2 ^ 60, len := g.2
      data := some ((p.bytes.drop g.1).take g.2)
      poison := (flitSpans (shGaddr c + g.1) g.2).map fun x => p.badIn (g.1 + x.1) (g.1 + x.2) }

theorem Tile.shPut_eq (t : Tile) (e : Env) (c : Cmd) (ph : Phys) :
    let u := (t.shBegin e.me c ph (rangeRows (shReads c))).1
    let x := (t.shBegin e.me c ph (rangeRows (shReads c))).2
    let v := u.cvtFlags c.stamp ((putBlocks c x).foldl (fun a b => a ||| b.flags) 0)
    t.shPut e c ph = if shKind c = 3 then
      (v.onRun .sh c.stamp fun r => { r with left := (putAsks c ((putPlanes c x).headD ⟨0, [], []⟩)).length }).askReach e.me
        (putAsks c ((putPlanes c x).headD ⟨0, [], []⟩))
    else v.sendPlanes e.me (shSink e c) c.stamp (putPlanes c x) := rfl

/-- An unchanged PUT: its element plane, or its scale plane. -/
theorem samePlane_named {c : Cmd} (x : Rows) (hop : c.op = 1) (hsame : shSame c = true) (hk : shKind c = 0) :
    (samePlane c x (if shPlane c then shRscl c else shRrow c)).named (shDest c) := by
  have hlen : ∀ row, (samePlane c x row).bytes.length = sameBytes c := fun row => by simp [samePlane]
  have hnot : ¬shKind c = 3 := by omega
  cases hplane : shPlane c with
  | true =>
    refine .of_byteRows ?_ (hlen _)
    simp [shDest, hop, hnot, hplane, samePlane, sameBytes]
  | false =>
    refine .of_fmtRows (fmt := shDfmt c) ?_ (hlen _)
    simp [shDest, hop, hnot, hplane, hsame, samePlane]

section
variable {c : Cmd} (hf : ShForm c) (x : Rows)
include hf

/-- A converting PUT: one element plane, and the scale plane of an MX format. -/
theorem putBlockPlanes_named (hop : c.op = 1) (hsame : shSame c = false) (hk : shKind c = 0) {bs : List CvtBlock}
    (hbs : bs.length = shBlocks c) : ∀ p ∈ blockPlanes c (shRrow c) (shRscl c) bs, p.named (shDest c) := by
  have hplane : shPlane c = false := by
    by_contra hno
    have hyes := (hf.plane (by simpa using hno)).2.1
    rw [hsame] at hyes
    cases hyes
  intro p hp
  simp only [blockPlanes, hop, show ¬(1 : Nat) = 6 by decide, if_false, List.range_one, List.map_cons, List.map_nil] at hp
  cases hmx : fmtMx (shDfmt c) with
  | true =>
    simp only [hmx, if_true, List.cons_append, List.nil_append, List.mem_cons, List.not_mem_nil, or_false] at hp
    rcases hp with rfl | rfl
    · refine .of_fmtRows (fmt := shDfmt c) ?_ (sliceBytes_length _ _ _)
      simp [shDest, hop, hk, hplane, hsame]
    · refine .of_byteRows (n := shBlocks c) ?_ (by simp [hbs])
      simp [shDest, hop, hk, hplane, hsame, hmx]
  | false =>
    simp only [hmx, Bool.false_eq_true, if_false, List.mem_cons, List.not_mem_nil, or_false] at hp
    subst hp
    refine .of_fmtRows (fmt := shDfmt c) ?_ (sliceBytes_length _ _ _)
    simp [shDest, hop, hk, hplane, hsame]

/-- SPLIT: a plane of BF16 parts for each part. -/
theorem splitPlanes_named (hop : c.op = 6) (bs : List CvtBlock) :
    ∀ p ∈ blockPlanes c (shRrow c) (shRscl c) bs, p.named (shDest c) := by
  have hbytes : packBytes (shDfmt c) (shCount c) = 2 * shCount c := by
    rw [(hf.split hop).2]
    change (shCount c * 16 + 7) / 8 = 2 * shCount c
    omega
  have hmx : fmtMx (shDfmt c) = false := by
    rw [(hf.split hop).2]
    rfl
  intro p hp
  simp only [blockPlanes, hop, hmx, if_true, Bool.false_eq_true, if_false] at hp
  obtain ⟨k, hk, rfl⟩ := List.mem_map.1 hp
  refine .of_byteRows (n := 2 * shCount c) ?_ ((sliceBytes_length _ _ _).trans hbytes)
  simp only [shDest, hop]
  exact List.mem_map_of_mem hk

/-- SKEW: the lines, and the scale plane of an MX format that it converts to. -/
theorem skewPlanes_named (hop : c.op = 3) {bs : List CvtBlock} (hbs : bs.length = shBlocks c) :
    ∀ p ∈ skewPlanes c bs, p.named (shDest c) := by
  have hlines : ((bs.length + 31) * linePitch (shDfmt c) + 511) / 512 ≤ skewRows c := by
    have hblocks : bs.length = shCount c / 32 := by
      rw [hbs, shBlocks]
      have := hf.skew hop
      omega
    rw [hblocks, skewRows, linesPerRow]
    have hpitch : linePitch (shDfmt c) = 64 ∨ linePitch (shDfmt c) = 16 ∨ linePitch (shDfmt c) = 32 := by
      unfold linePitch
      split
      · exact .inl rfl
      · split
        · exact .inr (.inl rfl)
        · exact .inr (.inr rfl)
    rcases hpitch with h | h | h <;> rw [h] <;> omega
  have hlen : ∀ f : Nat → List Byte, (∀ t, (f t).length = linePitch (shDfmt c)) →
      ((List.range (bs.length + 31)).flatMap f).length = (bs.length + 31) * linePitch (shDfmt c) := fun f hlen => by
    rw [List.length_flatMap, List.map_congr_left fun t _ => hlen t]
    simp
  have hlineplane : ∀ (f : Nat → List Byte) (bad : List (Nat × Nat)), (∀ t, (f t).length = linePitch (shDfmt c)) →
      OutPlane.named (shDest c) { row := shRrow c, bytes := (List.range (bs.length + 31)).flatMap f, bad := bad } := fun f bad hline => by
    refine ⟨(shRrow c, shRrow c + skewRows c), by simp [shDest, hop], Nat.le_refl _, ?_⟩
    dsimp only
    rw [hlen f hline]
    omega
  intro p hp
  cases hmx : fmtMx (shDfmt c) && !shSame c with
  | true =>
    simp only [skewPlanes, hmx, if_true, List.mem_cons, List.not_mem_nil, or_false] at hp
    rcases hp with rfl | rfl
    · exact hlineplane _ _ fun t => sliceBytes_length _ _ _
    · refine .of_byteRows (n := shBlocks c) ?_ (by simp [hbs])
      simp [shDest, hop, hmx]
  | false =>
    simp only [skewPlanes, hmx, Bool.false_eq_true, if_false, List.mem_cons, List.not_mem_nil, or_false] at hp
    subst hp
    exact hlineplane _ _ fun t => sliceBytes_length _ _ _

/-- The planes of a PUT, SKEW or SPLIT of local rows lie in the rows that it names. -/
theorem putPlanes_named (hop : c.op = 1 ∨ c.op = 3 ∨ c.op = 6) (hk : shKind c = 0) : ∀ p ∈ putPlanes c x, p.named (shDest c) := by
  have hbs : ¬(c.op = 1 && shSame c) = true → (putBlocks c x).length = shBlocks c := fun h => by
    rw [putBlocks, if_neg h, shConvert_length]
  intro p hp
  rcases hop with hop | hop | hop
  · cases hsame : shSame c with
    | true =>
      rw [putPlanes, if_pos (by simp [hop, hsame]), List.mem_singleton] at hp
      rw [hp]
      exact samePlane_named x hop hsame hk
    | false =>
      rw [putPlanes, if_neg (by simp [hsame]), if_neg (by simp [hop])] at hp
      exact putBlockPlanes_named hf hop hsame hk (hbs (by simp [hsame])) p hp
  · rw [putPlanes, if_neg (by simp [hop]), if_pos hop] at hp
    exact skewPlanes_named hf hop (hbs (by simp [hop])) p hp
  · rw [putPlanes, if_neg (by simp [hop]), if_neg (by simp [hop])] at hp
    exact splitPlanes_named hf hop _ p hp

end

theorem shSink_here {e : Env} {c : Cmd} (h : shSink e c = .here) : shKind c = 0 := by
  unfold shSink at h
  split at h
  · assumption
  · split at h <;> cases h
  · split at h
    · cases h
    · split at h <;> cases h

/-! ## PUT, SKEW and SPLIT; GATHER (R216 to R219) -/

theorem shWrites_of_here {c : Cmd} (h : shKind c = 0) : shWrites c = shDest c := by
  rw [shWrites, if_pos (by simp [h])]

theorem Tile.shPut_moved (t : Tile) (e : Env) {c : Cmd} (ph : Phys) (hf : ShForm c) (hop : c.op = 1 ∨ c.op = 3 ∨ c.op = 6) :
    Tile.Moved (shWrites c) (t.begun c) (t.shPut e c ph) := by
  rw [Tile.shPut_eq]
  have hbegin := t.shBegin_shFrame e.me c ph (rangeRows (shReads c))
  generalize t.shBegin e.me c ph (rangeRows (shReads c)) = ux at hbegin
  obtain ⟨u, x⟩ := ux
  dsimp only at hbegin ⊢
  have hflags := (u.cvtFlags_shFrame c.stamp ((putBlocks c x).foldl (fun a b => a ||| b.flags) 0)).trans hbegin
  generalize u.cvtFlags c.stamp ((putBlocks c x).foldl (fun a b => a ||| b.flags) 0) = v at hflags
  split
  · refine .of_shFrame _ ((Tile.askReach_shFrame _ _ _).trans ((v.onRun_shFrame c.stamp fun r => ?_).trans hflags))
    exact ⟨rfl, rfl⟩
  · refine (Tile.Moved.of_shFrame _ hflags).trans (v.sendPlanes_moved e.me c.stamp fun hs => ?_)
    rw [shWrites_of_here (shSink_here hs)]
    exact putPlanes_named hf x hop (shSink_here hs)

/-- The rows that an item of a GATHER writes, or skips. -/
def gatherRows (c : Cmd) (x : Rows) (items : List (Option Nat)) (k : Nat) : List OutRow :=
  match items.getD k none with
  | some v => (List.range (shIrows c)).map fun j =>
      { row := shRrow c + k * shIrows c + j, rem := 0
        data := (List.range 512).map fun i => BitVec.ofNat 8 (x.byte (shLrow c + v * shIrows c + j) i)
        poison := x.poison (shLrow c + v * shIrows c + j) }
  | none => (List.range (shIrows c)).map fun j =>
      { row := shRrow c + k * shIrows c + j, rem := 0, data := [], poison := false, skip := true }

theorem gatherRows_named {c : Cmd} (x : Rows) (items : List (Option Nat)) (hop : c.op = 4) {k : Nat} (hk : k < shCount c) :
    ∀ r ∈ gatherRows c x items k, r.named (shDest c) := by
  intro r hr
  unfold gatherRows at hr
  split at hr
  · obtain ⟨j, hj, rfl⟩ := List.mem_map.1 hr
    have hitem : (k + 1) * shIrows c ≤ shCount c * shIrows c := Nat.mul_le_mul_right _ hk
    have hj := List.mem_range.1 hj
    rw [Nat.succ_mul] at hitem
    refine .inr ⟨⟨(shRrow c, shRrow c + shCount c * shIrows c), by simp [shDest, hop], ?_, ?_⟩, by simp⟩
    · dsimp only
      omega
    · dsimp only
      omega
  · obtain ⟨j, -, rfl⟩ := List.mem_map.1 hr
    exact .inl rfl

/-- Rows numbered from the last: each is one of them but for that number. -/
theorem named_numbered {ws : List RowRange} {rows : List OutRow} (h : ∀ r ∈ rows, r.named ws) :
    ∀ r ∈ (List.range rows.length).map (fun i => { rows.getD i ⟨0, 0, [], false, false⟩ with rem := rows.length - 1 - i }),
      OutRow.named ws r := by
  intro r hr
  obtain ⟨i, hi, rfl⟩ := List.mem_map.1 hr
  have hi := List.mem_range.1 hi
  have hrow := h _ (List.getElem_mem hi)
  rw [← List.getD_eq_getElem _ ⟨0, 0, [], false, false⟩ hi] at hrow
  exact hrow

theorem Tile.shGather_moved (t : Tile) (e : Env) {c : Cmd} (ph : Phys) (hop : c.op = 4) :
    Tile.Moved (shWrites c) (t.begun c) (t.shGather e c ph) := by
  unfold Tile.shGather
  dsimp only
  have hbegin := t.shBegin_shFrame e.me c ph (upto (shIdxrow c) ((4 * shCount c + 511) / 512))
  generalize t.shBegin e.me c ph (upto (shIdxrow c) ((4 * shCount c + 511) / 512)) = ux at hbegin
  obtain ⟨u, ix⟩ := ux
  dsimp only at hbegin ⊢
  generalize hitems : (List.range (shCount c)).map (gatherIndex c ix) = items
  have hcount : items.length = shCount c := by
    rw [← hitems, List.length_map, List.length_range]
  have hfetch := ((u.readRows_spFrame e.me ((items.filterMap id).flatMap fun v =>
    upto (shLrow c + v * shIrows c) (shIrows c)).eraseDups).shFrame).trans hbegin
  change Tile.shFrame (u.fetch e.me ((items.filterMap id).flatMap fun v => upto (shLrow c + v * shIrows c) (shIrows c))).1 = _ at hfetch
  generalize u.fetch e.me ((items.filterMap id).flatMap fun v => upto (shLrow c + v * shIrows c) (shIrows c)) = vxg at hfetch
  obtain ⟨v, x, gated⟩ := vxg
  dsimp only at hfetch ⊢
  refine (Tile.Moved.of_shFrame _ ?_).trans (Tile.sendRows_moved _ e.me c.stamp _ fun hs => ?_)
  · refine (Tile.newTag_shFrame _).trans ((Tile.onRun_shFrame _ c.stamp fun r => ?_).trans ?_)
    · exact ⟨rfl, rfl⟩
    · split
      · exact (v.err_shFrame 1).trans hfetch
      · exact hfetch
  · rw [shWrites_of_here (shSink_here hs)]
    refine named_numbered fun r hr => ?_
    obtain ⟨k, hk, hr⟩ := List.mem_flatMap.1 hr
    exact gatherRows_named x items hop (hcount ▸ List.mem_range.1 hk) r hr

/-! ## GET and EXPFWD (R216, R219, R406) -/

theorem Tile.flagBit_sh (t : Tile) (off bit : Nat) : (t.flagBit off bit).sh = t.sh := by rw [t.flagBit_frame]

theorem Tile.err_sh (t : Tile) (cls : Nat) : (t.err cls).sh = t.sh := by rw [t.err_frame]

theorem Tile.shBegin_sh (t : Tile) (me : Site) (c : Cmd) (ph : Phys) (rows : List Nat) : (t.shBegin me c ph rows).1.sh = t.sh := by
  have hmark : ∀ (u : Tile) (p q : Bool) (off bit cls : Nat) (r : Run), u.sh = t.sh →
      ((let u := if p then u.flagBit off bit else u; if q then u.err cls else u).begin .sh r).sh = t.sh := fun u p q off bit cls r hu => by
    change (if q then Tile.err _ cls else _).sh = t.sh
    rw [apply_ite Tile.sh, Tile.err_sh, ite_self, apply_ite Tile.sh, Tile.flagBit_sh, ite_self, hu]
  have hread := ((t.physOf (if shBulk c then 7 else 2) ph).readRows_spFrame me rows.eraseDups).1
  refine hmark _ _ _ _ _ _ _ ((congrArg Tile.sh hread).trans ?_)
  exact (t.physOf_upsetTo _ ph).sh

theorem Tile.askReach_gets (t : Tile) (me : Site) (qs : List ReachReq) : (t.askReach me qs).sh.gets = t.sh.gets :=
  foldl_keeps (fun t : Tile => t.sh.gets) (f := fun (t : Tile) q => t.sendReach me q) (fun _ _ => rfl) _ _

/-- The requests of a GET. -/
def getAsks (c : Cmd) : List ReachReq :=
  (reachPieces (shGaddr c) (if shSame c then sameBytes c else elemsBytes (shSfmt c) (shCount c))).map fun g =>
    { user := .cmd c.stamp, goff := g.1, addr := (shGaddr c + g.1) % 2 ^ 60, len := g.2, data := none, poison := [] }

/-- A tile with a GET whose pieces are all still to come. -/
def Tile.getBegun (u : Tile) (c : Cmd) : Tile :=
  { u with sh := { u.sh with gets := u.sh.gets ++ [{ cmd := c, parts := [], left := (getAsks c).length, done := [] }] } }

theorem Tile.shGet_eq (t : Tile) (me : Site) (c : Cmd) (ph : Phys) :
    t.shGet me c ph = (((t.shBegin me c ph []).1.getBegun c).onRun .sh c.stamp fun r => { r with left := (getAsks c).length }).askReach me
      (getAsks c) := rfl

theorem getAsks_length (c : Cmd) : (getAsks c).length =
    (shGaddr c % 512 + (if shSame c then sameBytes c else elemsBytes (shSfmt c) (shCount c)) + 511) / 512 := by
  simp [getAsks, reachPieces]

theorem Tile.shGet_shFrame (t : Tile) (me : Site) (c : Cmd) (ph : Phys) : (t.shGet me c ph).shFrame = (t.begun c).shFrame := by
  rw [Tile.shGet_eq]
  refine (Tile.askReach_shFrame _ me _).trans ((Tile.onRun_shFrame _ c.stamp fun r => ?_).trans ?_)
  · exact ⟨rfl, rfl⟩
  · exact t.shBegin_shFrame me c ph []

theorem Tile.shGet_gets (t : Tile) (me : Site) (c : Cmd) (ph : Phys) :
    (t.shGet me c ph).sh.gets = t.sh.gets ++ [{ cmd := c, parts := [], left := (getAsks c).length, done := [] }] := by
  rw [Tile.shGet_eq, Tile.askReach_gets]
  exact congrArg (fun x : ShSt => x.gets ++ _) (t.shBegin_sh me c ph [])

/-- A tile with an EXPFWD that waits for its rows. -/
def Tile.expBegun (u : Tile) (c : Cmd) : Tile :=
  { u.newTag.2 with sh := { u.newTag.2.sh with exps := u.sh.exps ++
    [{ cmd := c, tag := u.newTag.1, k := 0, row := 0, buf := [], bufBad := false, scales := [], scaleBad := [] }] } }

theorem Tile.shExpfwd_eq (t : Tile) (me : Site) (c : Cmd) (ph : Phys) :
    t.shExpfwd me c ph = ((t.shBegin me c ph []).1.expBegun c).onRun .sh c.stamp fun r => { r with left := shCount c / 32 } := rfl

theorem Tile.shExpfwd_shFrame (t : Tile) (me : Site) (c : Cmd) (ph : Phys) : (t.shExpfwd me c ph).shFrame = (t.begun c).shFrame := by
  rw [Tile.shExpfwd_eq]
  refine (Tile.onRun_shFrame _ c.stamp fun r => ?_).trans ?_
  · exact ⟨rfl, rfl⟩
  · exact t.shBegin_shFrame me c ph []

theorem Tile.shExpfwd_exps (t : Tile) (me : Site) (c : Cmd) (ph : Phys) :
    (t.shExpfwd me c ph).sh.exps.length = t.sh.exps.length + 1 := by
  have hsh : (t.shExpfwd me c ph).sh.exps.length = (t.shBegin me c ph []).1.sh.exps.length + 1 := by
    rw [Tile.shExpfwd_eq]
    exact List.length_append
  rw [hsh, Tile.shBegin_sh]

/-- The EXPFWD that has started counts its blocks. -/
theorem Tile.shExpfwd_left (t : Tile) (me : Site) (c : Cmd) (ph : Phys) :
    ∃ r, ((t.shExpfwd me c ph).unit .sh).running.getLast? = some r ∧ r.left = shCount c / 32 := by
  obtain ⟨⟨-, r, hr, hc, -, -⟩, -⟩ := Tile.started_of_shView (congrArg Prod.fst (t.shBegin_shFrame me c ph []))
  have hrun : ((t.shExpfwd me c ph).unit .sh).running = ((t.shBegin me c ph []).1.unit .sh).running.map fun r =>
      if r.cmd.stamp = c.stamp then { r with left := shCount c / 32 } else r := by
    rw [Tile.shExpfwd_eq, Tile.onRun, Tile.unit_onUnit_same]
    rfl
  refine ⟨{ r with left := shCount c / 32 }, ?_, rfl⟩
  rw [hrun, List.getLast?_map, hr, Option.map_some, if_pos (by rw [hc])]

/-- What the statement says of every shuttle command that has started. -/
theorem Tile.Moved.started {a b : Tile} {c : Cmd} (h : Tile.Moved (shWrites c) (a.begun c) b) :
    a.started b .sh c ∧ b.la.elems = a.la.elems ∧ b.mu = a.mu ∧ b.trf = a.trf ∧ b.core = a.core ∧ b.groups = a.groups ∧
      (∀ v, v ≠ .sh → (b.unit v).queue = (a.unit v).queue) ∧
      ∀ row i, i < 512 → (∀ w ∈ shWrites c, ¬(w.1 ≤ row ∧ row < w.2)) → b.spByte row i = a.spByte row i := by
  obtain ⟨hstart, helems, hmu, htrf, hcore, hgroups, hqueue⟩ := Tile.started_of_shView h.view
  exact ⟨hstart, helems, hmu, htrf, hcore, hgroups, hqueue, h.byte⟩

end Sys2Proof.Machine


/-! # A local PUT of FP32 elements, and the rows of an EXPFWD (O25) -/

namespace Sys2Proof.Machine

/-! ## Reads and writes of a scratchpad in full service -/

/-- Every bank is in service, no write waits, and no word is stored with an error. -/
structure Tile.Clear (t : Tile) : Prop where
  held : t.sp.held = []
  bad : t.sp.bad = []
  serves : ∀ r, t.inService r = true

namespace Tile.Clear

variable {t : Tile} (h : t.Clear)
include h

theorem readRow (me : Site) (row : Nat) : (t.readRow me row).tile = t ∧
    (t.readRow me row).bytes = Memory.readBytes t.sp.mem (512 * row) 512 ∧ (t.readRow me row).gated = false := by
  have hserve := h.serves row
  have hgood : t.badIn row = [] := by
    rw [Tile.badIn, h.bad]
    rfl
  simp only [Tile.inService, Bool.and_eq_true, Bool.not_eq_true'] at hserve
  unfold Tile.readRow
  rw [if_neg (by simp [hserve])]
  refine ⟨Tile.checkRow_of_good me row h.bad, ?_, rfl⟩
  dsimp only
  unfold Tile.rowBytes
  rw [hgood]
  rfl

theorem readRows (me : Site) (rows : List Nat) : (t.readRows me rows).tile = t ∧
    (t.readRows me rows).bytes = rows.flatMap (fun r => Memory.readBytes t.sp.mem (512 * r) 512) ∧ (t.readRows me rows).gated = false := by
  have hfold : ∀ (l : List Nat) (a : RowsRead), a.tile = t →
      let b := l.foldl (fun a r =>
        let b := a.tile.readRow me r
        { tile := b.tile, bytes := a.bytes ++ b.bytes, poisoned := a.poisoned ++ b.poisoned, gated := a.gated || b.gated }) a
      b.tile = t ∧ b.bytes = a.bytes ++ l.flatMap (fun r => Memory.readBytes t.sp.mem (512 * r) 512) ∧ b.gated = a.gated := by
    intro l
    induction l with
    | nil => exact fun a ha => ⟨ha, (List.append_nil _).symm, rfl⟩
    | cons r rs ih =>
      intro a ha
      obtain ⟨htile, hbytes, hgated⟩ := h.readRow me r
      obtain ⟨ht, hb, hg⟩ := ih { tile := (a.tile.readRow me r).tile, bytes := a.bytes ++ (a.tile.readRow me r).bytes
                                  poisoned := a.poisoned ++ (a.tile.readRow me r).poisoned
                                  gated := a.gated || (a.tile.readRow me r).gated } (by rw [ha]; exact htile)
      refine ⟨ht, hb.trans ?_, hg.trans ?_⟩
      · rw [ha, hbytes, List.append_assoc, List.flatMap_cons]
      · rw [ha, hgated, Bool.or_false]
  exact hfold rows { tile := t, bytes := [], poisoned := [], gated := false } rfl

/-- A row stored changes the bytes, and the tile stays in full service. -/
theorem storeRow (me : Site) (row off : Nat) (data : List Byte) (poison : Bool) : (t.storeRow me row off data poison).Clear := by
  have hgood : t.badIn row = [] := by
    rw [Tile.badIn, h.bad]
    rfl
  have hregs : (t.storeRow me row off data poison).regs = t.regs := by
    unfold Tile.storeRow
    rw [hgood]
    dsimp only
    split
    · rfl
    · split <;> rfl
  have hbad : (t.storeRow me row off data poison).sp.bad = [] := by
    unfold Tile.storeRow
    rw [hgood]
    dsimp only
    split
    · simp [Tile.setPoison, Tile.onSp, h.bad]
    · split <;> simp [Tile.setPoison, Tile.onSp, h.bad]
  refine ⟨(t.storeRow_held me row off data poison).trans h.held, hbad, fun r => ?_⟩
  have hreg : ∀ o, (t.storeRow me row off data poison).reg o = t.reg o := fun o => by rw [Tile.reg, hregs, Tile.reg]
  unfold Tile.inService Tile.gated Tile.waking'
  rw [hreg]
  exact h.serves r

theorem holdsEng (eng : Nat) : t.holdsEng eng = false := by
  rw [Tile.holdsEng, h.held]
  rfl

/-- A row written to the tile's own scratchpad, byte by byte. -/
theorem writeHere (me : Site) (stamp : Nat) (r : OutRow) : (t.writeHere me stamp r).Clear ∧
    ∀ a, Memory.read (t.writeHere me stamp r).sp.mem a =
      if 512 * r.row ≤ a ∧ a < 512 * r.row + r.data.length then r.data.getD (a - 512 * r.row) 0 else Memory.read t.sp.mem a := by
  have hwrite : (t.writeRow me r.row 0 r.data r.poison (shEng t stamp)).Clear ∧
      ∀ a, Memory.read (t.writeRow me r.row 0 r.data r.poison (shEng t stamp)).sp.mem a =
        if 512 * r.row ≤ a ∧ a < 512 * r.row + r.data.length then r.data.getD (a - 512 * r.row) 0 else Memory.read t.sp.mem a := by
    by_cases hd : r.data = []
    · rw [hd, Tile.writeRow_empty]
      exact ⟨h, fun a => by rw [if_neg (by rw [List.length_nil]; omega)]⟩
    · rw [Tile.writeRow_served me r.poison hd (h.serves r.row) (h.holdsEng _)]
      refine ⟨h.storeRow me r.row 0 r.data r.poison, fun a => ?_⟩
      rw [Tile.storeRow_mem, Memory.read_writeBytes, Nat.add_zero]
  obtain ⟨⟨hheld, hbad, hserves⟩, hread⟩ := hwrite
  exact ⟨⟨hheld, hbad, hserves⟩, hread⟩

end Tile.Clear

/-- A row of a plane. -/
def OutPlane.rowAt (p : OutPlane) (k : Nat) : OutRow :=
  { row := p.row + k, rem := (p.bytes.length + 511) / 512 - 1 - k, data := (p.bytes.drop (512 * k)).take 512
    poison := p.badIn (512 * k) (min (512 * k + 512) p.bytes.length) }

theorem OutPlane.rows_eq (p : OutPlane) : p.rows = (List.range ((p.bytes.length + 511) / 512)).map p.rowAt := rfl

/-- The first rows of a plane, written to the tile's own scratchpad. -/
theorem Tile.Clear.writeRows {t : Tile} (h : t.Clear) (me : Site) (stamp : Nat) (p : OutPlane) (k : Nat) :
    let b := (List.range k).foldl (fun t j => t.writeHere me stamp (p.rowAt j)) t
    b.Clear ∧ ∀ a, Memory.read b.sp.mem a =
      if 512 * p.row ≤ a ∧ a < 512 * p.row + min (512 * k) p.bytes.length then p.bytes.getD (a - 512 * p.row) 0
      else Memory.read t.sp.mem a := by
  induction k with
  | zero => exact ⟨h, fun a => by rw [if_neg (by omega)]; rfl⟩
  | succ k ih =>
    obtain ⟨hclear, hread⟩ := ih
    rw [List.range_succ, List.foldl_append]
    generalize (List.range k).foldl (fun t j => t.writeHere me stamp (p.rowAt j)) t = b at hclear hread
    obtain ⟨hclear', hread'⟩ := hclear.writeHere me stamp (p.rowAt k)
    refine ⟨hclear', fun a => (hread' a).trans ?_⟩
    have hlen : (p.rowAt k).data.length = min 512 (p.bytes.length - 512 * k) := by
      simp [OutPlane.rowAt]
    have hrow : (p.rowAt k).row = p.row + k := rfl
    rw [hlen, hrow, hread]
    by_cases hin : 512 * (p.row + k) ≤ a ∧ a < 512 * (p.row + k) + min 512 (p.bytes.length - 512 * k)
    · rw [if_pos hin, if_pos (by omega)]
      change ((p.bytes.drop (512 * k)).take 512).getD _ 0 = _
      rw [List.getD_eq_getElem?_getD, List.getElem?_take, if_pos (by omega), List.getElem?_drop, ← List.getD_eq_getElem?_getD]
      congr 1
      omega
    · rw [if_neg hin]
      by_cases hbefore : 512 * p.row ≤ a ∧ a < 512 * p.row + min (512 * k) p.bytes.length
      · rw [if_pos hbefore, if_pos (by omega)]
      · rw [if_neg hbefore, if_neg (by omega)]

/-- A plane written to the tile's own scratchpad. -/
theorem Tile.Clear.sendPlane {t : Tile} (h : t.Clear) (me : Site) (stamp : Nat) (p : OutPlane) (a : Nat) :
    Memory.read (t.sendPlanes me .here stamp [p]).sp.mem a =
      if 512 * p.row ≤ a ∧ a < 512 * p.row + p.bytes.length then p.bytes.getD (a - 512 * p.row) 0 else Memory.read t.sp.mem a := by
  have hnew : t.newTag.2.Clear := ⟨h.held, h.bad, h.serves⟩
  have hsend : t.sendPlanes me .here stamp [p] =
      (List.range ((p.bytes.length + 511) / 512)).foldl (fun t j => t.writeHere me stamp (p.rowAt j)) t.newTag.2 := by
    unfold Tile.sendPlanes
    rw [List.length_singleton, List.range_one]
    change Tile.sendRows t.newTag.2 me .here stamp (t.newTag.1 + 0) p.rows = _
    rw [Tile.sendRows, OutPlane.rows_eq, List.foldl_map]
    rfl
  rw [hsend, (hnew.writeRows me stamp p _).2 a, show min (512 * ((p.bytes.length + 511) / 512)) p.bytes.length = p.bytes.length by omega]
  rfl

/-! ## The bytes that a command has read -/

/-- A row found among rows laid out one after the other. -/
theorem getElem?_flatMap_idxOf (f : Nat → List Byte) (hf : ∀ r, (f r).length = 512) {l : List Nat} {r i : Nat} (hr : r ∈ l) (hi : i < 512) :
    (l.flatMap f)[512 * l.idxOf r + i]? = (f r)[i]? := by
  induction l with
  | nil => cases hr
  | cons x xs ih =>
    rw [List.flatMap_cons]
    by_cases hx : x = r
    · subst hx
      rw [List.idxOf_cons_self, List.getElem?_append_left (by rw [hf]; omega), Nat.mul_zero, Nat.zero_add]
    · have hin : r ∈ xs := (List.mem_cons.1 hr).resolve_left fun h => hx h.symm
      have hnext : 512 * (xs.idxOf r).succ + i - 512 = 512 * xs.idxOf r + i := by omega
      rw [List.idxOf_cons_ne _ hx, List.getElem?_append_right (by rw [hf]; omega), hf, hnext, ih hin]

/-- What a fetch of rows in full service gives: the bytes that stand there, and the tile as it was. -/
theorem Tile.Clear.fetch {t : Tile} (h : t.Clear) (me : Site) (rows : List Nat) :
    (t.fetch me rows).1 = t ∧ (t.fetch me rows).2.2 = false ∧
      ∀ r ∈ rows, ∀ i < 512, (t.fetch me rows).2.1.byte r i = (Memory.read t.sp.mem (512 * r + i)).toNat := by
  obtain ⟨htile, hbytes, hgated⟩ := h.readRows me rows.eraseDups
  refine ⟨htile, hgated, fun r hr i hi => ?_⟩
  change (((t.readRows me rows.eraseDups).bytes.map (·.toNat)).toArray).getD (512 * rows.eraseDups.idxOf r + i) 0 = _
  rw [hbytes, Array.getD_eq_getD_getElem?, List.getElem?_toArray, List.getElem?_map, getElem?_flatMap_idxOf _ (fun r => by
    simp [Memory.readBytes]) (List.mem_eraseDups.2 hr) hi]
  simp [Memory.readBytes, hi]

/-! ## A local PUT of FP32 elements (R216, R217, R221) -/

/-- The plane that an unchanged move of FP32 elements carries: its bytes are those at LROW on. -/
structure FpPlane (t : Tile) (c : Cmd) (p : OutPlane) : Prop where
  row : p.row = shRrow c
  length : p.bytes.length = 4 * shCount c
  byte : ∀ i < 4 * shCount c, p.bytes.getD i 0 = Memory.read t.sp.mem (512 * shLrow c + i)

/-- A command that starts with no physical event at a tile in full service reads its rows and changes nothing else of the tile. -/
theorem Tile.Clear.shBegin {t : Tile} (h : t.Clear) (me : Site) (c : Cmd) (rows : List Nat) :
    (∃ r : Run, (t.shBegin me c { : Phys } rows).1 = t.begin .sh r) ∧ (t.shBegin me c { : Phys } rows).2 = (t.fetch me rows).2.1 := by
  obtain ⟨htile, hgated, -⟩ := h.fetch me rows
  unfold Tile.shBegin
  rw [Tile.physOf_none]
  dsimp only
  rw [htile, hgated, if_neg Bool.false_ne_true, List.any_nil, Bool.and_false, if_neg Bool.false_ne_true]
  exact ⟨⟨_, rfl⟩, rfl⟩

section
variable {c : Cmd} (hf : ShForm c) (hop : c.op = 1) (hs : shSfmt c = 1) (hd : shDfmt c = 1)
include hf hs

theorem shPlane_of_fp32 : shPlane c = false := by
  by_contra hno
  have hmx := (hf.plane (by simpa using hno)).2.2
  rw [hs] at hmx
  exact absurd hmx (by decide)

include hop hd

/-- The rows that a PUT of FP32 elements reads. -/
theorem mem_shReads_fp32 {i : Nat} (hi : i < 4 * shCount c) : shLrow c + i / 512 ∈ rangeRows (shReads c) := by
  have hsame : shSame c = true := by rw [shSame, hs, hd]; rfl
  have hmx : fmtMx (shSfmt c) = false := by rw [hs]; rfl
  have hbytes : elemsBytes (shSfmt c) (shCount c) = 4 * shCount c := by
    rw [hs]
    change (shCount c * 32 + 7) / 8 = 4 * shCount c
    omega
  have hreads : shReads c = [fmtRows (shSfmt c) (shLrow c) (4 * shCount c)] := by
    simp [shReads, hop, shPlane_of_fp32 hf hs, hmx, hbytes]
  have hend := rows_le_planeEnd (shSfmt c) (shLrow c) (4 * shCount c)
  rw [hreads]
  refine List.mem_flatMap.2 ⟨_, List.mem_singleton_self _, mem_upto.2 ?_⟩
  dsimp only [fmtRows]
  omega

/-- What a PUT of FP32 elements to FP32 has read is what it writes. -/
theorem putPlanes_fp32 {t : Tile} (h : t.Clear) (me : Site) :
    ∃ p, putPlanes c (t.fetch me (rangeRows (shReads c))).2.1 = [p] ∧ FpPlane t c p := by
  have hsame : shSame c = true := by rw [shSame, hs, hd]; rfl
  have hplane := shPlane_of_fp32 hf hs
  have hbytes : sameBytes c = 4 * shCount c := by
    rw [sameBytes, hplane, if_neg Bool.false_ne_true, hs]
    change (shCount c * 32 + 7) / 8 = 4 * shCount c
    omega
  obtain ⟨-, -, hread⟩ := h.fetch me (rangeRows (shReads c))
  generalize (t.fetch me (rangeRows (shReads c))).2.1 = x at hread
  refine ⟨_, by rw [putPlanes, if_pos (by simp [hop, hsame])], ?_, ?_, fun i hi => ?_⟩
  · rw [hplane]
    rfl
  · simp [samePlane, hbytes]
  · have hsrc := hread _ (mem_shReads_fp32 hf hop hs hd hi) (i % 512) (Nat.mod_lt _ (by decide))
    rw [show 512 * (shLrow c + i / 512) + i % 512 = 512 * shLrow c + i by omega] at hsrc
    simp [samePlane, hbytes, hi, hplane, Rows.plane, hsrc]

/-- The tile after the PUT, byte by byte. -/
theorem Tile.Clear.shPut_fp32 {t : Tile} (h : t.Clear) (e : Env) (hk : shKind c = 0) (a : Nat) :
    Memory.read (t.shPut e c { : Phys }).sp.mem a =
      if 512 * shRrow c ≤ a ∧ a < 512 * shRrow c + 4 * shCount c then Memory.read t.sp.mem (512 * shLrow c + (a - 512 * shRrow c))
      else Memory.read t.sp.mem a := by
  obtain ⟨⟨r, hbegin⟩, hrows⟩ := h.shBegin e.me c (rangeRows (shReads c))
  obtain ⟨p, hplanes, hrow, hlen, hbyte⟩ := putPlanes_fp32 hf hop hs hd h e.me
  have hsame : shSame c = true := by rw [shSame, hs, hd]; rfl
  have hblocks : ∀ x, putBlocks c x = [] := fun x => by rw [putBlocks, if_pos (by simp [hop, hsame])]
  have hsink : shSink e c = .here := by
    unfold shSink
    rw [hk]
    rfl
  have hput : t.shPut e c { : Phys } = (t.begin .sh r).sendPlanes e.me .here c.stamp [p] := by
    rw [Tile.shPut_eq, if_neg (by omega), hbegin, hrows, hplanes, hblocks, hsink]
    rfl
  have hclear : (t.begin .sh r).Clear := ⟨h.held, h.bad, h.serves⟩
  rw [hput, hclear.sendPlane e.me c.stamp p a, hrow, hlen]
  split
  next hin => exact hbyte _ (by omega)
  next => rfl

end

/-! ## Exported rows (R131, R219) -/

theorem Tile.expFlush_shView (t : Tile) (e : Env) (x : ExpSt) (last carry : Bool) (fuel : Nat) :
    (t.expFlush e x last carry fuel).2.shView = t.shView := by
  induction fuel generalizing t x with
  | zero => rfl
  | succ fuel ih =>
    unfold Tile.expFlush
    split
    · exact (ih _ _).trans (t.sendRow_shView e.me _ _ _ _)
    · rfl

theorem Tile.expFlush_counts (t : Tile) (e : Env) (x : ExpSt) (last carry : Bool) (fuel : Nat) :
    (t.expFlush e x last carry fuel).1.k = x.k ∧ (t.expFlush e x last carry fuel).1.cmd = x.cmd := by
  induction fuel generalizing t x with
  | zero => exact ⟨rfl, rfl⟩
  | succ fuel ih =>
    unfold Tile.expFlush
    split
    · exact ih _ _
    · exact ⟨rfl, rfl⟩

theorem Tile.sendAll_shView (t : Tile) (e : Env) (c : Cmd) (tag : Nat) (rows : List OutRow) :
    (rows.foldl (fun t r => t.sendRow e.me (shSink e c) c.stamp tag r) t).shView = t.shView :=
  foldl_keeps Tile.shView (fun t r => t.sendRow_shView e.me _ _ _ r) rows t

theorem Tile.sendAll_sh (t : Tile) (e : Env) (c : Cmd) (tag : Nat) (rows : List OutRow) :
    (rows.foldl (fun t r => t.sendRow e.me (shSink e c) c.stamp tag r) t).sh = t.sh :=
  foldl_keeps Tile.sh (fun t r => t.sendRow_sh e.me _ _ _ r) rows t

/-- A tile whose oldest exported row has been taken. -/
def Tile.exported (t : Tile) (rs : List ExpRow) : Tile := { t with la := { t.la with exports := rs }.enter [] }

/-- What an exported row leaves: the other rows in order, the elements, and the commands in progress. -/
theorem Tile.exported_of_shView {a b : Tile} {rs : List ExpRow} (h : b.shView = (a.exported rs).shView) :
    b.la.exports ++ b.la.late = rs ++ a.la.late ∧ b.la.elems = a.la.elems ∧ b.mu = a.mu ∧ b.trf = a.trf ∧
      (b.unit .sh).running.length = (a.unit .sh).running.length ∧ (b.unit .sh).queue = (a.unit .sh).queue := by
  unfold Tile.shView at h
  simp only [Prod.mk.injEq] at h
  obtain ⟨⟨helems, hexports, hlate⟩, hmu, htrf, -, -, hqueue, hrun⟩ := h
  refine ⟨?_, helems, hmu, htrf, ?_, congrFun hqueue .sh⟩
  · rw [hexports, hlate]
    exact (LaSt.enter_rows _ _).trans (List.append_nil _)
  · have hlen := congrArg List.length hrun
    rw [List.length_map, List.length_map] at hlen
    exact hlen

theorem Tile.exported_shView {a u : Tile} (h : u.shView = a.shView) (rs : List ExpRow) :
    (u.exported rs).shView = (a.exported rs).shView := by
  unfold Tile.shView at h
  simp only [Prod.mk.injEq] at h
  obtain ⟨⟨helems, -, hlate⟩, hmu, htrf, hcore, hgroups, hqueue, hrunning⟩ := h
  have hexports : (u.exported rs).la.exports = (a.exported rs).la.exports ∧ (u.exported rs).la.late = (a.exported rs).la.late := by
    simp [Tile.exported, LaSt.enter, hlate]
  unfold Tile.shView
  simp only [Prod.mk.injEq]
  exact ⟨⟨helems, hexports.1, hexports.2⟩, hmu, htrf, hcore, hgroups, hqueue, hrunning⟩

/-- A tile at which a conflict of an EXPFWD's row has been marked. -/
def Tile.expMarked (t : Tile) (c : Cmd) (ph : Phys) : Tile :=
  if (shBulk c && ph.conf.any fun k => (fixConflict k).any fun k => confHas k 7) = true then
    ((t.physOf (if shBulk c then 7 else 2) ph).flagBit Reg.SH_ERR 1).onRun .sh c.stamp fun q => { q with conflict := true }
  else t.physOf (if shBulk c then 7 else 2) ph

/-- A tile at which the oldest EXPFWD has taken and counted the oldest exported row. -/
def Tile.expTaken (t : Tile) (c : Cmd) (ph : Phys) (r : ExpRow) (rs : List ExpRow) : Tile :=
  (((t.expMarked c ph).exported rs).cvtFlags c.stamp (expBlock c r).flags).onRun .sh c.stamp fun q =>
    { q with left := q.left - 1, dataerr := q.dataerr || (expBlock c r).bad }

theorem Tile.expTaken_shView (t : Tile) (c : Cmd) (ph : Phys) (r : ExpRow) (rs : List ExpRow) :
    (t.expTaken c ph r rs).shView = (t.exported rs).shView := by
  have hphys := (t.physOf_upsetTo (if shBulk c then 7 else 2) ph).shFrame
  have hmarked : (t.expMarked c ph).shFrame = t.shFrame := by
    unfold Tile.expMarked
    split
    · refine (Tile.onRun_shFrame _ c.stamp fun q => ?_).trans ((Tile.flagBit_shFrame _ _ _).trans hphys)
      exact ⟨rfl, rfl⟩
    · exact hphys
  have hcounted : (t.expTaken c ph r rs).shFrame = ((t.expMarked c ph).exported rs).shFrame := by
    refine (Tile.onRun_shFrame _ c.stamp fun q => ?_).trans (Tile.cvtFlags_shFrame _ _ _)
    exact ⟨rfl, rfl⟩
  exact (congrArg Prod.fst hcounted).trans (Tile.exported_shView (congrArg Prod.fst hmarked) rs)

/-- An EXPFWD with an exported row added to what it has gathered. -/
def ExpSt.gathered (x : ExpSt) (r : ExpRow) : ExpSt :=
  { x with
    k := x.k + 1, buf := x.buf ++ packElems (shDfmt x.cmd) ((expBlock x.cmd r).codes.getD 0 [])
    bufBad := x.bufBad || (expBlock x.cmd r).bad, scales := x.scales ++ [BitVec.ofNat 8 (expBlock x.cmd r).scale]
    scaleBad := if (expBlock x.cmd r).bad then x.scaleBad ++ [x.k + 1 - 1] else x.scaleBad }

/-- What an EXPFWD has gathered with its `k` blocks, filled up to whole rows. -/
def ExpSt.filled (x : ExpSt) (c : Cmd) (k : Nat) : ExpSt :=
  { x with buf := x.buf ++ List.replicate (packBytes (shDfmt c) (shCount c) - blockBytes (shDfmt c) * k) 0 }

/-- The scale plane of an EXPFWD to an MX format. -/
def ExpSt.scalePlane (x : ExpSt) (c : Cmd) : OutPlane :=
  { row := shRscl c, bytes := x.scales, bad := x.scaleBad.map fun i => (i, i + 1) }

/-- A tile at which the EXPFWDs in progress are `l`. -/
def Tile.withExps (t : Tile) (l : List ExpSt) : Tile := { t with sh := { t.sh with exps := l } }

/-- The end of an EXPFWD: what is left of its rows, and its scales. -/
def Tile.expLast (t : Tile) (e : Env) (c : Cmd) (x : ExpSt) (xs : List ExpSt) : Tile :=
  if fmtMx (shDfmt c) = true then
    (x.scalePlane c).rows.foldl (fun t r => t.sendRow e.me (shSink e c) c.stamp (x.tag + 1) r) ((t.expFlush e x true false 4).2.withExps xs)
  else (t.expFlush e x true false 4).2.withExps xs

theorem Tile.expRow_eq {t : Tile} (e : Env) (ph : Phys) {r : ExpRow} {rs : List ExpRow} {x : ExpSt} {xs : List ExpSt}
    (hr : t.la.exports = r :: rs) (hx : t.sh.exps = x :: xs) :
    t.expRow e ph =
      let u := (t.expTaken x.cmd ph r rs).expFlush e (x.gathered r) false (expBlock x.cmd r).bad 2
      if x.k + 1 = shCount x.cmd / 32 then u.2.expLast e x.cmd (u.1.filled x.cmd (x.k + 1)) xs else u.2.withExps (u.1 :: xs) := by
  unfold Tile.expRow
  rw [hr, hx]
  rfl

/-- The end of an EXPFWD keeps what its work keeps, and it no longer waits for rows. -/
theorem Tile.expLast_ends (t : Tile) (e : Env) (c : Cmd) (x : ExpSt) (xs : List ExpSt) :
    (t.expLast e c x xs).shView = t.shView ∧ (t.expLast e c x xs).sh.exps = xs := by
  have hflush := t.expFlush_shView e x true false 4
  unfold Tile.expLast
  split
  · refine ⟨(Tile.sendAll_shView _ e c _ _).trans hflush, ?_⟩
    rw [Tile.sendAll_sh]
    rfl
  · exact ⟨hflush, rfl⟩

/-- The oldest EXPFWD takes the oldest exported row. -/
theorem Tile.expRow_takes {t : Tile} (e : Env) (ph : Phys) {r : ExpRow} {rs : List ExpRow} {x : ExpSt} {xs : List ExpSt}
    (hr : t.la.exports = r :: rs) (hx : t.sh.exps = x :: xs) :
    (t.expRow e ph).shView = (t.exported rs).shView ∧
      if x.k + 1 = shCount x.cmd / 32 then (t.expRow e ph).sh.exps = xs
      else ∃ y, (t.expRow e ph).sh.exps = y :: xs ∧ y.k = x.k + 1 ∧ y.cmd = x.cmd := by
  have hview := ((t.expTaken x.cmd ph r rs).expFlush_shView e (x.gathered r) false (expBlock x.cmd r).bad 2).trans
    (t.expTaken_shView x.cmd ph r rs)
  obtain ⟨hk, hcmd⟩ := (t.expTaken x.cmd ph r rs).expFlush_counts e (x.gathered r) false (expBlock x.cmd r).bad 2
  rw [Tile.expRow_eq e ph hr hx]
  dsimp only
  generalize (t.expTaken x.cmd ph r rs).expFlush e (x.gathered r) false (expBlock x.cmd r).bad 2 = u at hview hk hcmd ⊢
  split
  next =>
    obtain ⟨hlast, hexps⟩ := u.2.expLast_ends e x.cmd (u.1.filled x.cmd (x.k + 1)) xs
    exact ⟨hlast.trans hview, hexps⟩
  next => exact ⟨hview, _, rfl, hk, hcmd⟩

/-! ## The commands -/

/-- A well-formed shuttle command that may start. -/
theorem completes_shuttle {i : Instr} {s : State} {n : Site} {op : Nat} {run : State → Tile → Cmd → Tile} {c : Cmd} {p : State → Prop}
    (he : exec i s = live s fun s => s.onUnits n fun t => t.startOp .sh op shMalformed t.shReady (run s t)) (h : s.inReset = false)
    (hp : s.powered n = true) (hs : (s.tile n).starts .sh op shMalformed c) (hr : (s.tile n).shReady c = true)
    (hq : ∀ t : State, s.onlyTile t n → t.tile n = run s (s.tile n) c → p t) : Completes i s p :=
  completes_startOp (ready := fun _ t c => t.shReady c) he h hp hs hr hq

theorem ShForm.of_starts {t : Tile} {op : Nat} {c : Cmd} (h : t.starts .sh op shMalformed c) : ShForm c ∧ c.op = op := by
  obtain ⟨-, hop, -, hbad, -⟩ := h
  exact ⟨.of_wellFormed hbad, hop⟩

/-- Settles O25: `shPut_moved` and `shGather_moved` for the commands that write rows, `shGet_shFrame` and `shExpfwd_shFrame` for those
that wait, `shPut_fp32` for the bytes of a local PUT, and `expRow_takes` for an exported row. -/
theorem shuttleCommandsMoveTheirRows : Obligations.ShuttleCommandsMoveTheirRows := by
  unfold Obligations.ShuttleCommandsMoveTheirRows
  refine ⟨fun s n ph c h hp hr => ⟨fun hs => ?_, fun hs => ?_, fun hs => ?_, fun hs => ?_, fun hs => ?_, fun hs => ?_⟩,
    fun s n c h hp hs hr hsf hdf hk hserve hheld hgood => ?_, fun s n ph r rs x xs h hp hexports hexps => ?_⟩
  · obtain ⟨hf, hop⟩ := ShForm.of_starts hs
    refine completes_shuttle (run := fun s t c => t.shPut (s.env n) c ph) rfl h hp hs hr fun t ht htile => ⟨ht, ?_⟩
    rw [htile]
    exact ((s.tile n).shPut_moved (s.env n) ph hf (.inl hop)).started
  · refine completes_shuttle (run := fun _ t c => t.shGet n c ph) rfl h hp hs hr fun t ht htile => ?_
    have hframe := (s.tile n).shGet_shFrame n c ph
    have hmem : ((s.tile n).shGet n c ph).sp.mem = (s.tile n).sp.mem := congrArg Prod.snd hframe
    have hgets := (s.tile n).shGet_gets n c ph
    dsimp only
    rw [htile]
    refine ⟨⟨ht, (Tile.Moved.of_shFrame _ hframe).started⟩, hmem, ?_, ?_⟩
    · rw [hgets, List.length_append, List.length_singleton]
    · rw [hgets, ← getAsks_length]
      exact ⟨_, List.mem_append_right _ (List.mem_singleton_self _), rfl, rfl, rfl⟩
  · obtain ⟨hf, hop⟩ := ShForm.of_starts hs
    refine completes_shuttle (run := fun s t c => t.shPut (s.env n) c ph) rfl h hp hs hr fun t ht htile => ⟨ht, ?_⟩
    rw [htile]
    exact ((s.tile n).shPut_moved (s.env n) ph hf (.inr (.inl hop))).started
  · refine completes_shuttle (run := fun s t c => t.shGather (s.env n) c ph) rfl h hp hs hr fun t ht htile => ⟨ht, ?_⟩
    rw [htile]
    exact ((s.tile n).shGather_moved (s.env n) ph (ShForm.of_starts hs).2).started
  · refine completes_shuttle (run := fun _ t c => t.shExpfwd n c ph) rfl h hp hs hr fun t ht htile => ?_
    have hframe := (s.tile n).shExpfwd_shFrame n c ph
    have hmem : ((s.tile n).shExpfwd n c ph).sp.mem = (s.tile n).sp.mem := congrArg Prod.snd hframe
    dsimp only
    rw [htile]
    exact ⟨⟨ht, (Tile.Moved.of_shFrame _ hframe).started⟩, hmem, (s.tile n).shExpfwd_exps n c ph, (s.tile n).shExpfwd_left n c ph⟩
  · obtain ⟨hf, hop⟩ := ShForm.of_starts hs
    refine completes_shuttle (run := fun s t c => t.shPut (s.env n) c ph) rfl h hp hs hr fun t ht htile => ⟨ht, ?_⟩
    rw [htile]
    exact ((s.tile n).shPut_moved (s.env n) ph hf (.inr (.inr hop))).started
  · obtain ⟨hf, hop⟩ := ShForm.of_starts hs
    have hread := Tile.Clear.shPut_fp32 hf hop hsf hdf ⟨hheld, hgood, hserve⟩ (s.env n) hk
    refine completes_shuttle (run := fun s t c => t.shPut (s.env n) c { : Phys }) rfl h hp hs hr fun t ht htile => ⟨ht, ?_, ?_⟩
    · intro i hi
      rw [htile, Tile.spByte, hread, if_pos (by omega), Tile.spByte]
      congr 1
      omega
    · intro row i _ hout
      rw [htile, Tile.spByte, hread, if_neg (by omega), Tile.spByte]
  · refine completes_onUnits (f := fun s t => t.expRow (s.env n) ph) rfl h hp fun t ht htile => ?_
    obtain ⟨hview, hleft⟩ := Tile.expRow_takes (s.env n) ph hexports hexps
    obtain ⟨hrows, helems, hmu, htrf, hrunning, hqueue⟩ := Tile.exported_of_shView hview
    rw [htile]
    exact ⟨ht, hrows, helems, hmu, htrf, hleft, hrunning, hqueue⟩

end Sys2Proof.Machine


/-! # Writes of scratchpad rows keep the memories canonical (O24) -/

namespace Sys2Proof.Machine

/-! ## Operations of a tile (R227, R237, R251) -/

/-- Tile `b` has the core of `a`, and a scratchpad in canonical form where `a` has one. -/
def Tile.keepsCanonical (a b : Tile) : Prop := b.core = a.core ∧ (Memory.wf a.sp.mem = true → Memory.wf b.sp.mem = true)

theorem Tile.keepsCanonical.refl (a : Tile) : a.keepsCanonical a := ⟨rfl, id⟩

theorem Tile.keepsCanonical.trans {a b c : Tile} (h : a.keepsCanonical b) (k : b.keepsCanonical c) : a.keepsCanonical c :=
  ⟨k.1.trans h.1, k.2 ∘ h.2⟩

theorem Tile.keepsCanonical.of_mem {a b : Tile} (hcore : b.core = a.core) (hmem : b.sp.mem = a.sp.mem) : a.keepsCanonical b :=
  ⟨hcore, fun h => by rw [hmem, h]⟩

theorem Tile.keepsCanonical.memoriesWf {a b : Tile} (h : a.keepsCanonical b) (ha : a.memoriesWf = true) : b.memoriesWf = true := by
  simp only [Tile.memoriesWf, Bool.and_eq_true] at ha ⊢
  obtain ⟨⟨hmem, himem⟩, hdmem⟩ := ha
  rw [h.1]
  exact ⟨⟨h.2 hmem, himem⟩, hdmem⟩

/-- Steps of a fold that each keep the memories canonical. -/
theorem Tile.foldl_keepsCanonical {α : Type} {f : Tile → α → Tile} (hf : ∀ (t : Tile) (x : α), t.keepsCanonical (f t x))
    (l : List α) (t : Tile) :
    t.keepsCanonical (l.foldl f t) :=
  List.foldlRecOn (motive := fun u : Tile => t.keepsCanonical u) l f (.refl t) fun u hu x _ => hu.trans (hf u x)

theorem Tile.phys_keepsCanonical (t : Tile) (ph : Phys) : t.keepsCanonical (t.phys ph) :=
  .of_mem (t.phys_upsetTo ph).core (t.phys_upsetTo ph).mem

theorem Tile.flagBit_keepsCanonical (t : Tile) (off bit : Nat) : t.keepsCanonical (t.flagBit off bit) := by
  rw [t.flagBit_frame]
  exact .of_mem rfl rfl

theorem Tile.reject_keepsCanonical (t : Tile) (u : UnitC) (c : Cmd) : t.keepsCanonical (t.reject u c) := by
  rw [t.reject_frame]
  exact .of_mem rfl rfl

theorem Tile.err_keepsCanonical (t : Tile) (cls : Nat) : t.keepsCanonical (t.err cls) := by
  rw [t.err_frame]
  exact .of_mem rfl rfl

theorem Tile.readRow_keepsCanonical (t : Tile) (me : Site) (row : Nat) : t.keepsCanonical (t.readRow me row).tile := by
  obtain ⟨hframe, hmem⟩ := t.readRow_spFrame me row
  exact .of_mem (by rw [hframe]) hmem

theorem Tile.writeRow_keepsCanonical (t : Tile) (me : Site) (row off : Nat) (data : List Byte) (poison : Bool) (eng : Nat) :
    t.keepsCanonical (t.writeRow me row off data poison eng) := by
  refine ⟨?_, fun h => ?_⟩
  · have hbeside := t.writeRow_besideRows me row off data poison eng
    simp only [Tile.besideRows, Prod.mk.injEq] at hbeside
    exact hbeside.2.2
  · by_cases hd : data = []
    · rw [hd, Tile.writeRow_empty, h]
    · by_cases hserve : t.inService row = true ∧ t.holdsEng eng = false
      · rw [Tile.writeRow_served me poison hd hserve.1 hserve.2, Tile.storeRow_mem]
        exact Memory.writeBytes_wf _ _ _ h
      · rw [Tile.writeRow_held me poison hd hserve]
        exact h

/-- Where a row's end shows: the notes of its transfer, and the answer. -/
theorem Tile.rowEnds_frame (t : Tile) (me : Site) (d : DataRow) (warp ok : Bool) :
    let b := t.rowEnds me d warp ok
    b = { t with sp := { t.sp with inX := b.sp.inX, spools := b.sp.spools }, outq := b.outq, wires := b.wires } := by
  unfold Tile.rowEnds
  cases t.spoolOf d with
  | none => cases d.skip <;> cases warp <;> rfl
  | some _ => cases d.skip <;> cases warp <;> rfl

/-- So does the end of a write. -/
theorem Tile.writeEnds_frame (t : Tile) (me : Site) (h : HeldWrite) :
    let b := t.writeEnds me h
    b = { t with sp := { t.sp with inX := b.sp.inX, spools := b.sp.spools }, outq := b.outq, wires := b.wires } := by
  unfold Tile.writeEnds
  cases h.came with
  | none => cases h.reply <;> rfl
  | some c =>
    have hrow := t.rowEnds_frame me c.1 c.2 true
    dsimp only at hrow ⊢
    cases h.reply with
    | none => exact hrow
    | some p => exact congrArg (fun b : Tile => b.post p) hrow

theorem Tile.rowEnds_keepsCanonical (t : Tile) (me : Site) (d : DataRow) (warp ok : Bool) :
    t.keepsCanonical (t.rowEnds me d warp ok) := by
  rw [t.rowEnds_frame]
  exact .of_mem rfl rfl

theorem Tile.writeEnds_keepsCanonical (t : Tile) (me : Site) (h : HeldWrite) : t.keepsCanonical (t.writeEnds me h) := by
  rw [t.writeEnds_frame]
  exact .of_mem rfl rfl

theorem Tile.applyWrite_keepsCanonical (t : Tile) (me : Site) (h : HeldWrite) : t.keepsCanonical (t.applyWrite me h) := by
  by_cases hw : t.mustWait h
  · rw [Tile.applyWrite_held me hw]
    exact .of_mem rfl rfl
  · rw [Tile.applyWrite_now me hw]
    exact (t.writeRow_keepsCanonical me _ _ _ _ _).trans (Tile.writeEnds_keepsCanonical _ me h)

theorem Tile.fillRows_keepsCanonical (t : Tile) (me : Site) (c : Cmd) (v : Word) : t.keepsCanonical (t.fillRows me c v) :=
  Tile.foldl_keepsCanonical (f := fun t r => t.writeRow me r 0 (fillRow v) false 4) (fun t _ => t.writeRow_keepsCanonical me _ _ _ _ _) _ t

theorem Tile.spPoke_keepsCanonical (t : Tile) (me : Site) (c : Cmd) : t.keepsCanonical (t.spPoke me c) :=
  t.writeRow_keepsCanonical me _ _ _ _ _

/-- A row is taken up where its transfer puts it, or ends. -/
theorem Tile.rowArrives_keepsCanonical (t : Tile) (me : Site) (takes : Bool) (d : DataRow) :
    t.keepsCanonical (t.rowArrives me takes d) := by
  have htaken : t.keepsCanonical (t.takenUp d) := .of_mem rfl rfl
  have henter : ∀ (ok : Bool) (row : Nat) (warp : Bool), (t.takenUp d).keepsCanonical
      (if ok && !d.skip then (t.takenUp d).writeIn me row d warp else (t.takenUp d).rowEnds me d warp ok) := fun ok row warp => by
    split
    · exact Tile.applyWrite_keepsCanonical _ me _
    · exact Tile.rowEnds_keepsCanonical _ me d warp ok
  unfold Tile.rowArrives
  dsimp only
  split
  next => exact htaken.trans (henter _ _ _)
  next =>
    split
    next => exact htaken.trans (henter _ _ _)
    next => exact htaken

theorem Tile.wipeRows_keepsCanonical (t : Tile) (a b : Nat) : t.keepsCanonical (t.wipeRows a b) :=
  ⟨rfl, fun h => Memory.zero_wf _ _ _ h⟩

theorem Tile.endWake_keepsCanonical (t : Tile) (me : Site) (b : Nat) : t.keepsCanonical (t.endWake me b) := by
  unfold Tile.endWake
  split
  · dsimp only
    refine .trans ?_ (Tile.foldl_keepsCanonical (fun t h => t.applyWrite_keepsCanonical me h) _ _)
    exact (Tile.wipeRows_keepsCanonical (t.setReg _ _) _ _).trans (.of_mem rfl rfl)
  · exact .refl t

/-- The head of a queue starts, is rejected or waits. -/
theorem Tile.startOp_keepsCanonical {t : Tile} {u : UnitC} {op : Nat} {bad ready : Cmd → Bool} {run : Cmd → Tile}
    (hrun : ∀ c, t.keepsCanonical (run c)) : t.keepsCanonical (t.startOp u op bad ready run) := by
  unfold Tile.startOp
  split
  next => exact .refl t
  next c _ _ =>
    split
    · exact .refl t
    · split
      · exact t.reject_keepsCanonical u c
      · split
        · exact hrun c
        · exact .refl t

/-! ## Commands (R214, R244, R249, R251) -/

/-- Every tile's memories are in canonical form. -/
def State.canonical (s : State) : Prop := ∀ m, (s.tile m).memoriesWf = true

theorem State.canonical.onTile {s : State} (h : s.canonical) {n : Site} {f : Tile → Tile} (hf : (s.tile n).keepsCanonical (f (s.tile n))) :
    (s.onTile n f).canonical := fun m => by
  by_cases hm : m = n
  · rw [hm, State.tile_onTile_same]
    exact hf.memoriesWf (h n)
  · rw [State.tile_onTile_ne s f hm]
    exact h m

theorem State.canonical.onUnits {s : State} (h : s.canonical) {n : Site} {f : Tile → Tile} (hf : (s.tile n).keepsCanonical (f (s.tile n))) :
    (s.onUnits n f).canonical := by
  unfold State.onUnits
  split
  · exact h.onTile hf
  · exact h

theorem State.canonical.receive {s : State} (h : s.canonical) {m : Pkt → Bool} {f : State → State}
    (hf : ∀ t : State, t.canonical → (f t).canonical) : (s.receive m f).canonical := by
  unfold State.receive
  split
  · exact hf _ h
  · exact h

/-- A remote access is refused, or performed at its tile. -/
theorem State.canonical.remote {s : State} (h : s.canonical) {n : Site} {port : PortIx} {x : ReachHdr} {write : Bool}
    {go : Nat → Nat → Tile → Tile} (hgo : ∀ (row off : Nat) (t : Tile), t.keepsCanonical (go row off t)) :
    (s.remote n port x write go).canonical := by
  unfold State.remote
  dsimp only
  split
  · exact h.onTile (f := fun t => t.rrsp n port x 1 [] false) (.of_mem rfl rfl)
  · split
    · exact h.onTile (f := fun t => ((t.flagBit Reg.SP_ERR 6).count Reg.SP_WINREF_COUNT 1).rrsp n port x 1 [] false)
        (((s.tile n).flagBit_keepsCanonical Reg.SP_ERR 6).trans (.of_mem rfl rfl))
    · exact h.onTile (hgo _ _ _)

/-- A command keeps every memory canonical, in reset too, where it does nothing. -/
theorem canonical_of_live {c : Instr} {f : State → State} (he : ∀ s, exec c s = live s f)
    (hf : ∀ s : State, s.canonical → (f s).canonical) :
    ∀ s t : State, exec c s = .next t → s.canonical → t.canonical := fun s t hexec h => by
  rw [he] at hexec
  cases hr : s.inReset with
  | true =>
    rw [live_in s _ hr] at hexec
    cases hexec
    exact h
  | false =>
    rw [live_out s _ hr] at hexec
    cases hexec
    exact hf s h

theorem State.canonical.ite {t u : State} (ht : t.canonical) (hu : u.canonical) {b : Bool} :
    (if b = true then t else u).canonical := by
  split
  · exact ht
  · exact hu

theorem reset_canonical : State.reset.canonical := fun _ => rfl

/-- Settles O24: each row's tile operation keeps the core, and the scratchpad's canonical form (`…_keepsCanonical`). -/
theorem rowWritesKeepMemoriesCanonical : Obligations.RowWritesKeepMemoriesCanonical := by
  unfold Obligations.RowWritesKeepMemoriesCanonical
  refine ⟨reset_canonical, fun n ph b d p x data poison => ⟨?_, ?_, ?_, ?_, ?_, ?_, ?_⟩⟩
  · exact canonical_of_live (fun _ => rfl) fun s h => h.onUnits
      (Tile.startOp_keepsCanonical fun c => ((s.tile n).phys_keepsCanonical ph).trans (Tile.fillRows_keepsCanonical _ n c _))
  · exact canonical_of_live (fun _ => rfl) fun s h => h.onUnits
      (Tile.startOp_keepsCanonical fun c => ((s.tile n).phys_keepsCanonical ph).trans (Tile.spPoke_keepsCanonical _ n c))
  · exact canonical_of_live (fun _ => rfl) fun s h => h.onUnits
      (Tile.startOp_keepsCanonical fun c => ((s.tile n).phys_keepsCanonical ph).trans (Tile.fillRows_keepsCanonical _ n c _))
  · refine canonical_of_live (fun _ => rfl) fun s h => ?_
    exact .ite (h.receive fun t ht => ht.onTile
      (((t.tile n).phys_keepsCanonical ph).trans (Tile.rowArrives_keepsCanonical _ n _ d))) h
  · exact canonical_of_live (fun _ => rfl) fun s h => h.onUnits ((s.tile n).endWake_keepsCanonical n b.val)
  · refine canonical_of_live (fun _ => rfl) fun s h => ?_
    exact h.ite (h.receive fun t ht => ht.remote fun row off a => a.applyWrite_keepsCanonical n _)
  · refine canonical_of_live (fun _ => rfl) fun s h => ?_
    refine h.ite (h.receive fun t ht => ht.remote fun row off a => ?_)
    have hread := (a.phys_keepsCanonical ph).trans ((a.phys ph).readRow_keepsCanonical n row)
    dsimp only
    split
    · exact hread.trans (Tile.err_keepsCanonical _ 1)
    · exact hread

end Sys2Proof.Machine


/-! # Incoming requests, and remote accesses at their tile (O47) -/

namespace Sys2Proof.Machine

/-! ## What a port's line leaves as it is (R371, R380, R381) -/

/-- What flits that a port sends do not touch: its cache, the requests it awaits and those that it serves. -/
def Port.ledger (p : Port) : List Sector × List PortReq × List InReq := (p.cache, p.reqs, p.incoming)

theorem Port.load_ledger (p : Port) (g : Nat) (x : FlitOut) : (p.load g x).1.ledger = p.ledger := by
  unfold Port.load
  dsimp only
  split <;> rfl

theorem Port.sendOne_ledger (p : Port) (ix : PortIx) (x : FlitOut) : (p.sendOne ix x).1.ledger = p.ledger := by
  have hload := (({ p with backlog := p.backlog.erase x } : Port).waitSlot (p.pickGroup x)).load_ledger (p.pickGroup x) x
  unfold Port.sendOne
  dsimp only
  generalize Port.load _ _ _ = q at hload ⊢
  split
  · exact hload
  · exact hload

theorem Port.pump_ledger (ix : PortIx) (fuel : Nat) (p : Port) : (p.pump ix fuel).1.ledger = p.ledger := by
  induction fuel generalizing p with
  | zero => rfl
  | succ fuel ih =>
    unfold Port.pump
    split
    · rfl
    · exact (ih _).trans (p.sendOne_ledger ix _)

theorem Port.idles_ledger (ix : PortIx) (fuel : Nat) (p : Port) : (p.idles ix fuel).1.ledger = p.ledger := by
  induction fuel generalizing p with
  | zero => rfl
  | succ fuel ih =>
    unfold Port.idles
    split
    · rfl
    · exact (ih _).trans (p.load_ledger _ _)

/-- State `t` is `s` after port `n` has sent: the port has kept its ledger, and what has been sent before stands before the rest. -/
structure State.sentBy (s t : State) (n : PortIx) : Prop where
  frame : s.onlyPortOut t n
  ledger : (t.port n).ledger = (s.port n).ledger
  out : s.out <+: t.out

theorem State.onlyPortOut.refl (s : State) (n : PortIx) : s.onlyPortOut s n := ⟨rfl, fun _ _ => rfl⟩

theorem State.onlyPortOut.trans {s t u : State} {n : PortIx} (h : s.onlyPortOut t n) (k : t.onlyPortOut u n) : s.onlyPortOut u n := by
  refine ⟨?_, fun m hm => (k.2 m hm).trans (h.2 m hm)⟩
  rw [k.1, h.1]

theorem State.sentBy.trans {s t u : State} {n : PortIx} (h : s.sentBy t n) (k : t.sentBy u n) : s.sentBy u n :=
  ⟨h.frame.trans k.frame, k.ledger.trans h.ledger, h.out.trans k.out⟩

/-- A port set, and more sent. -/
theorem State.onlyPortOut_setPort_send (s : State) (n : PortIx) (p : Port) (o : List Out) : s.onlyPortOut ((s.setPort n p).send o) n :=
  ⟨rfl, fun m hm => by
    change (s.setPort n p).port m = _
    rw [State.port_setPort, if_neg hm]⟩

theorem State.onlyPortOut_setPort (s : State) (n : PortIx) (p : Port) : s.onlyPortOut (s.setPort n p) n :=
  ⟨rfl, fun m hm => by rw [State.port_setPort, if_neg hm]⟩

theorem State.sentBy_setPort_send (s : State) (n : PortIx) {p : Port} (o : List Out) (hp : p.ledger = (s.port n).ledger) :
    s.sentBy ((s.setPort n p).send o) n :=
  ⟨s.onlyPortOut_setPort_send n p o, (congrArg Port.ledger (s.port_setPort_same n p)).trans hp, ⟨_, rfl⟩⟩

theorem State.pumpPort_sentBy (s : State) (n : PortIx) : s.sentBy (s.pumpPort n) n :=
  s.sentBy_setPort_send n _ (Port.pump_ledger n _ _)

theorem State.sendIdles_sentBy (s : State) (n : PortIx) : s.sentBy (s.sendIdles n) n :=
  s.sentBy_setPort_send n _ (Port.idles_ledger n _ _)

theorem State.portLine_sentBy (s : State) (n : PortIx) (o : Out) (tag : BitVec 12) (rank : Nat) : s.sentBy (s.portLine n o tag rank) n := by
  unfold State.portLine
  dsimp only
  refine .trans ⟨s.onlyPortOut_setPort n _, ?_, ⟨[], List.append_nil _⟩⟩ (State.pumpPort_sentBy _ n)
  rw [State.port_setPort_same]
  split <;> rfl

/-- An operation that is not the loom's stands among what has been sent once its port sends it. -/
theorem State.portSend_sentBy (s : State) (n : PortIx) {o : Out} (ho : o.isLoom = false) :
    s.sentBy (s.portSend n o) n ∧ s.out ++ [o] <+: (s.portSend n o).out := by
  have hline := (s.send [o]).portLine_sentBy n o (s.port n).freeTag 2
  have hsend : s.portSend n o = (s.send [o]).portLine n o (s.port n).freeTag 2 := by
    rw [State.portSend, if_neg (by simp [ho])]
  have hout : s.sentBy (s.send [o]) n := ⟨⟨rfl, fun _ _ => rfl⟩, rfl, ⟨_, rfl⟩⟩
  rw [hsend]
  exact ⟨hout.trans hline, hline.out⟩

theorem leaves_of_onlyPortOut {s t : State} {n : PortIx} (h : s.inReset = false) (ht : s.onlyPortOut t n) : s.leaves t = t :=
  leaves_of_frame s t h (by rw [ht.1]) (by rw [ht.1])

/-- A command that changes a port, and sends. -/
theorem completes_onlyPortOut {c : Instr} {s : State} {n : PortIx} {f : State → State} {p : State → Prop}
    (he : exec c s = live s f) (h : s.inReset = false) (hf : s.onlyPortOut (f s) n) (hp : p (f s)) : Completes c s p :=
  completes_live he h (by rwa [leaves_of_onlyPortOut h hf])

/-! ## Answers to incoming requests (R373, R419) -/

/-- The answer to a request that has failed with a status: no bytes (R419). -/
def InReq.failedOut (r : InReq) (n : PortIx) : Out :=
  if r.write = true then .wrack n r.tag r.orig r.status else .rdrsp n r.tag r.orig r.status [] []

theorem InReq.failedOut_isLoom (r : InReq) (n : PortIx) : (r.failedOut n).isLoom = false := by
  unfold InReq.failedOut
  split <;> rfl

theorem State.answerIn_failed (s : State) (n : PortIx) {r : InReq} (hr : r.status ≠ 0) : s.answerIn n r = s.portSend n (r.failedOut n) := by
  unfold State.answerIn InReq.failedOut
  split
  · rfl
  · rfl

theorem State.answerIn_write (s : State) (n : PortIx) {r : InReq} (hw : r.write = true) :
    s.answerIn n r = s.portSend n (.wrack n r.tag r.orig r.status) := by
  rw [State.answerIn, if_pos hw]

/-- A read of one part answered with its bytes. -/
theorem State.answerIn_read (s : State) (n : PortIx) {r : InReq} {x : BitVec 12} {data : List Byte} {poison : Bool} (hw : r.write = false)
    (hs : r.status = 0) (ho : r.order = [x]) (hp : r.parts = [(x, data, poison)]) :
    s.answerIn n r = s.portSend n (.rdrsp n r.tag r.orig 0 data (beatsBad [(data, poison)])) := by
  unfold State.answerIn
  rw [if_neg (by simp [hw]), hs, ho, hp]
  simp

theorem State.answerIn_sentBy (s : State) (n : PortIx) (r : InReq) : s.sentBy (s.answerIn n r) n := by
  unfold State.answerIn
  split
  · exact (s.portSend_sentBy n rfl).1
  · exact (s.portSend_sentBy n rfl).1

/-- Every beat of a single part is poisoned as the part is. -/
theorem beatsBad_single (data : List Byte) (poison : Bool) {k : Nat} (hk : 128 * k < data.length) :
    (beatsBad [(data, poison)]).getD k false = poison := by
  have hflags : [(data, poison)].flatMap (fun e => List.replicate e.1.length e.2) = List.replicate data.length poison := by simp
  have hany : ((List.replicate data.length poison).drop (128 * k) |>.take 128).any id = poison := by
    rw [List.drop_replicate, List.take_replicate, List.any_replicate, if_neg (by omega)]
    rfl
  unfold beatsBad
  dsimp only
  rw [hflags, List.length_replicate, List.getD_eq_getElem?_getD, List.getElem?_map, List.getElem?_range (by omega)]
  exact hany

/-! ## Requests that come in (R403, R419, R420) -/

/-- A port takes no request: it is not up, the boot has failed, or its table is full (R420, R515). -/
def State.takesNone (s : State) (n : PortIx) : Prop :=
  (s.port n).mode ≠ .up ∨ fld (s.steward.reg Reg.ST_BOOT) 0 2 = 3 ∨ 256 ≤ (s.port n).incoming.length

/-- A request as it is when it comes, before its parts. -/
def InReq.came (tag : BitVec 12) (orig write : Bool) : InReq :=
  { tag := tag, orig := orig, write := write, order := [], left := [], status := 0, parts := [] }

/-- A request of bytes within one row is one part. -/
theorem rowParts_single {addr len : Nat} (h : addr % 512 + len ≤ 512) (hl : 0 < len) : rowParts addr len = [(addr, len)] := by
  have hone : (addr % 512 + len + 511) / 512 = 1 := by omega
  simp only [rowParts, reachPieces, hone, List.range_one, List.map_cons, List.map_nil, Nat.mul_zero, Nat.add_zero]
  rw [Nat.max_eq_left (by omega), Nat.min_eq_left (by omega), Nat.sub_self, Nat.add_zero, Nat.add_sub_cancel_left]

/-- The packet of a part of a request, from a port to a site's tile (R407). -/
def partPkt (n : PortIx) (m : Site) (flits : Nat) (b : PktBody) : Pkt := { src := .port n, dst := .site m, cls := 6, flits := flits, body := b }

/-- The header of the one part of a request. -/
def partHdr (x : BitVec 12) (addr : GAddr) (len : Nat) (orig : Bool) : ReachHdr :=
  { rtag := x, addr := addr, len := BitVec.ofNat 9 (len - 1), stream := 0, sv := false, orig := orig }

section
variable {s : State} {n : PortIx} {addr : GAddr} {len : Nat} (tag : BitVec 12) (orig write : Bool) (data : List Byte) (bad : List Bool)

theorem State.incoming_shut (h : s.takesNone n) : s.incoming n tag addr len orig write data bad = s := by
  unfold State.takesNone at h
  unfold State.incoming
  rw [if_pos (by simpa [or_assoc] using h)]

/-- Where a port takes a request: UNMAPPED, REFUSED, or in parts to its site. -/
theorem State.incoming_open (h : ¬s.takesNone n) : s.incoming n tag addr len orig write data bad =
    match s.steward.ownSite addr.toNat len with
    | none => s.answerIn n { InReq.came tag orig write with status := 3 }
    | some m =>
      if s.steward.off (s.steward.darned m).val then s.answerIn n { InReq.came tag orig write with status := 1 }
      else
        s.setPort n (((rowParts addr.toNat len).zip ((s.port n).partTags (rowParts addr.toNat len).length)).foldl
          (fun (p : Port) (e : (Nat × Nat) × BitVec 12) =>
            let h : ReachHdr := { rtag := e.2, addr := BitVec.ofNat 60 e.1.1, len := BitVec.ofNat 9 (e.1.2 - 1), stream := 0
                                  sv := false, orig := orig }
            if write then
              p.post n (.site m) 6 (1 + reachFlits e.1.1 e.1.2) (.rwr h (sliceBytes data (e.1.1 - addr.toNat) e.1.2)
                (beatsHit bad (e.1.1 - addr.toNat) e.1.2))
            else p.post n (.site m) 6 1 (.rrd h))
          { s.port n with incoming := (s.port n).incoming ++ [{ InReq.came tag orig write with
              order := (s.port n).partTags (rowParts addr.toNat len).length
              left := (s.port n).partTags (rowParts addr.toNat len).length }] }) := by
  unfold State.takesNone at h
  unfold State.incoming
  rw [if_neg (by simpa [or_assoc] using h)]
  rfl

/-- An incoming request changes its port alone, and of it neither the cache nor the requests of tiles. -/
theorem State.incoming_frame : let t := s.incoming n tag addr len orig write data bad
    s.onlyPortOut t n ∧ (t.port n).cache = (s.port n).cache ∧ (t.port n).reqs = (s.port n).reqs := by
  have hanswer : ∀ r, s.onlyPortOut (s.answerIn n r) n ∧ ((s.answerIn n r).port n).cache = (s.port n).cache ∧
      ((s.answerIn n r).port n).reqs = (s.port n).reqs := fun r => by
    obtain ⟨hframe, hledger, -⟩ := s.answerIn_sentBy n r
    simp only [Port.ledger, Prod.mk.injEq] at hledger
    exact ⟨hframe, hledger.1, hledger.2.1⟩
  dsimp only
  by_cases h : s.takesNone n
  · rw [State.incoming_shut tag orig write data bad h]
    exact ⟨.refl s n, rfl, rfl⟩
  · rw [State.incoming_open tag orig write data bad h]
    split
    next => exact hanswer _
    next m _ =>
      split
      · exact hanswer _
      · refine ⟨s.onlyPortOut_setPort n _, ?_⟩
        rw [State.port_setPort_same]
        refine Prod.mk.inj (foldl_keeps (fun p : Port => (p.cache, p.reqs)) (fun p e => ?_) _ _)
        dsimp only
        split <;> rfl

variable (h : ¬s.takesNone n)
include h

/-- UNMAPPED: no site of this die holds every byte. -/
theorem State.incoming_unmapped (hs : s.steward.ownSite addr.toNat len = none) :
    s.out ++ [({ InReq.came tag orig write with status := 3 } : InReq).failedOut n] <+: (s.incoming n tag addr len orig write data bad).out := by
  rw [State.incoming_open tag orig write data bad h, hs]
  dsimp only
  rw [s.answerIn_failed n (show (3 : BitVec 3) ≠ 0 by decide)]
  exact (s.portSend_sentBy n (InReq.failedOut_isLoom _ n)).2

/-- REFUSED: the site is fenced. -/
theorem State.incoming_fenced {m : Site} (hs : s.steward.ownSite addr.toNat len = some m)
    (hoff : s.steward.off (s.steward.darned m).val = true) :
    s.out ++ [({ InReq.came tag orig write with status := 1 } : InReq).failedOut n] <+: (s.incoming n tag addr len orig write data bad).out := by
  rw [State.incoming_open tag orig write data bad h, hs]
  dsimp only
  rw [if_pos hoff, s.answerIn_failed n (show (1 : BitVec 3) ≠ 0 by decide)]
  exact (s.portSend_sentBy n (InReq.failedOut_isLoom _ n)).2

/-- A request of bytes within one row goes to its tile as one part. -/
theorem State.incoming_part {m : Site} {x : BitVec 12} (hs : s.steward.ownSite addr.toNat len = some m)
    (hoff : s.steward.off (s.steward.darned m).val = false) (hx : (s.port n).partTags 1 = [x]) (hrow : addr.toNat % 512 + len ≤ 512)
    (hl : 0 < len) : s.incoming n tag addr len orig write data bad = s.setPort n { s.port n with
      incoming := (s.port n).incoming ++ [{ InReq.came tag orig write with order := [x], left := [x] }]
      outq := (s.port n).outq ++ [if write = true then
          partPkt n m (1 + reachFlits addr.toNat len) (.rwr (partHdr x addr len orig) (sliceBytes data 0 len) (beatsHit bad 0 len))
        else partPkt n m 1 (.rrd (partHdr x addr len orig))] } := by
  rw [State.incoming_open tag orig write data bad h, hs]
  dsimp only
  rw [if_neg (by simp [hoff]), rowParts_single hrow hl, List.length_singleton, hx]
  simp only [List.zip_cons_cons, List.zip_nil_right, List.foldl_cons, List.foldl_nil, Nat.sub_self, BitVec.ofNat_toNat,
    BitVec.setWidth_eq]
  cases write <;> rfl

end

theorem sliceBytes_whole {data : List Byte} {n : Nat} (h : data.length = n) : sliceBytes data 0 n = data := by
  simp [sliceBytes, ← h]

/-! ## Answers of the parts (R419) -/

/-- The worse of two statuses. -/
def worseStatus (a b : BitVec 3) : BitVec 3 := if a.toNat < b.toNat then b else a

/-- A request with one more of its parts answered. -/
def InReq.answeredPart (r : InReq) (rtag : BitVec 12) (status : BitVec 3) (data : List Byte) (poison : Bool) : InReq :=
  { r with left := r.left.erase rtag, status := worseStatus r.status status, parts := r.parts ++ [(rtag, data, poison)] }

section
variable (s : State) (n : PortIx) {rtag : BitVec 12} (status : BitVec 3) (data : List Byte) (poison : Bool)

theorem State.partIn_none (h : ((s.port n).incoming.find? fun r => r.left.contains rtag) = none) :
    s.partIn n rtag status data poison = s := by
  unfold State.partIn
  dsimp only
  rw [h]

variable {r : InReq} (h : ((s.port n).incoming.find? fun r => r.left.contains rtag) = some r)
include h

/-- Other parts are still to come. -/
theorem State.partIn_more (hl : r.left ≠ [rtag]) : s.partIn n rtag status data poison = s.setPort n { s.port n with
    incoming := (s.port n).incoming.map fun y => if y = r then r.answeredPart rtag status data poison else y } := by
  have hmem : rtag ∈ r.left := by simpa using List.find?_some h
  have hmore : (r.left.erase rtag).isEmpty = false := by
    rw [List.isEmpty_eq_false_iff]
    intro hnil
    refine hl ?_
    have hlen := List.length_erase_of_mem hmem
    rw [hnil, List.length_nil] at hlen
    have hpos := List.length_pos_of_mem hmem
    obtain ⟨y, hy⟩ := List.length_eq_one_iff.1 (show r.left.length = 1 by omega)
    rw [hy] at hmem ⊢
    rw [List.mem_singleton.1 hmem]
  unfold State.partIn
  dsimp only
  rw [h]
  dsimp only
  rw [if_neg (by simp [hmore])]
  rfl

/-- The last part has come. -/
theorem State.partIn_last (hl : r.left = [rtag]) : s.partIn n rtag status data poison =
    ((s.setPort n { s.port n with incoming := (s.port n).incoming.erase r }).answerIn n (r.answeredPart rtag status data poison)).sendIdles n := by
  unfold State.partIn
  dsimp only
  rw [h]
  dsimp only
  rw [if_pos (by simp [hl])]
  rfl

end

/-- A part's answer changes its port alone. -/
theorem State.partIn_frame (s : State) (n : PortIx) (rtag : BitVec 12) (status : BitVec 3) (data : List Byte) (poison : Bool) :
    s.onlyPortOut (s.partIn n rtag status data poison) n := by
  cases hfind : (s.port n).incoming.find? fun r => r.left.contains rtag with
  | none =>
    rw [s.partIn_none n status data poison hfind]
    exact .refl s n
  | some r =>
    by_cases hl : r.left = [rtag]
    · rw [s.partIn_last n status data poison hfind hl]
      exact ((s.onlyPortOut_setPort n _).trans (State.answerIn_sentBy _ n _).frame).trans (State.sendIdles_sentBy _ n).frame
    · rw [s.partIn_more n status data poison hfind hl]
      exact s.onlyPortOut_setPort n _

/-- The request is done at its last part, and leaves the port's table. -/
theorem State.partIn_done (s : State) (n : PortIx) {rtag : BitVec 12} (status : BitVec 3) (data : List Byte) (poison : Bool) {r : InReq}
    (h : ((s.port n).incoming.find? fun r => r.left.contains rtag) = some r) (hl : r.left = [rtag]) :
    ((s.partIn n rtag status data poison).port n).incoming = (s.port n).incoming.erase r ∧
      ∀ o, o.isLoom = false → (∀ s : State, s.answerIn n (r.answeredPart rtag status data poison) = s.portSend n o) →
        s.out ++ [o] <+: (s.partIn n rtag status data poison).out := by
  rw [s.partIn_last n status data poison h hl]
  generalize hu : s.setPort n { s.port n with incoming := (s.port n).incoming.erase r } = u
  have hanswer := u.answerIn_sentBy n (r.answeredPart rtag status data poison)
  have hidles := (u.answerIn n (r.answeredPart rtag status data poison)).sendIdles_sentBy n
  refine ⟨?_, fun o ho heq => ?_⟩
  · have hledger := hidles.ledger.trans hanswer.ledger
    simp only [Port.ledger, Prod.mk.injEq] at hledger
    rw [hledger.2.2, ← hu, State.port_setPort_same]
  · have hout := (u.portSend_sentBy n ho).2
    rw [← heq, ← hu] at hout
    rw [hu] at hout
    have huo : u.out = s.out := by rw [← hu]; rfl
    rw [huo] at hout
    exact hout.trans hidles.out

/-! ## Remote accesses at their tile (R246, R247, R249) -/

/-- The scratchpad row of a remote access. -/
def reachRow (x : ReachHdr) : Nat := x.addr.toNat / 512 % 4096

/-- A tile after a remote access: refused, or performed by `go`. -/
def Tile.remoteAt (t : Tile) (st : BitVec 2) (me : Site) (port : PortIx) (x : ReachHdr) (write : Bool) (go : Nat → Nat → Tile → Tile) : Tile :=
  if st ≠ 1 || t.asleep || t.hemmed then t.rrsp me port x 1 [] false
  else if !t.admits (reachRow x) x.orig write then ((t.flagBit Reg.SP_ERR 6).count Reg.SP_WINREF_COUNT 1).rrsp me port x 1 [] false
  else go (reachRow x) (x.addr.toNat % 512) t

theorem State.remote_eq (s : State) (n : Site) (port : PortIx) (x : ReachHdr) (write : Bool) (go : Nat → Nat → Tile → Tile) :
    s.remote n port x write go = s.onTile n fun t => t.remoteAt (s.steward.site n.val) n port x write go := by
  unfold State.remote State.onTile Tile.remoteAt reachRow
  dsimp only
  split
  · rfl
  · split <;> rfl

/-- The answer to a remote access is on its way. -/
def Tile.answersAccess (t : Tile) (port : PortIx) (tag : BitVec 12) (st : BitVec 3) (data : List Byte) (bad : Bool) : Prop :=
  ∃ q ∈ t.outq, q.dst = Dest.port port ∧ q.body = PktBody.rrsp tag st data bad

theorem Tile.rrsp_answersAccess (t : Tile) (me : Site) (port : PortIx) (x : ReachHdr) (st : BitVec 3) (data : List Byte) (bad : Bool) :
    (t.rrsp me port x st data bad).answersAccess port x.rtag st data bad :=
  ⟨_, List.mem_append_right _ (List.mem_singleton_self _), rfl, rfl⟩

/-- The core and the tile registers, which no remote access changes. -/
def Tile.coreTrf (t : Tile) : CoreSt × Map Word := (t.core, t.trf)

section
variable {t : Tile} {st : BitVec 2} {me : Site} {port : PortIx} {x : ReachHdr} {write : Bool} {go : Nat → Nat → Tile → Tile}

theorem Tile.remoteAt_shut (h : st ≠ 1 ∨ t.asleep = true ∨ t.hemmed = true) :
    t.remoteAt st me port x write go = t.rrsp me port x 1 [] false := by
  rw [Tile.remoteAt, if_pos (by simpa [or_assoc] using h)]

theorem Tile.remoteAt_unadmitted (h : ¬(st ≠ 1 ∨ t.asleep = true ∨ t.hemmed = true)) (ha : t.admits (reachRow x) x.orig write = false) :
    t.remoteAt st me port x write go = ((t.flagBit Reg.SP_ERR 6).count Reg.SP_WINREF_COUNT 1).rrsp me port x 1 [] false := by
  rw [Tile.remoteAt, if_neg (by simpa [or_assoc] using h), if_pos (by simp [ha])]

theorem Tile.remoteAt_admitted (h : ¬(st ≠ 1 ∨ t.asleep = true ∨ t.hemmed = true)) (ha : t.admits (reachRow x) x.orig write = true) :
    t.remoteAt st me port x write go = go (reachRow x) (x.addr.toNat % 512) t := by
  rw [Tile.remoteAt, if_neg (by simpa [or_assoc] using h), if_neg (by simp [ha])]

/-- A shut tile refuses, and changes nothing else. -/
theorem Tile.remoteAt_refuses (h : st ≠ 1 ∨ t.asleep = true ∨ t.hemmed = true) : let b := t.remoteAt st me port x write go
    b.answersAccess port x.rtag 1 [] false ∧ b.sp = t.sp ∧ b.regs = t.regs := by
  rw [Tile.remoteAt_shut h]
  exact ⟨t.rrsp_answersAccess me port x 1 [] false, rfl, rfl⟩

/-- An access that no window admits is refused, flagged and counted. -/
theorem Tile.remoteAt_counts (h : ¬(st ≠ 1 ∨ t.asleep = true ∨ t.hemmed = true)) (ha : t.admits (reachRow x) x.orig write = false) :
    let b := t.remoteAt st me port x write go
    b.answersAccess port x.rtag 1 [] false ∧ b.sp = t.sp ∧ bitOf (b.reg Reg.SP_ERR) 6 = true ∧
      b.reg Reg.SP_WINREF_COUNT = satAdd (t.reg Reg.SP_WINREF_COUNT) 1 := by
  rw [Tile.remoteAt_unadmitted h ha]
  refine ⟨Tile.rrsp_answersAccess _ me port x 1 [] false, ?_, ?_, ?_⟩
  · change (t.flagBit Reg.SP_ERR 6).sp = t.sp
    rw [t.flagBit_frame]
  · change bitOf (((t.flagBit Reg.SP_ERR 6).count Reg.SP_WINREF_COUNT 1).reg Reg.SP_ERR) 6 = true
    rw [Tile.reg_count_ne _ 1 (show Reg.SP_ERR ≠ Reg.SP_WINREF_COUNT by decide)]
    exact t.bitOf_flagBit_self Reg.SP_ERR (by decide)
  · change ((t.flagBit Reg.SP_ERR 6).count Reg.SP_WINREF_COUNT 1).reg Reg.SP_WINREF_COUNT = _
    rw [Tile.count, Tile.setReg_reg_same, Tile.reg_flagBit_ne _ _ (by decide) (by decide)]

/-- A remote access is performed, or changes registers and packets alone. -/
theorem Tile.remoteAt_cases : let b := t.remoteAt st me port x write go
    b = { t with regs := b.regs, outq := b.outq } ∨ b = go (reachRow x) (x.addr.toNat % 512) t := by
  by_cases h : st ≠ 1 ∨ t.asleep = true ∨ t.hemmed = true
  · rw [Tile.remoteAt_shut h]
    exact .inl rfl
  · cases ha : t.admits (reachRow x) x.orig write with
    | false =>
      rw [Tile.remoteAt_unadmitted h ha, t.flagBit_frame]
      exact .inl rfl
    | true => exact .inr (Tile.remoteAt_admitted h ha)

/-- What the access itself keeps of what is beside registers and packets, the tile keeps. -/
theorem Tile.remoteAt_keeps {α : Type} {g : Tile → α} (hg : ∀ regs outq, g { t with regs := regs, outq := outq } = g t)
    (hgo : ∀ row off, g (go row off t) = g t) : g (t.remoteAt st me port x write go) = g t := by
  rcases Tile.remoteAt_cases (t := t) (st := st) (me := me) (port := port) (x := x) (write := write) (go := go) with h | h
  · exact (congrArg g h).trans (hg _ _)
  · exact (congrArg g h).trans (hgo _ _)

end

/-- A remote access that is not held, and whose packet has come. -/
theorem completes_remote {c : Instr} {s : State} {n : Site} {port : PortIx} {x : ReachHdr} {write : Bool} {m : Pkt → Bool}
    {go : Nat → Nat → Tile → Tile}
    (he : exec c s = live s fun s => if s.bankTested n (reachRow x) then s else s.receive m fun s => s.remote n port x write go)
    (h : s.inReset = false) (hb : s.bankTested n (reachRow x) = false) (hm : s.mayGet m = true) : Completes c s fun t =>
      t = { s with tiles := t.tiles, net := t.net } ∧ (∀ k, k ≠ n → t.tile k = s.tile k) ∧
        t.tile n = (s.tile n).remoteAt (s.steward.site n.val) n port x write go := by
  refine completes_received (f := fun t => t.remoteAt (s.steward.site n.val) n port x write go) ?_ h hm
    fun t ht hother htile => ⟨ht, hother, htile⟩
  rw [he, live_out _ _ h, live_out _ _ h, if_neg (by simp [hb]), State.receive_of_mayGet _ hm, State.receive_of_mayGet _ hm, State.remote_eq]
  rfl

/-- An access to a bank that a slice tests is held. -/
theorem completes_tested {c : Instr} {s : State} {n : Site} {row : Nat} {f : State → State}
    (he : exec c s = live s fun s => if s.bankTested n row then s else f s) (h : s.inReset = false) (hb : s.bankTested n row = true) :
    Completes c s fun t => t = s :=
  completes_live he h (by rw [if_pos hb, leaves_self s h])

/-! ## Reads (R249, R252, R419) -/

/-- The bytes of a row read for a port (R419). -/
def Tile.readFor (me : Site) (port : PortIx) (x : ReachHdr) (ph : Phys) (row off : Nat) (t : Tile) : Tile :=
  let r := (t.phys ph).readRow me row
  let t := if r.gated then r.tile.err 1 else r.tile
  t.rrsp me port x 0 (sliceBytes r.bytes off (x.len.toNat + 1)) !r.poisoned.isEmpty

theorem Tile.err_sp (t : Tile) (cls : Nat) : (t.err cls).sp = t.sp := by rw [t.err_frame]

theorem Tile.err_coreTrf (t : Tile) (cls : Nat) : (t.err cls).coreTrf = t.coreTrf := by
  rw [t.err_frame]
  rfl

theorem Tile.readFor_keeps (t : Tile) (me : Site) (port : PortIx) (x : ReachHdr) (ph : Phys) (row off : Nat) :
    (t.readFor me port x ph row off).sp.mem = t.sp.mem ∧ (t.readFor me port x ph row off).coreTrf = t.coreTrf := by
  have hup := t.phys_upsetTo ph
  obtain ⟨hframe, hmem⟩ := (t.phys ph).readRow_spFrame me row
  have hkept : ((t.phys ph).readRow me row).tile.coreTrf = t.coreTrf := by
    rw [hframe]
    exact Prod.ext hup.core hup.trf
  unfold Tile.readFor
  dsimp only
  split
  · exact ⟨(congrArg SpSt.mem (Tile.err_sp _ 1)).trans (hmem.trans hup.mem), (Tile.err_coreTrf _ 1).trans hkept⟩
  · exact ⟨hmem.trans hup.mem, hkept⟩

theorem Tile.remoteRead_keeps (t : Tile) (st : BitVec 2) (me : Site) (port : PortIx) (x : ReachHdr) (ph : Phys) :
    let b := t.remoteAt st me port x false (Tile.readFor me port x ph)
    b.sp.mem = t.sp.mem ∧ b.coreTrf = t.coreTrf :=
  ⟨Tile.remoteAt_keeps (g := fun t => t.sp.mem) (fun _ _ => rfl) fun row off => (t.readFor_keeps me port x ph row off).1,
    Tile.remoteAt_keeps (g := Tile.coreTrf) (fun _ _ => rfl) fun row off => (t.readFor_keeps me port x ph row off).2⟩

/-- A read of a row whose bank is in service delivers its bytes, and its poison. -/
theorem Tile.readFor_served {t : Tile} {ph : Phys} {row : Nat} (me : Site) (port : PortIx) (x : ReachHdr) (off : Nat)
    (hs : (t.phys ph).inService row = true) :
    (t.readFor me port x ph row off).answersAccess port x.rtag 0 (sliceBytes ((t.phys ph).rowBytes row) off (x.len.toNat + 1))
      (((t.phys ph).checkRow me row).rowPoison row) := by
  have hread : (t.phys ph).readRow me row =
      { tile := (t.phys ph).checkRow me row, bytes := (t.phys ph).rowBytes row
        poisoned := if ((t.phys ph).checkRow me row).rowPoison row then [row] else [], gated := false } := by
    simp only [Tile.inService, Bool.and_eq_true, Bool.not_eq_true'] at hs
    rw [Tile.readRow, if_neg (by simp [hs])]
  have hpoison : (!(if ((t.phys ph).checkRow me row).rowPoison row then [row] else []).isEmpty) =
      ((t.phys ph).checkRow me row).rowPoison row := by
    cases ((t.phys ph).checkRow me row).rowPoison row <;> rfl
  have hanswer := Tile.rrsp_answersAccess ((t.phys ph).checkRow me row) me port x 0
    (sliceBytes ((t.phys ph).rowBytes row) off (x.len.toNat + 1)) (((t.phys ph).checkRow me row).rowPoison row)
  unfold Tile.readFor
  rw [hread]
  dsimp only
  rw [hpoison]
  exact hanswer

/-- A read of a bank out of service comes poisoned, and is flagged. -/
theorem Tile.readFor_gated {t : Tile} {ph : Phys} {row : Nat} (me : Site) (port : PortIx) (x : ReachHdr) (off : Nat)
    (hs : (t.phys ph).inService row = false) :
    (∃ d, (t.readFor me port x ph row off).answersAccess port x.rtag 0 d true) ∧
      bitOf ((t.readFor me port x ph row off).reg Reg.SP_ERR) 7 = true := by
  have hread : (t.phys ph).readRow me row =
      { tile := (t.phys ph).flagBit Reg.SP_ERR 7, bytes := (List.range 512).map (Config.lostByte (t.phys ph).fresh row)
        poisoned := [row], gated := true } := by
    have hout : ((t.phys ph).gated (bankOf row) || (t.phys ph).waking' (bankOf row)) = true := by
      simpa [Tile.inService, Bool.or_eq_true, Decidable.imp_iff_not_or] using hs
    rw [Tile.readRow, if_pos hout]
  unfold Tile.readFor
  rw [hread]
  dsimp only
  refine ⟨⟨_, Tile.rrsp_answersAccess _ me port x 0 _ true⟩, ?_⟩
  change bitOf ((((t.phys ph).flagBit Reg.SP_ERR 7).err 1).reg Reg.SP_ERR) 7 = true
  rw [Tile.reg_of_regs (congrArg Tile.regs (Tile.err_frame _ 1))]
  exact Tile.bitOf_flagBit_self _ Reg.SP_ERR (by decide)

/-! ## Writes (R239, R249, R251, R408) -/

/-- A remote write as one that may have to wait, with its answer. -/
def remoteWrite (me : Site) (port : PortIx) (x : ReachHdr) (data : List Byte) (poison : Bool) (row off : Nat) : HeldWrite :=
  { eng := 3, row := row, off := off, data := sliceBytes data 0 (x.len.toNat + 1), poison := poison
    reply := some (rrspPkt me port x 0 [] false) }

/-- A remote write performed, or held (R419). -/
def Tile.writeFor (me : Site) (port : PortIx) (x : ReachHdr) (data : List Byte) (poison : Bool) (row off : Nat) (t : Tile) : Tile :=
  t.applyWrite me (remoteWrite me port x data poison row off)

theorem sliceBytes_ne_nil (data : List Byte) (o n : Nat) : sliceBytes data o (n + 1) ≠ [] :=
  List.ne_nil_of_length_pos (by rw [sliceBytes_length]; exact Nat.succ_pos n)

/-- A whole row, or part of one, stored with poison is poisoned (R239). -/
theorem Tile.storeRow_poisoned (t : Tile) (me : Site) (row off : Nat) (data : List Byte) :
    (t.storeRow me row off data true).rowPoison row = true := by
  unfold Tile.storeRow
  dsimp only
  rw [if_pos rfl]
  exact Map.get_set_same noPoison _ row true

section
variable {t : Tile} (me : Site) (port : PortIx) (x : ReachHdr) (data : List Byte) (poison : Bool) (row off : Nat)

theorem Tile.mustWait_remote : t.mustWait (remoteWrite me port x data poison row off) ↔
    ¬(t.inService row = true ∧ t.holdsEng 3 = false) :=
  and_iff_right (sliceBytes_ne_nil data 0 x.len.toNat)

/-- A remote write that is served: stored, and answered. -/
theorem Tile.writeFor_served (hs : t.inService row = true ∧ t.holdsEng 3 = false) :
    t.writeFor me port x data poison row off =
      (t.storeRow me row off (sliceBytes data 0 (x.len.toNat + 1)) poison).rrsp me port x 0 [] false := by
  rw [Tile.writeFor, Tile.applyWrite_now me (by rw [Tile.mustWait_remote]; exact not_not.2 hs)]
  exact congrArg (fun u : Tile => u.rrsp me port x 0 [] false)
    (Tile.writeRow_served me poison (sliceBytes_ne_nil data 0 x.len.toNat) hs.1 hs.2)

/-- One that is not: held with its answer. -/
theorem Tile.writeFor_held (hs : ¬(t.inService row = true ∧ t.holdsEng 3 = false)) :
    let b := t.writeFor me port x data poison row off
    b = { t with regs := b.regs, sp := { t.sp with held := t.sp.held ++ [remoteWrite me port x data poison row off] } } := by
  dsimp only
  rw [Tile.writeFor, Tile.applyWrite_held me ((Tile.mustWait_remote me port x data poison row off).2 hs)]

theorem Tile.storeRow_coreTrf (bytes : List Byte) : (t.storeRow me row off bytes poison).coreTrf = t.coreTrf := by
  obtain ⟨-, hcore, -, -, -, htrf⟩ := by
    simpa [Tile.besideSp] using t.storeRow_besideSp me row off bytes poison
  exact Prod.ext hcore htrf

theorem Tile.writeFor_coreTrf : (t.writeFor me port x data poison row off).coreTrf = t.coreTrf := by
  by_cases hs : t.inService row = true ∧ t.holdsEng 3 = false
  · rw [Tile.writeFor_served me port x data poison row off hs]
    exact t.storeRow_coreTrf me poison row off _
  · rw [Tile.writeFor_held me port x data poison row off hs]
    rfl

/-- The bytes after a remote write: those it names where it is served, else as they were. -/
theorem Tile.writeFor_spByte (hlen : off + (x.len.toNat + 1) ≤ 512) (r : Nat) {i : Nat} (hi : i < 512) :
    (t.writeFor me port x data poison row off).spByte r i =
      if r = row ∧ off ≤ i ∧ i < off + (x.len.toNat + 1) ∧ t.inService row = true ∧ t.holdsEng 3 = false then
        (sliceBytes data 0 (x.len.toNat + 1)).getD (i - off) 0
      else t.spByte r i := by
  by_cases hs : t.inService row = true ∧ t.holdsEng 3 = false
  · have hbyte := t.writeRow_spByte me poison 3 (sliceBytes_ne_nil data 0 x.len.toNat) (by rw [sliceBytes_length]; exact hlen) r hi
      (r := row)
    rw [Tile.writeRow_served me poison (sliceBytes_ne_nil data 0 x.len.toNat) hs.1 hs.2, sliceBytes_length] at hbyte
    rw [Tile.writeFor_served me port x data poison row off hs]
    exact hbyte.trans (if_congr (by simp only [and_assoc]) rfl rfl)
  · rw [Tile.writeFor_held me port x data poison row off hs, if_neg fun hno => hs hno.2.2.2]
    rfl

theorem Tile.remoteWrite_coreTrf (st : BitVec 2) :
    (t.remoteAt st me port x true (Tile.writeFor me port x data poison)).coreTrf = t.coreTrf :=
  Tile.remoteAt_keeps (fun _ _ => rfl) fun row off => t.writeFor_coreTrf me port x data poison row off

end

/-! ## The statement -/

theorem exec_incomingWr {n : PortIx} {tag : BitVec 12} {addr : GAddr} {orig : Bool} {data : List Byte} {bad : List Bool} {k : Nat}
    (hlen : data.length = k + 1) (s : State) :
    exec (.incomingWr n tag addr orig data bad) s = live s fun s => s.incoming n tag addr (k + 1) orig true data bad := by
  have hne : data.isEmpty = false := by
    rw [List.isEmpty_eq_false_iff]
    exact List.ne_nil_of_length_pos (by omega)
  change live s (fun s => if data.isEmpty then s else s.incoming n tag addr data.length orig true data bad) = _
  rw [hne, hlen]
  rfl

/-- The answer of a part reaches its port. -/
theorem completes_rrsp {s : State} {n : PortIx} {rtag : BitVec 12} {status : BitVec 3} {data : List Byte} {poison : Bool}
    {p : State → Prop} (h : s.inReset = false)
    (hm : s.mayGet (fun p => p.dst = .port n && p.body = .rrsp rtag status data poison) = true)
    (hp : ∀ d : State, d = { s with net := d.net } → p (s.leaves (d.partIn n rtag status data poison))) :
    Completes (.rrsp n rtag status data poison) s p := by
  refine completes_live (f := fun s => s.receive (fun p => p.dst = .port n && p.body = .rrsp rtag status data poison) fun s =>
    s.partIn n rtag status data poison) rfl h ?_
  rw [State.receive_of_mayGet _ hm]
  exact hp _ rfl

/-- Settles O47: `incoming_shut`, `_unmapped`, `_fenced` and `_part` for the requests, `partIn_none`, `_more` and `_done` for the answers
of their parts, and `remoteAt_…` with `readFor_…` and `writeFor_…` for the accesses at a tile. -/
theorem remoteAccessesReachTheScratchpad : Obligations.RemoteAccessesReachTheScratchpad := by
  unfold Obligations.RemoteAccessesReachTheScratchpad
  refine ⟨⟨fun s n tag addr len orig bad data h hlen => ⟨?_, ?_⟩, fun s n rtag status data poison h hget => ?_⟩,
    fun s n port x data poison ph h => ⟨fun hb => ⟨?_, ?_⟩, fun hb hget => ?_, fun hb hget => ?_⟩⟩
  · have hframe := State.incoming_frame (s := s) (n := n) (addr := addr) (len := len.toNat + 1) tag orig false [] []
    refine completes_onlyPortOut (f := fun s => s.incoming n tag addr (len.toNat + 1) orig false [] []) rfl h hframe.1 ⟨hframe,
      State.incoming_shut tag orig false [] [], State.incoming_unmapped tag orig false [] [],
      fun hn m => State.incoming_fenced tag orig false [] [] hn, fun hn m y hs hoff hy hrow => ?_⟩
    rw [State.incoming_part tag orig false [] [] hn hs hoff hy hrow (Nat.succ_pos _), State.port_setPort_same]
    exact ⟨rfl, ⟨_, rfl, rfl, rfl, rfl⟩, rfl⟩
  · have hframe := State.incoming_frame (s := s) (n := n) (addr := addr) (len := len.toNat + 1) tag orig true data bad
    refine completes_onlyPortOut (exec_incomingWr hlen s) h hframe.1 ⟨hframe,
      State.incoming_shut tag orig true data bad, State.incoming_unmapped tag orig true data bad,
      fun hn m => State.incoming_fenced tag orig true data bad hn, fun hn m y hs hoff hy hrow => ?_⟩
    rw [State.incoming_part tag orig true data bad hn hs hoff hy hrow (Nat.succ_pos _), State.port_setPort_same, sliceBytes_whole hlen]
    exact ⟨rfl, ⟨_, rfl, rfl, rfl, rfl⟩, _, rfl, rfl, rfl⟩
  · refine completes_rrsp h hget fun d hd => ?_
    have hport : d.port n = s.port n := by rw [hd]; rfl
    have hout : d.out = s.out := by rw [hd]
    obtain ⟨hframe, hother⟩ := d.partIn_frame n rtag status data poison
    refine ⟨?_, ?_, fun m hm => ?_, fun hnone => ?_, fun r hr => ⟨fun hl => ?_, fun hl => ?_⟩⟩
    · exact (congrArg State.tiles hframe).trans (by rw [hd])
    · exact (congrArg State.steward hframe).trans (by rw [hd])
    · exact (hother m hm).trans (by rw [hd]; rfl)
    · rw [← hport] at hnone
      have hsame := d.partIn_none n status data poison hnone
      exact ⟨(congrArg (fun t : State => t.port n) hsame).trans hport, (congrArg State.out hsame).trans hout⟩
    · rw [← hport] at hr
      exact (congrArg State.out (d.partIn_more n status data poison hr hl)).trans hout
    · rw [← hport] at hr
      obtain ⟨hdone, hsends⟩ := d.partIn_done n status data poison hr hl
      rw [hout] at hsends
      refine ⟨hdone.trans (by rw [hport]), fun hw => ?_, fun hw hworst => ?_, fun hw hworst hparts horder => ?_⟩
      · exact hsends _ rfl fun u => u.answerIn_write n hw
      · exact hsends _ rfl fun u => (u.answerIn_failed n hworst).trans (by
          rw [InReq.failedOut, if_neg (by simp [InReq.answeredPart, hw])]
          rfl)
      · refine ⟨_, hsends _ rfl fun u => u.answerIn_read n hw hworst horder ?_, fun k hk => beatsBad_single data poison hk⟩
        change r.parts ++ _ = _
        rw [hparts]
        rfl
  · exact completes_tested rfl h hb
  · exact completes_tested rfl h hb
  · refine (completes_remote (go := Tile.readFor n port x ph) rfl h hb hget).imp fun t ⟨ht, hother, htile⟩ => ?_
    obtain ⟨hmem, hcoreTrf⟩ := (s.tile n).remoteRead_keeps (s.steward.site n.val) n port x ph
    dsimp only
    rw [htile]
    refine ⟨⟨ht, hother, (Prod.mk.inj hcoreTrf).1, (Prod.mk.inj hcoreTrf).2⟩, ⟨fun hs => Tile.remoteAt_refuses hs,
      fun hs ha => Tile.remoteAt_counts hs ha⟩, hmem, fun hs ha hin => ?_, fun hs ha hin => ?_⟩
    · rw [Tile.remoteAt_admitted hs ha]
      exact Tile.readFor_served n port x _ hin
    · rw [Tile.remoteAt_admitted hs ha]
      obtain ⟨⟨d, hanswer⟩, hflag⟩ := Tile.readFor_gated n port x (x.addr.toNat % 512) hin
      exact ⟨d, hanswer, hflag⟩
  · refine (completes_remote (go := Tile.writeFor n port x data poison) rfl h hb hget).imp
      fun t ⟨ht, hother, htile⟩ => ?_
    have hcoreTrf := Tile.remoteWrite_coreTrf (t := s.tile n) n port x data poison (s.steward.site n.val)
    dsimp only
    rw [htile]
    refine ⟨⟨ht, hother, (Prod.mk.inj hcoreTrf).1, (Prod.mk.inj hcoreTrf).2⟩, ⟨fun hs => Tile.remoteAt_refuses hs,
      fun hs ha => Tile.remoteAt_counts hs ha⟩, fun hs ha hlen => ?_⟩
    rw [Tile.remoteAt_admitted hs ha]
    refine ⟨fun hserved => ?_, fun r i hi => Tile.writeFor_spByte n port x data poison (reachRow x) _ hlen r hi, fun hserved hp => ?_,
      fun hwaits => ?_⟩
    · rw [Tile.writeFor_served n port x data poison (reachRow x) _ hserved]
      exact Tile.rrsp_answersAccess _ n port x 0 [] false
    · rw [Tile.writeFor_served n port x data poison (reachRow x) _ hserved, hp]
      exact Tile.storeRow_poisoned _ n _ _ _
    · rw [Tile.writeFor_held n port x data poison (reachRow x) _ hwaits]
      exact ⟨rfl, _, List.mem_append_right _ (List.mem_singleton_self _), rfl, rfl, _, rfl, rfl, rfl⟩

end Sys2Proof.Machine


/-! # Banks are gated and wake; tiles sleep, wake and are scrubbed (O14) -/

namespace Sys2Proof.Machine

/-! ## The state of a bank (R250, R251, R256) -/

theorem bitOf_one_at {k : Nat} (i : Nat) : bitOf (at32 1 k) i = (decide (i < 32) && decide (i = k)) := by
  rw [bitOf, at32, BitVec.getLsbD_ofNat, Nat.one_shiftLeft, Nat.testBit_two_pow]
  simp only [eq_comm]

theorem Tile.wakeBank_frame (t : Tile) (k : Nat) : t.wakeBank k = { t with regs := (t.wakeBank k).regs } := rfl

/-- A bank that wakes: its bit moves from gated to waking. -/
theorem Tile.reg_wakeBank_state (t : Tile) (k : Nat) : (t.wakeBank k).reg Reg.SP_PWR_STATE =
    (t.reg Reg.SP_PWR_STATE &&& ~~~(at32 1 k)) ||| at32 1 (16 + k) := by
  have hne : Reg.SP_PWR_STATE ≠ Reg.SP_PWR := by decide
  rw [Tile.wakeBank, Tile.setReg_reg_same, Tile.reg_setReg, if_neg hne]

theorem Tile.bitOf_wakeBank_pwr (t : Tile) (k : Nat) {i : Nat} (hi : i < 32) :
    bitOf ((t.wakeBank k).reg Reg.SP_PWR) i = (bitOf (t.reg Reg.SP_PWR) i && decide (i ≠ k)) := by
  have hne : Reg.SP_PWR ≠ Reg.SP_PWR_STATE := by decide
  rw [Tile.wakeBank, Tile.reg_setReg, if_neg hne, Tile.setReg_reg_same, bitOf_and, bitOf_not, bitOf_one_at]
  simp [hi]

theorem Tile.gated_wakeBank (t : Tile) (k : Nat) {b : Nat} (hb : b < 16) : (t.wakeBank k).gated b = (t.gated b && decide (b ≠ k)) := by
  have hlow : ¬b = 16 + k := by omega
  have hi : b < 32 := by omega
  rw [Tile.gated, t.reg_wakeBank_state, bitOf_or, bitOf_and, bitOf_not, bitOf_one_at, bitOf_one_at]
  simp [hi, hlow, Tile.gated]

theorem Tile.waking_wakeBank (t : Tile) {k b : Nat} (hb : b < 16) (hk : k ≠ 16 + b) :
    (t.wakeBank k).waking' b = (t.waking' b || decide (b = k)) := by
  have hi : 16 + b < 32 := by omega
  rw [Tile.waking', t.reg_wakeBank_state, bitOf_or, bitOf_and, bitOf_not, bitOf_one_at, bitOf_one_at]
  simp [hi, Tile.waking', Ne.symm hk]

/-! ## SP_PWR.GATE written (R250, R251) -/

/-- Tile `b` is `a` after the write of `g` to SP_PWR.GATE has woken the gated ones of the first `k` banks. -/
structure Tile.gatedUpTo (a b : Tile) (g : BitVec 16) (k : Nat) : Prop where
  frame : b = { a with regs := b.regs }
  gated : ∀ j, j < 16 → b.gated j = (a.gated j && (bitOf g j || decide (k ≤ j)))
  waking : ∀ j, j < 16 → b.waking' j = (a.waking' j || (a.gated j && !bitOf g j && decide (j < k)))
  pwr : ∀ j, j < 16 → bitOf (b.reg Reg.SP_PWR) j = bitOf g j

theorem Tile.gatedUpTo.zero (t : Tile) (g : BitVec 16) : t.gatedUpTo (t.setReg Reg.SP_PWR (g.setWidth 32)) g 0 := by
  have hne : Reg.SP_PWR_STATE ≠ Reg.SP_PWR := by decide
  have hstate : (t.setReg Reg.SP_PWR (g.setWidth 32)).reg Reg.SP_PWR_STATE = t.reg Reg.SP_PWR_STATE := by
    rw [Tile.reg_setReg, if_neg hne]
  refine ⟨rfl, fun j _ => ?_, fun j _ => ?_, fun j hj => ?_⟩
  · rw [Tile.gated, hstate]
    simp [Tile.gated]
  · rw [Tile.waking', hstate]
    simp [Tile.waking']
  · rw [Tile.setReg_reg_same]
    simp [bitOf, hj, show j < 32 by omega]

/-- One bank more. -/
theorem Tile.gatedUpTo.step {a b : Tile} {g : BitVec 16} {k : Nat} (h : a.gatedUpTo b g k) (hk : k < 16) :
    a.gatedUpTo (if b.gated k && !bitOf g k then b.wakeBank k else b) g (k + 1) := by
  obtain ⟨hframe, hgated, hwaking, hpwr⟩ := h
  have hbk : b.gated k = a.gated k := by simp [hgated k hk]
  by_cases hw : (b.gated k && !bitOf g k) = true
  · rw [if_pos hw]
    simp only [Bool.and_eq_true, Bool.not_eq_true', hbk] at hw
    obtain ⟨hgk, hbit⟩ := hw
    refine ⟨by rw [b.wakeBank_frame, hframe], fun j hj => ?_, fun j hj => ?_, fun j hj => ?_⟩
    · rw [b.gated_wakeBank k hj, hgated j hj]
      by_cases hjk : j = k
      · subst hjk
        simp [hbit]
      · simp [hjk, show k ≤ j ↔ k + 1 ≤ j by omega]
    · rw [b.waking_wakeBank hj (by omega), hwaking j hj]
      by_cases hjk : j = k
      · subst hjk
        simp [hgk, hbit]
      · simp [hjk, show j < k ↔ j < k + 1 by omega]
    · rw [b.bitOf_wakeBank_pwr k (by omega), hpwr j hj]
      by_cases hjk : j = k
      · subst hjk
        simp [hbit]
      · simp [hjk]
  · rw [if_neg hw]
    simp only [Bool.and_eq_true, Bool.not_eq_true', hbk, not_and, Bool.not_eq_false] at hw
    refine ⟨hframe, fun j hj => ?_, fun j hj => ?_, hpwr⟩
    · rw [hgated j hj]
      by_cases hjk : j = k
      · subst hjk
        cases hgk : a.gated j
        · rfl
        · simp [hw hgk]
      · simp [show k ≤ j ↔ k + 1 ≤ j by omega]
    · rw [hwaking j hj]
      by_cases hjk : j = k
      · subst hjk
        cases hgk : a.gated j
        · rfl
        · simp [hw hgk]
      · simp [show j < k ↔ j < k + 1 by omega]

theorem Tile.setGate_gates (t : Tile) (g : BitVec 16) : t.gatedUpTo (t.setGate g) g 16 := by
  have hsteps : ∀ k, k ≤ 16 → t.gatedUpTo ((List.range k).foldl (fun t b => if t.gated b && !bitOf g b then t.wakeBank b else t)
      (t.setReg Reg.SP_PWR (g.setWidth 32))) g k := fun k => by
    induction k with
    | zero => exact fun _ => .zero t g
    | succ k ih =>
      intro hk
      rw [List.range_succ, List.foldl_append]
      exact (ih (by omega)).step (by omega)
  exact hsteps 16 (le_refl 16)

/-! ## A bank gated (R250) -/

/-- Rows wiped leave the others: their bytes and their poison. -/
theorem Tile.wipeRows_other (t : Tile) {a b r i : Nat} (hr : r < a ∨ b ≤ r) (hi : i < 512) :
    (t.wipeRows a b).spByte r i = t.spByte r i ∧ (t.wipeRows a b).rowPoison r = t.rowPoison r := by
  constructor
  · change Memory.read (Memory.zero t.sp.mem (512 * a) (512 * b)) (512 * r + i) = _
    rw [Memory.read_zero, if_neg (by omega)]
    rfl
  · change Map.get noPoison (Map.clear t.sp.poison a b) r = _
    rw [Map.clear, Map.get_filter noPoison (fun k => decide (k < a) || decide (b ≤ k)), if_pos (by simpa using hr)]
    rfl

theorem Tile.wipeRows_zero (t : Tile) {a b r i : Nat} (hr : a ≤ r ∧ r < b) (hi : i < 512) : (t.wipeRows a b).spByte r i = 0 := by
  change Memory.read (Memory.zero t.sp.mem (512 * a) (512 * b)) (512 * r + i) = _
  rw [Memory.read_zero, if_pos (by omega)]

theorem Tile.gateBank_ready {t : Tile} {b : Nat} (hreq : bitOf (t.reg Reg.SP_PWR) b = true) (hg : t.gated b = false)
    (hw : t.waking' b = false) (hbusy : t.bankBusy b = false) :
    t.gateBank b = (t.wipeRows (256 * b) (256 * b + 256)).setReg Reg.SP_PWR_STATE (t.reg Reg.SP_PWR_STATE ||| at32 1 b) := by
  rw [Tile.gateBank, if_pos (by simp [hreq, hg, hw, hbusy])]

/-! ## The end of a wake (R251) -/

/-- Storing bytes flags and counts errors, and touches no other register. -/
theorem Tile.reg_storeRow (t : Tile) (me : Site) (row off : Nat) (data : List Byte) (poison : Bool) {o : Nat} (ho : o ≠ Reg.SP_ERR)
    (he : o ≠ Reg.TC_EVT) (hc : o ≠ Reg.SP_ECC_COUNT) : (t.storeRow me row off data poison).reg o = t.reg o := by
  have hword : ∀ (t : Tile) (wk : Nat × EccKind), (match wk.2 with
      | .ce => t.spCe
      | .ue => t.spUe me row).reg o = t.reg o := fun t wk => by
    cases wk.2 with
    | ce =>
      dsimp only
      rw [Tile.spCe, Tile.reg_count_ne _ _ hc, t.reg_flagBit_ne _ ho he]
    | ue => exact (t.setPoison row true).reg_flagBit_ne 2 ho he
  have hfold := foldl_keeps (p := fun t : Tile => t.reg o) hword
  unfold Tile.storeRow
  dsimp only
  split
  · exact hfold _ t
  · split
    · exact hfold _ t
    · exact hfold _ t

theorem Tile.writeEnds_keeps (t : Tile) (me : Site) (h : HeldWrite) : (t.writeEnds me h).sp.mem = t.sp.mem ∧
    (t.writeEnds me h).sp.held = t.sp.held ∧ (t.writeEnds me h).regs = t.regs := by
  rw [t.writeEnds_frame]
  exact ⟨rfl, rfl, rfl⟩

/-- A write that need not wait: the writes that wait and the state of the banks are as they were. -/
theorem Tile.applyWrite_now_keeps {t : Tile} (me : Site) {h : HeldWrite} (hw : ¬t.mustWait h) :
    (t.applyWrite me h).sp.held = t.sp.held ∧ (t.applyWrite me h).reg Reg.SP_PWR_STATE = t.reg Reg.SP_PWR_STATE ∧
      (t.applyWrite me h).sp.mem = (t.writeRow me h.row h.off h.data h.poison h.eng).sp.mem := by
  obtain ⟨hmem, hheld, hregs⟩ := (t.writeRow me h.row h.off h.data h.poison h.eng).writeEnds_keeps me h
  rw [Tile.applyWrite_now me hw, hmem, hheld, Tile.reg_of_regs hregs]
  by_cases hd : h.data = []
  · rw [hd, Tile.writeRow_empty]
    exact ⟨rfl, rfl, rfl⟩
  · obtain ⟨hs, he⟩ := not_not.1 fun hno => hw ⟨hd, hno⟩
    rw [Tile.writeRow_served me h.poison hd hs he]
    exact ⟨Tile.storeRow_held t me _ _ _ _, t.reg_storeRow me _ _ _ _ (by decide) (by decide) (by decide), rfl⟩

/-- A write that waits has at most woken its bank, where that is gated. -/
theorem Tile.applyWrite_held_regs {t : Tile} (me : Site) {h : HeldWrite} (hw : t.mustWait h) :
    (t.applyWrite me h).regs = t.regs ∨
      t.gated (bankOf h.row) = true ∧ (t.applyWrite me h).regs = (t.wakeBank (bankOf h.row)).regs := by
  obtain ⟨hd, hwaits⟩ := hw
  rw [Tile.applyWrite_held me ⟨hd, hwaits⟩]
  dsimp only
  unfold Tile.writeRow
  rw [if_neg (by simpa using hd)]
  split
  · dsimp only
    split
    next hwake =>
      rw [Bool.and_eq_true] at hwake
      exact .inr ⟨hwake.1, rfl⟩
    next => exact .inl rfl
  next hserved =>
    rw [Bool.not_eq_true, Bool.or_eq_false_iff, Bool.or_eq_false_iff] at hserved
    obtain ⟨⟨heng, hgated⟩, hwaking⟩ := hserved
    exact absurd ⟨by rw [Tile.inService, hgated, hwaking]; rfl, heng⟩ hwaits

/-- Tile `u` is `a`, whose bank `b` is in service and where no write is held, after the writes `l` have been applied. -/
structure Tile.applied (a u : Tile) (b : Nat) (l : List HeldWrite) : Prop where
  gated : u.gated b = false
  waking : u.waking' b = false
  behind : ∀ h ∈ u.sp.held, bankOf h.row = b → ∃ k ∈ u.sp.held, k.eng = h.eng ∧ bankOf k.row ≠ b
  byte : ∀ r i, i < 512 → (∀ h ∈ l, h.row ≠ r) → u.spByte r i = a.spByte r i

theorem Tile.applied.step {a u : Tile} {b : Nat} {l : List HeldWrite} (hu : a.applied u b l) (hb : b < 16) (me : Site) {h : HeldWrite}
    (hlen : h.off + h.data.length ≤ 512) : a.applied (u.applyWrite me h) b (l ++ [h]) := by
  obtain ⟨hgated, hwaking, hbehind, hbyte⟩ := hu
  have hbefore : ∀ r i, i < 512 → (∀ k ∈ l ++ [h], k.row ≠ r) → u.spByte r i = a.spByte r i ∧ h.row ≠ r := fun r i hi hno =>
    ⟨hbyte r i hi fun k hk => hno k (List.mem_append_left _ hk), hno h (List.mem_append_right _ (List.mem_singleton_self h))⟩
  by_cases hw : u.mustWait h
  · have hbank : (u.applyWrite me h).gated b = false ∧ (u.applyWrite me h).waking' b = false := by
      rcases Tile.applyWrite_held_regs me hw with hregs | ⟨hg, hregs⟩
      · rw [Tile.gated, Tile.waking', Tile.reg_of_regs hregs]
        exact ⟨hgated, hwaking⟩
      · have hne : bankOf h.row ≠ b := fun heq => by rw [heq, hgated] at hg; cases hg
        have hne' : bankOf h.row ≠ 16 + b := fun heq => by rw [heq] at hg; exact absurd (hg.symm.trans hwaking) (by decide)
        have hsame := Tile.reg_of_regs hregs Reg.SP_PWR_STATE
        have hgated' := u.gated_wakeBank (bankOf h.row) hb
        have hwaking' := u.waking_wakeBank hb hne'
        rw [hgated, Bool.false_and] at hgated'
        rw [hwaking, decide_eq_false (Ne.symm hne), Bool.or_false] at hwaking'
        exact ⟨(congrArg (bitOf · b) hsame).trans hgated', (congrArg (bitOf · (16 + b)) hsame).trans hwaking'⟩
    have hheld : (u.applyWrite me h).sp = { u.sp with held := u.sp.held ++ [h] } := by rw [Tile.applyWrite_held me hw]
    refine ⟨hbank.1, hbank.2, fun k hk hkb => ?_, fun r i hi hno => ?_⟩
    · rw [hheld] at hk ⊢
      have hold : ∀ k ∈ u.sp.held, bankOf k.row = b → ∃ x ∈ u.sp.held ++ [h], x.eng = k.eng ∧ bankOf x.row ≠ b := fun k hk hkb => by
        obtain ⟨x, hx, hprops⟩ := hbehind k hk hkb
        exact ⟨x, List.mem_append_left _ hx, hprops⟩
      rcases List.mem_append.1 hk with hk | hk
      · exact hold k hk hkb
      · rw [List.mem_singleton.1 hk] at hkb ⊢
        have hserves : u.inService h.row = true := by rw [Tile.inService, hkb, hgated, hwaking]; rfl
        obtain ⟨x, hx, heng⟩ : ∃ x ∈ u.sp.held, x.eng = h.eng := by
          simpa [Tile.holdsEng, hserves] using hw.2
        by_cases hxb : bankOf x.row = b
        · rw [← heng]
          exact hold x hx hxb
        · exact ⟨x, List.mem_append_left _ hx, heng, hxb⟩
    · rw [Tile.spByte, hheld]
      exact (hbefore r i hi hno).1
  · obtain ⟨hheld, hstate, hmem⟩ := Tile.applyWrite_now_keeps me hw
    refine ⟨?_, ?_, ?_, fun r i hi hno => ?_⟩
    · rw [Tile.gated, hstate]
      exact hgated
    · rw [Tile.waking', hstate]
      exact hwaking
    · rw [hheld]
      exact hbehind
    · obtain ⟨hprev, hrow⟩ := hbefore r i hi hno
      rw [Tile.spByte, hmem, ← Tile.spByte]
      by_cases hd : h.data = []
      · rw [hd, Tile.writeRow_empty]
        exact hprev
      · rw [u.writeRow_spByte me h.poison h.eng hd hlen r hi, if_neg fun hno => hrow hno.1.1.symm]
        exact hprev

theorem Tile.applied_foldl {a : Tile} {b : Nat} (hb : b < 16) (hgated : a.gated b = false) (hwaking : a.waking' b = false)
    (hnone : a.sp.held = []) (me : Site) (l : List HeldWrite) (hlen : ∀ h ∈ l, h.off + h.data.length ≤ 512) :
    a.applied (l.foldl (fun t h => t.applyWrite me h) a) b l := by
  induction l using List.reverseRecOn with
  | nil => exact ⟨hgated, hwaking, fun h hh => absurd (hnone ▸ (show h ∈ a.sp.held from hh)) List.not_mem_nil, fun _ _ _ _ => rfl⟩
  | append_singleton l h ih =>
    rw [List.foldl_append]
    exact (ih fun k hk => hlen k (List.mem_append_left _ hk)).step hb me (hlen h (List.mem_append_right _ (List.mem_singleton_self h)))

/-- The tile at the end of a wake, before the held writes are applied. -/
def Tile.woken (t : Tile) (b : Nat) : Tile :=
  ((t.setReg Reg.SP_PWR_STATE (t.reg Reg.SP_PWR_STATE &&& ~~~(at32 1 (16 + b)))).wipeRows (256 * b) (256 * b + 256)).onSp
    fun s => { s with held := [] }

theorem Tile.endWake_waking {t : Tile} (me : Site) {b : Nat} (h : t.waking' b = true) :
    t.endWake me b = t.sp.held.foldl (fun t h => t.applyWrite me h) (t.woken b) := by
  rw [Tile.endWake, if_pos h]
  rfl

/-- A woken bank is in service, and the others' rows are as they were. -/
theorem Tile.woken_bank (t : Tile) {b : Nat} (hb : b < 16) : (t.woken b).gated b = t.gated b ∧ (t.woken b).waking' b = false := by
  have hstate : (t.woken b).reg Reg.SP_PWR_STATE = t.reg Reg.SP_PWR_STATE &&& ~~~(at32 1 (16 + b)) := Tile.setReg_reg_same _ _ _
  rw [Tile.gated, Tile.waking', hstate, bitOf_and, bitOf_and, bitOf_not, bitOf_not, bitOf_one_at, bitOf_one_at]
  simp [Tile.gated, show b < 32 by omega]

theorem Tile.woken_zero (t : Tile) {b r i : Nat} (hr : bankOf r = b) (hi : i < 512) : (t.woken b).spByte r i = 0 :=
  Tile.wipeRows_zero _ (by unfold bankOf at hr; omega) hi

theorem Tile.woken_other (t : Tile) {b r i : Nat} (hr : bankOf r ≠ b) (hi : i < 512) : (t.woken b).spByte r i = t.spByte r i :=
  (Tile.wipeRows_other (t.setReg _ _) (by unfold bankOf at hr; omega) hi).1

/-- The only write that waited, for this bank: it is done. -/
theorem Tile.endWake_single {t : Tile} (me : Site) {b : Nat} (hb : b < 16) (hw : t.waking' b = true) (hg : t.gated b = false)
    {h : HeldWrite} (hheld : t.sp.held = [h]) (hbank : bankOf h.row = b) (hd : h.data ≠ []) (hlen : h.off + h.data.length ≤ 512) :
    (t.endWake me b).sp.held = [] ∧ ∀ i, i < h.data.length → (t.endWake me b).spByte h.row (h.off + i) = h.data.getD i 0 := by
  obtain ⟨hgated, hwaking⟩ := t.woken_bank hb
  have hserves : (t.woken b).inService h.row = true ∧ (t.woken b).holdsEng h.eng = false :=
    ⟨by rw [Tile.inService, hbank, hgated, hg, hwaking]; rfl, rfl⟩
  have heq : t.endWake me b = (t.woken b).applyWrite me h := by
    rw [Tile.endWake_waking me hw, hheld]
    rfl
  obtain ⟨hnone, -, hmem⟩ := Tile.applyWrite_now_keeps me (t := t.woken b) (h := h) fun hno => hno.2 hserves
  rw [heq]
  refine ⟨hnone, fun i hi => ?_⟩
  rw [Tile.spByte, hmem, ← Tile.spByte, (t.woken b).writeRow_spByte me h.poison h.eng hd hlen h.row (by omega),
    if_pos ⟨⟨rfl, by omega, by omega⟩, hserves⟩, Nat.add_sub_cancel_left]

/-! ## The three commands of the banks -/

theorem bankGate_gates {s : State} {n : Site} {g : BitVec 16} (h : s.inReset = false) (hp : s.powered n = true) :
    Completes (.bankGate n g) s fun t => s.onlyTile t n ∧ t.tile n = { s.tile n with regs := (t.tile n).regs } ∧
      ∀ b, b < 16 →
        ((s.tile n).gated b = true → bitOf g b = false → (t.tile n).gated b = false ∧ (t.tile n).waking' b = true) ∧
        ((s.tile n).gated b = true → bitOf g b = true → (t.tile n).gated b = true) ∧
        ((s.tile n).gated b = false → (t.tile n).gated b = false ∧ (t.tile n).waking' b = (s.tile n).waking' b ∧
          bitOf ((t.tile n).reg Reg.SP_PWR) b = bitOf g b) := by
  refine completes_onUnits (f := fun _ t => t.setGate g) rfl h hp fun t ht htile => ⟨ht, ?_⟩
  obtain ⟨hframe, hgated, hwaking, hpwr⟩ := (s.tile n).setGate_gates g
  rw [← htile] at hframe hgated hwaking hpwr
  refine ⟨hframe, fun b hb => ⟨fun hg hbit => ⟨?_, ?_⟩, fun hg hbit => ?_, fun hg => ⟨?_, ?_, hpwr b hb⟩⟩⟩
  · simp [hgated b hb, hbit, hb]
  · simp [hwaking b hb, hg, hbit, hb]
  · simp [hgated b hb, hg, hbit]
  · simp [hgated b hb, hg]
  · simp [hwaking b hb, hg]

theorem bankGated_gates {s : State} {n : Site} {b : Fin 16} (h : s.inReset = false) (hp : s.powered n = true)
    (hreq : bitOf ((s.tile n).reg Reg.SP_PWR) b.val = true) (hg : (s.tile n).gated b.val = false)
    (hw : (s.tile n).waking' b.val = false) (hbusy : (s.tile n).bankBusy b.val = false) :
    Completes (.bankGated n b) s fun t => s.onlyTile t n ∧ (t.tile n).gated b.val = true ∧
      (∀ r i, bankOf r ≠ b.val → i < 512 → (t.tile n).spByte r i = (s.tile n).spByte r i ∧
        (t.tile n).rowPoison r = (s.tile n).rowPoison r) ∧
      t.tile n = { s.tile n with regs := (t.tile n).regs, sp := (t.tile n).sp } := by
  refine completes_onUnits (f := fun _ t => t.gateBank b.val) rfl h hp fun t ht htile => ⟨ht, ?_⟩
  rw [htile, Tile.gateBank_ready hreq hg hw hbusy]
  refine ⟨?_, fun r i hr hi => (s.tile n).wipeRows_other (by unfold bankOf at hr; omega) hi, rfl⟩
  rw [Tile.gated, Tile.setReg_reg_same]
  exact bitOf_flag _ (by omega)

theorem bankWakeEnd_wakes {s : State} {n : Site} {b : Fin 16} (h : s.inReset = false) (hp : s.powered n = true)
    (hw : (s.tile n).waking' b.val = true) (hg : (s.tile n).gated b.val = false)
    (hlen : ∀ h ∈ (s.tile n).sp.held, h.off + h.data.length ≤ 512) :
    Completes (.bankWakeEnd n b) s fun t => s.onlyTile t n ∧ (t.tile n).waking' b.val = false ∧
      (∀ h ∈ (t.tile n).sp.held, bankOf h.row = b.val → ∃ k ∈ (t.tile n).sp.held, k.eng = h.eng ∧ bankOf k.row ≠ b.val) ∧
      (∀ h, (s.tile n).sp.held = [h] → bankOf h.row = b.val → h.data ≠ [] → (t.tile n).sp.held = [] ∧
        ∀ i, i < h.data.length → (t.tile n).spByte h.row (h.off + i) = h.data.getD i 0) ∧
      (∀ r i, bankOf r = b.val → i < 512 → (∀ h ∈ (s.tile n).sp.held, h.row ≠ r) → (t.tile n).spByte r i = 0) ∧
      ∀ r i, bankOf r ≠ b.val → i < 512 → (∀ h ∈ (s.tile n).sp.held, h.row ≠ r) → (t.tile n).spByte r i = (s.tile n).spByte r i := by
  refine completes_onUnits (f := fun _ t => t.endWake n b.val) rfl h hp fun t ht htile => ⟨ht, ?_⟩
  obtain ⟨hgated, hwaking⟩ := (s.tile n).woken_bank b.isLt
  obtain ⟨-, hserves, hbehind, hbyte⟩ := Tile.applied_foldl b.isLt (hgated.trans hg) hwaking rfl n (s.tile n).sp.held hlen
  rw [← Tile.endWake_waking n hw] at hserves hbehind hbyte
  rw [htile]
  refine ⟨hserves, hbehind, fun x hx hbank hd => ?_, fun r i hr hi hno => ?_, fun r i hr hi hno => ?_⟩
  · exact (s.tile n).endWake_single n b.isLt hw hg hx hbank hd (hlen x (by rw [hx]; exact List.mem_singleton_self x))
  · exact (hbyte r i hi hno).trans ((s.tile n).woken_zero hr hi)
  · exact (hbyte r i hi hno).trans ((s.tile n).woken_other hr hi)


/-! ## ST_SLEEP (R477, R567) -/

/-- ST_SLEEP as a write of an action with GO = 1 leaves it. -/
def sleepWord (w : Word) (n : Site) (op : Nat) : Word := setFld (setFld (setFld w 31 1 1) 28 2 op) 0 12 n.val

theorem bitOf_sleepWord_go (w : Word) (n : Site) (op : Nat) : bitOf (sleepWord w n op) 31 = true := by
  simp [sleepWord, bitOf_setFld]

theorem fld_sleepWord_site (w : Word) (n : Site) (op : Nat) : fld (sleepWord w n op) 0 12 = n.val := by
  have hn := n.isLt
  rw [sleepWord, fld_setFld _ 0 12 _ (by decide)]
  omega

theorem fld_sleepWord_op (w : Word) (n : Site) {op : Nat} (h : op < 4) : fld (sleepWord w n op) 28 2 = op := by
  rw [sleepWord, fld_setFld_ne _ 0 12 _ 28 2 (.inr (by decide)), fld_setFld _ 28 2 _ (by decide)]
  omega

/-- The state after an action on a site is written into ST_SLEEP, before it is acted on. -/
def State.sleepWritten (s : State) (n : Site) (op : Nat) : State :=
  s.onSteward fun x => x.setReg Reg.ST_SLEEP (sleepWord (x.reg Reg.ST_SLEEP) n op)

/-- An action refused: ERR, and GO where another is in progress. -/
def State.sleepRefused (s : State) : State :=
  s.onSteward fun x =>
    (x.setReg Reg.ST_SLEEP (setFld (x.reg Reg.ST_SLEEP) 31 1 (if x.sleepActs.isEmpty then 0 else 1))).flagBit Reg.ST_SLEEP 30

/-- An action in progress on a site. -/
def State.sleepActing (s : State) (n : Site) : State :=
  s.onSteward fun x => { x with sleepActs := if x.sleepActs.contains n then x.sleepActs else x.sleepActs ++ [n] }

theorem Site.toNat_ofNat12 (n : Site) : (BitVec.ofNat 12 n.val).toNat = n.val := by
  have hn := n.isLt
  rw [BitVec.toNat_ofNat]
  omega

/-- What SLEEP and WAKE do, by whether their site may sleep. -/
theorem State.sleepCmd_eq (s : State) (n : Site) {op : Nat} (hop : op = 1 ∨ op = 2) : s.sleepCmd (BitVec.ofNat 12 n.val) op =
    if s.sleepable n = true then
      let u := (s.sleepWritten n op).sleepActing n
      if op = 1 then
        if (s.tile n).asleep then u.onSteward fun x => x.sleepActed n
        else (if (s.tile n).scrubbing then u.resetClaimBuckets n else u.startScrub n).onTile n fun t => { t with sleeping := true }
      else if (s.tile n).asleep then u.onTile n Tile.startWake
      else u.onSteward fun x => x.sleepActed n
    else (s.sleepWritten n op).sleepRefused := by
  have hsite := Site.toNat_ofNat12 n
  have hwritten : (s.onSteward fun x => x.setReg Reg.ST_SLEEP (setFld (setFld (setFld (x.reg Reg.ST_SLEEP) 31 1 1) 28 2
      (if op = 1 || op = 2 then op else fld (x.reg Reg.ST_SLEEP) 28 2)) 0 12
      (if (BitVec.ofNat 12 n.val).toNat < 2400 then (BitVec.ofNat 12 n.val).toNat else fld (x.reg Reg.ST_SLEEP) 0 12))) =
      s.sleepWritten n op := by
    have hact : (decide (op = 1) || decide (op = 2)) = true := by simpa using hop
    simp only [hsite, n.isLt, hact, if_true]
    rfl
  unfold State.sleepCmd
  dsimp only
  rw [hwritten, hsite, siteOf_val]
  dsimp only
  have hable : (s.sleepWritten n op).sleepable n = s.sleepable n := rfl
  rw [hable]
  cases s.sleepable n with
  | false => rfl
  | true =>
    rw [if_neg (by rcases hop with rfl | rfl <;> decide), if_pos rfl]
    rfl

/-- A refused action changes the steward alone. -/
theorem sleep_refused {s : State} {n : Site} (h : s.inReset = false) (hs : s.sleepable n = false) :
    Completes (.sleep (BitVec.ofNat 12 n.val)) s fun t => s.onlySteward t ∧
      bitOf (t.steward.reg Reg.ST_SLEEP) 31 = !s.steward.sleepActs.isEmpty ∧ bitOf (t.steward.reg Reg.ST_SLEEP) 30 = true := by
  refine completes_live (f := fun s => s.sleepCmd (BitVec.ofNat 12 n.val) 1) rfl h ?_
  rw [s.sleepCmd_eq n (.inl rfl), if_neg (by simp [hs])]
  refine ⟨?_, ?_, ?_⟩
  · rw [leaves_of_frame s (s.sleepWritten n 1).sleepRefused h rfl rfl]
    rfl
  · change bitOf (((_ : Steward).flagBit Reg.ST_SLEEP 30).reg Reg.ST_SLEEP) 31 = _
    rw [Steward.flagBit, Steward.reg_setReg, if_pos rfl, Steward.reg_setReg, if_pos rfl, bitOf_or, bitOf_setFld, bitOf_one_at]
    cases hacts : s.steward.sleepActs.isEmpty <;> simp [State.sleepWritten, Steward.setReg, hacts]
  · change bitOf (((_ : Steward).flagBit Reg.ST_SLEEP 30).reg Reg.ST_SLEEP) 30 = _
    rw [Steward.flagBit, Steward.reg_setReg, if_pos rfl]
    exact bitOf_flag _ (by decide)

/-- WAKE of a sleeping tile starts its wake. -/
theorem wake_wakes {s : State} {n : Site} (h : s.inReset = false) (hs : s.sleepable n = true) (ha : (s.tile n).asleep = true) :
    Completes (.wake (BitVec.ofNat 12 n.val)) s fun t => (∀ m, m ≠ n → t.tile m = s.tile m) ∧
      t.tile n = { s.tile n with waking := true } ∧ fld (t.steward.reg Reg.ST_SLEEP) 28 2 = 2 := by
  refine completes_live (f := fun s => s.sleepCmd (BitVec.ofNat 12 n.val) 2) rfl h ?_
  rw [s.sleepCmd_eq n (.inr rfl), if_pos hs, if_neg (by decide), if_pos ha]
  refine ⟨fun m hm => State.tile_onTile_ne _ _ hm, ?_, ?_⟩
  · rw [State.tile_leaves, State.tile_onTile_same]
    exact if_pos ha
  · change fld ((s.steward.setReg Reg.ST_SLEEP _).reg Reg.ST_SLEEP) 28 2 = 2
    rw [Steward.reg_setReg, if_pos rfl]
    exact fld_sleepWord_op _ n (by decide)

/-! ## A scrub starts (R209, R253, R443) -/

/-- A unit without a command. -/
def UnitSt.idle (x : UnitSt) : Prop := x.queue = [] ∧ x.running = []

/-- An aborted unit has no command, and no other unit gets one. -/
theorem Tile.abortUnit_idle (t : Tile) (e : Env) {u v : UnitC} (h : v = u ∨ (t.unit v).idle) : ((t.abortUnit e u).unit v).idle := by
  unfold Tile.abortUnit
  refine List.foldlRecOn (motive := fun b : Tile => (b.unit v).idle) _ _ ?_ fun b hb r _ => ?_
  · by_cases hv : v = u
    · rw [hv, Tile.unit_setUnit_same]
      exact ⟨rfl, rfl⟩
    · rw [Tile.unit_setUnit_ne _ _ hv]
      exact h.resolve_left hv
  · dsimp only
    split
    · by_cases hv : v = u
      · subst hv
        rw [Tile.unit_onUnit_same]
        exact hb
      · rw [Tile.unit_onUnit_ne _ _ hv]
        exact hb
    · rw [Tile.unit_of_units (b.endFiring_weaves e _ _ _).units]
      exact hb
    · exact hb

theorem Tile.abortUnit_core (t : Tile) (e : Env) (u : UnitC) : (t.abortUnit e u).core = t.core := by
  unfold Tile.abortUnit
  refine (foldl_keeps Tile.core (fun b r => ?_) _ _).trans rfl
  dsimp only
  split
  · rfl
  · exact (b.endFiring_weaves e _ _ _).core
  · rfl

theorem Tile.dropWork_keeps (t : Tile) (u v : UnitC) : (t.dropWork u).unit v = t.unit v ∧ (t.dropWork u).core = t.core := by
  cases u <;> exact ⟨rfl, rfl⟩

/-- Every unit is aborted, and the core is left as it is. -/
theorem Tile.abortUnits_all (t : Tile) (e : Env) :
    (∀ u, ((t.abortUnits e allUnits).unit u).idle) ∧ (t.abortUnits e allUnits).core = t.core := by
  have hone : ∀ (t : Tile) (u v : UnitC), v = u ∨ (t.unit v).idle → (((t.abortUnit e u).dropWork u).unit v).idle := fun t u v h => by
    rw [((t.abortUnit e u).dropWork_keeps u v).1]
    exact t.abortUnit_idle e h
  have hlist : ∀ (us : List UnitC) (t : Tile) (v : UnitC), v ∈ us ∨ (t.unit v).idle → ((t.abortUnits e us).unit v).idle := fun us => by
    induction us with
    | nil => exact fun t v h => h.resolve_left List.not_mem_nil
    | cons u us ih =>
      refine fun t v h => ih _ v ?_
      rcases h with h | h
      · rcases List.mem_cons.1 h with rfl | h
        · exact .inr (hone t v v (.inl rfl))
        · exact .inl h
      · exact .inr (hone t u v (.inr h))
  refine ⟨fun u => hlist allUnits t u (.inl (by cases u <;> decide)), ?_⟩
  unfold Tile.abortUnits
  exact foldl_keeps Tile.core (fun b u => ((b.abortUnit e u).dropWork_keeps u u).2.trans (b.abortUnit_core e u)) allUnits t

/-- A tile at the start of its scrub: its windows are closed, and its queues are held. -/
def Tile.closed (t : Tile) : Tile :=
  let shut := fun m : Map Word => (upto 89 16).foldl (fun m k => Map.upd (voidWord 3) m k clearEn) (Map.set (voidWord 3) m 56 0)
  let t := t.setGroup 3 { t.group 3 with active := shut (t.group 3).active, standby := shut (t.group 3).standby
                                         kept := some (crc32cWords (slotImage 3 (shut (t.group 3).active))) }
  { t with freeze := { t.freeze with releasing := true }, scrubbing := true }

theorem State.startScrub_eq (s : State) (n : Site) :
    s.startScrub n = s.onTile n fun t => (t.haltCore.abortUnits (s.env n) allUnits).closed := rfl

theorem Tile.closed_keeps (t : Tile) : t.closed.scrubbing = true ∧ t.closed.core = t.core ∧ ∀ u, t.closed.unit u = t.unit u :=
  ⟨rfl, rfl, fun _ => rfl⟩

/-- SLEEP of a tile that may sleep starts its scrub. -/
theorem sleep_sleeps {s : State} {n : Site} (h : s.inReset = false) (hs : s.sleepable n = true) (ha : (s.tile n).asleep = false)
    (hb : (s.tile n).scrubbing = false) : Completes (.sleep (BitVec.ofNat 12 n.val)) s fun t => (∀ m, m ≠ n → t.tile m = s.tile m) ∧
      (t.tile n).sleeping = true ∧ (t.tile n).scrubbing = true ∧ (t.tile n).core.mode = .halted ∧
      (∀ u, ((t.tile n).unit u).queue = [] ∧ ((t.tile n).unit u).running = []) ∧
      bitOf (t.steward.reg Reg.ST_SLEEP) 31 = true ∧ fld (t.steward.reg Reg.ST_SLEEP) 0 12 = n.val := by
  refine completes_live (f := fun s => s.sleepCmd (BitVec.ofNat 12 n.val) 1) rfl h ?_
  rw [s.sleepCmd_eq n (.inl rfl), if_pos hs, if_pos rfl, if_neg (by simp [ha]), if_neg (by simp [hb])]
  have hreg : ((s.sleepWritten n 1).sleepActing n).steward.reg Reg.ST_SLEEP = sleepWord (s.steward.reg Reg.ST_SLEEP) n 1 := by
    change (s.steward.setReg Reg.ST_SLEEP _).reg Reg.ST_SLEEP = _
    rw [Steward.reg_setReg, if_pos rfl]
  have htile : ∀ m, ((s.sleepWritten n 1).sleepActing n).tile m = s.tile m := fun _ => rfl
  generalize (s.sleepWritten n 1).sleepActing n = u at hreg htile
  refine ⟨fun m hm => ?_, ?_⟩
  · rw [State.tile_leaves, State.tile_onTile_ne _ _ hm, State.startScrub_eq, State.tile_onTile_ne _ _ hm, htile]
  · obtain ⟨hidle, hcore⟩ := (s.tile n).haltCore.abortUnits_all (u.env n)
    rw [State.tile_leaves, State.tile_onTile_same, State.startScrub_eq, State.tile_onTile_same, htile]
    generalize (s.tile n).haltCore.abortUnits (u.env n) allUnits = v at hidle hcore
    obtain ⟨hscrub, hcore', hunit⟩ := v.closed_keeps
    generalize v.closed = w at hscrub hcore' hunit
    refine ⟨rfl, hscrub, ?_, fun x => ?_, ?_, ?_⟩
    · change w.core.mode = .halted
      rw [hcore', hcore]
      rfl
    · change (w.unit x).idle
      rw [hunit]
      exact hidle x
    · rw [State.leaves_steward, State.onTile_steward, State.onTile_steward, hreg, bitOf_sleepWord_go]
    · rw [State.leaves_steward, State.onTile_steward, State.onTile_steward, hreg, fld_sleepWord_site]

/-! ## The end of a wake (R477, R478) -/

/-- Streams that go on after a wake leave the tiles and the steward as they are. -/
theorem State.wakeAll_keeps (s : State) (p : Park) : (s.wakeAll p).tiles = s.tiles ∧ (s.wakeAll p).steward = s.steward := by
  have hready : ∀ (s : State) (n : StreamNo), ((s.wakeStream n).tiles, (s.wakeStream n).steward) = (s.tiles, s.steward) := fun s n => by
    unfold State.wakeStream State.ready
    split <;> rfl
  refine Prod.mk.inj (foldl_keeps (fun s : State => (s.tiles, s.steward)) (fun s e => ?_) s.loom.ctxs s)
  split
  · split
    · exact hready s _
    · rfl
  · rfl

theorem State.darnOpen_none {s : State} (h : s.steward.darning = none) : s.darnOpen = s := by
  rw [State.darnOpen, h]

theorem Steward.sleepActed_darning (x : Steward) (n : Site) : (x.sleepActed n).darning = x.darning := by
  unfold Steward.sleepActed
  split <;> rfl

/-- An awake tile's memory is zero, and its groups 0 to 6 hold the void pattern. -/
theorem Tile.wakeState_void (t : Tile) (b : Bool) (now : Nat) :
    (∀ r i, (t.wakeState b now).spByte r i = 0) ∧ ∀ g k, g < 7 → (t.wakeState b now).act g k = voidWord g k := by
  refine ⟨fun _ _ => rfl, fun g k hg => ?_⟩
  have hgroup : (t.wakeState b now).group g = GroupSt.reset := by
    change Map.get noGroup (t.groups.filter fun e => e.1 == 7) g = _
    rw [Map.get_filter noGroup (fun k => k == 7), if_neg (by simp; omega)]
    rfl
  rw [Tile.act, hgroup]
  rfl

/-- A tile that wakes: its own state, its repairs, and what waited for it; no darning uses it. -/
theorem State.wakeDone_waking {s : State} {n : Site} (ha : (s.tile n).asleep = true) (hw : (s.tile n).waking = true)
    (hd : s.steward.darning = none) : (s.wakeDone n).tiles =
      ((s.setTile n ((s.tile n).wakeState false (s.time n))).writeRepairs n).tiles := by
  rw [State.wakeDone, if_neg (by simp [ha, hw]), hd]
  dsimp only
  generalize hu : ((s.setTile n ((s.tile n).wakeState false (s.time n))).writeRepairs n).onSteward (fun x => x.sleepActed n) = u
  have hdarn : u.steward.darning = none := by
    rw [← hu]
    exact (Steward.sleepActed_darning _ n).trans hd
  obtain ⟨hkeep, hsteward⟩ := u.wakeAll_keeps .wake
  rw [State.darnOpen_none (by rw [hsteward, hdarn]), hkeep, ← hu]
  rfl

theorem wakeDone_wakes {s : State} {n : Site} (h : s.inReset = false) (ha : (s.tile n).asleep = true) (hw : (s.tile n).waking = true)
    (hd : s.steward.darning = none) : Completes (.wakeDone n) s fun t => (∀ m, m ≠ n → t.tile m = s.tile m) ∧ (t.tile n).asleep = false ∧
      (t.tile n).waking = false ∧ (∀ r i, (t.tile n).spByte r i = 0) ∧ (∀ g k, g < 7 → (t.tile n).act g k = voidWord g k) ∧
      (t.tile n).freeze.handshake = true ∧ (t.tile n).core.mode = .halted := by
  refine completes_live (f := fun s => s.wakeDone n) rfl h ?_
  have htile : ∀ m, (s.wakeDone n).tile m = ((s.setTile n ((s.tile n).wakeState false (s.time n))).writeRepairs n).tile m := fun m =>
    congrArg (fun l => Map.get noTile l m.val) (State.wakeDone_waking ha hw hd)
  obtain ⟨hbyte, hact⟩ := (s.tile n).wakeState_void false (s.time n)
  refine ⟨fun m hm => ?_, ?_⟩
  · rw [State.tile_leaves, htile, State.writeRepairs, State.tile_onTile_ne _ _ hm, State.tile_setTile_ne _ _ hm]
  · rw [State.tile_leaves, htile, State.writeRepairs, State.tile_onTile_same, State.tile_setTile_same]
    exact ⟨rfl, rfl, hbyte, hact, rfl, rfl⟩


/-! ## The clear of a tile (R253, R254, R443) -/

/-- Whether a tile sleeps, the bytes of its scratchpad, and which of its banks are gated: what a void pattern leaves as it is. -/
def Tile.bankView (t : Tile) : Bool × Bool × Memory × Word := (t.asleep, t.sleeping, t.sp.mem, t.reg Reg.SP_PWR_STATE)

theorem Tile.weaves.bankView {a b : Tile} (h : a.weaves b) (hr : b.reg Reg.SP_PWR_STATE = a.reg Reg.SP_PWR_STATE) :
    b.bankView = a.bankView := by
  rw [Tile.bankView, hr, h.1]
  rfl

theorem Tile.flagBit_bankView (t : Tile) {off : Nat} (bit : Nat) (h : Reg.SP_PWR_STATE ≠ off) : (t.flagBit off bit).bankView = t.bankView :=
  (t.flagBit_weaves off bit).bankView (t.reg_flagBit_ne bit h (by decide))

theorem Tile.setReg_bankView (t : Tile) {off : Nat} (w : Word) (h : Reg.SP_PWR_STATE ≠ off) : (t.setReg off w).bankView = t.bankView := by
  have hr : (t.setReg off w).reg Reg.SP_PWR_STATE = t.reg Reg.SP_PWR_STATE := by rw [Tile.reg_setReg, if_neg h]
  rw [Tile.bankView, hr]
  rfl

theorem Tile.resetRegs_bankView (t : Tile) {l : List Nat} (h : Reg.SP_PWR_STATE ∉ l) : (t.resetRegs l).bankView = t.bankView :=
  List.foldlRecOn (motive := fun b : Tile => b.bankView = t.bankView) l _ rfl fun b hb _ ho =>
    (b.setReg_bankView _ fun heq => h (heq ▸ ho)).trans hb

theorem Tile.returnCredit_regs (t : Tile) (me : Site) (src : TokSrc) : (t.returnCredit me src).regs = t.regs := by
  unfold Tile.returnCredit
  split
  · rfl
  · cases src with
    | seq site u p path gen =>
      dsimp only
      split
      · rw [t.addCredits_frame]
      · split <;> rfl
    | loom a p => rfl

theorem Tile.returnCredit_bankView (t : Tile) (me : Site) (src : TokSrc) : (t.returnCredit me src).bankView = t.bankView :=
  (t.returnCredit_weaves me src).bankView (Tile.reg_of_regs (t.returnCredit_regs me src) _)

theorem Tile.release_bankView (t : Tile) (me : Site) : (t.release me).bankView = t.bankView :=
  foldl_keeps Tile.bankView (fun b (h : Held) => b.returnCredit_bankView me h.src) _ _

theorem Tile.dropToken_bankView (t : Tile) (me : Site) (flag : Nat) (tok : BitVec 64) (src : TokSrc) :
    (t.dropToken me flag tok src).bankView = t.bankView := by
  have hcount : ((t.flagBit Reg.TC_WV_ERR flag).count Reg.TC_WVDROP_COUNT 1).bankView = t.bankView :=
    (Tile.setReg_bankView _ _ (by decide)).trans (t.flagBit_bankView flag (by decide))
  unfold Tile.dropToken Tile.dropCredit
  split
  · exact hcount
  · exact (Tile.returnCredit_bankView _ me src).trans hcount

theorem Tile.passSpills_bankView (t : Tile) (l : List (Nat × Bool)) : (t.passSpills l).bankView = t.bankView := by
  induction l generalizing t with
  | nil => rfl
  | cons x rest ih =>
    unfold Tile.passSpills
    split
    · refine (ih _).trans ?_
      unfold Tile.spoolAdvance
      split
      · unfold Tile.advanceTo
        dsimp only
        split <;> rfl
      · exact t.flagBit_bankView 4 (by decide)
    · rfl

theorem Tile.freeSpill_bankView (t : Tile) (off : Nat) : (t.freeSpill off).bankView = t.bankView := t.passSpills_bankView _

theorem Tile.emptyQueues_bankView (t : Tile) (me : Site) (u : Nat) : (t.emptyQueues me u).bankView = t.bankView := by
  refine foldl_keeps Tile.bankView (fun b q => ?_) _ t
  dsimp only
  rw [foldl_keeps Tile.bankView fun b (k : QTok) => b.dropToken_bankView me 1 k.tok k.src,
    foldl_keeps Tile.bankView fun b (r : SpillRow) => b.freeSpill_bankView r.off]
  rfl

theorem Tile.voidCore_bankView (t : Tile) : t.voidCore.bankView = t.bankView := by
  unfold Tile.voidCore
  dsimp only
  rw [Tile.resetRegs_bankView _ (by decide)]
  exact foldl_keeps Tile.bankView (fun _ _ => rfl) allUnits t

theorem Tile.voidUnit_bankView (t : Tile) (g : Nat) : (t.voidUnit g).bankView = t.bankView := by
  unfold Tile.voidUnit
  split
  case h_6 => exact t.voidCore_bankView
  case h_7 => rfl
  all_goals exact (Tile.resetRegs_bankView _ (by decide)).trans rfl

theorem Tile.setSeq_bankView (t : Tile) (u : Nat) (x : SeqSt) : (t.setSeq u x).bankView = t.bankView := rfl

theorem Tile.endCurrent_bankView (t : Tile) (u : Nat) : (t.endCurrent u).bankView = t.bankView := rfl

theorem Tile.clearCounts_bankView (t : Tile) (u : Nat) : (t.clearCounts u).bankView = t.bankView := rfl

/-- A void pattern touches neither the scratchpad's bytes nor the state of its banks. -/
theorem Tile.voidGroup_bankView (t : Tile) (e : Env) (g : Nat) (patbad : Bool) : (t.voidGroup e g patbad).bankView = t.bankView := by
  unfold Tile.voidGroup
  dsimp only
  refine (Tile.voidUnit_bankView _ g).trans ((show (Tile.noKeep _).bankView = _ from rfl).trans ?_)
  refine foldl_keeps Tile.bankView (fun b u => ?_) _ t
  rw [Tile.clearCounts_bankView]
  refine (foldl_keeps Tile.bankView (fun c p => ?_) _ _).trans ?_
  · rfl
  · rw [Tile.setSeq_bankView, Tile.release_bankView, Tile.endCurrent_bankView, Tile.emptyQueues_bankView]

/-- The void pattern in groups 0 to 6, one after another. -/
theorem Tile.voidGroups_void (t : Tile) (e : Env) :
    let b := (List.range 7).foldl (fun t g => t.voidGroup e g false) t
    b.bankView = t.bankView ∧ ∀ g, g < 7 → b.group g = GroupSt.reset := by
  have hupto : ∀ k g, g < k → ((List.range k).foldl (fun t g => t.voidGroup e g false) t).group g = GroupSt.reset := fun k => by
    induction k with
    | zero => exact fun g hg => absurd hg (Nat.not_lt_zero g)
    | succ k ih =>
      intro g hg
      rw [List.range_succ, List.foldl_append]
      generalize (List.range k).foldl (fun t g => t.voidGroup e g false) t = u at ih ⊢
      obtain ⟨v, ⟨hgroups, -⟩, hvoid⟩ := u.voidGroup_eq e k false
      change (u.voidGroup e k false).group g = _
      rw [hvoid, Tile.group_setGroup]
      split
      · rfl
      next hne => rw [Tile.group, hgroups, ← Tile.group, ih g (by omega)]
  exact ⟨foldl_keeps Tile.bankView (fun b g => b.voidGroup_bankView e g false) _ t, hupto 7⟩

theorem Tile.reg_resetRegs (t : Tile) (l : List Nat) (o : Nat) : (t.resetRegs l).reg o = if o ∈ l then tileReset o else t.reg o := by
  unfold Tile.resetRegs
  induction l generalizing t with
  | nil => rw [if_neg List.not_mem_nil]; rfl
  | cons a l ih =>
    rw [List.foldl_cons, ih, Tile.reg_setReg]
    by_cases hl : o ∈ l
    · rw [if_pos hl, if_pos (List.mem_cons_of_mem a hl)]
    · rw [if_neg hl]
      by_cases ha : o = a
      · rw [if_pos ha, if_pos (ha ▸ List.mem_cons_self), ha]
      · rw [if_neg ha, if_neg (by simp [ha, hl])]

/-- The end of a scrub, at the scratchpad: held writes end, and the bytes of the banks `lost` stay open. -/
def Tile.scrubRows (t : Tile) (me : Site) : Tile :=
  let lost := (List.range 16).filter fun b => t.gated b
  (t.sp.held.foldl (fun t h => t.writeEnds me h) t).onSp fun x =>
    { x with mem := x.mem.filter fun c => lost.contains (bankOf (c.1 / 512))
             poison := x.poison.filter fun c => lost.contains (bankOf c.1)
             bad := x.bad.filter fun c => lost.contains (bankOf (c.1 / 64))
             writeback := [], spools := [], inX := [], arrived := [], held := [] }

/-- The end of a scrub, at the rest of the tile. -/
def Tile.scrubRest (t : Tile) : Tile :=
  let t := { t with core := { t.core with imem := [] }, stitch := StitchSt.reset, freeze := FreezeSt.reset
                    firings := [], helds := [], spillOrder := [], errCounts := [0, 0, 0, 0, 0, 0], scrubbing := false }
  let t := t.resetRegs [Reg.TC_WV_ERR, Reg.TC_WVDROP_COUNT, Reg.TC_STREAM, Reg.LA_SR_SEED, Reg.LA_SR_ADV]
  t.setReg Reg.TC_SCAN_CTL (setFld (t.reg Reg.TC_SCAN_CTL) 31 1 0)

theorem State.endScrub_eq (s : State) (n : Site) : s.endScrub n = (s.resetClaimBuckets n).onTile n fun t =>
    ((List.range 7).foldl (fun t g => t.voidGroup (s.env n) g false) (t.scrubRows n)).scrubRest := rfl

theorem Tile.scrubRows_zero (t : Tile) (me : Site) {r i : Nat} (hi : i < 512) (hg : t.gated (bankOf r) = false) :
    (t.scrubRows me).spByte r i = 0 := by
  change Map.get Memory.unwritten (List.filter (fun c => _) _) (512 * r + i) = 0
  rw [Map.get_filter Memory.unwritten (fun k => ((List.range 16).filter fun b => t.gated b).contains (bankOf (k / 512))), if_neg]
  · rfl
  · rw [show (512 * r + i) / 512 = r by omega]
    simp [hg]

/-- The ends of held writes leave the state of the banks. -/
theorem Tile.scrubRows_keeps (t : Tile) (me : Site) : (t.scrubRows me).asleep = t.asleep ∧ (t.scrubRows me).sleeping = t.sleeping ∧
    (t.scrubRows me).reg Reg.SP_PWR_STATE = t.reg Reg.SP_PWR_STATE := by
  have hends : ∀ (l : List HeldWrite) (t : Tile), (l.foldl (fun t h => t.writeEnds me h) t).bankView = t.bankView := fun l t =>
    foldl_keeps Tile.bankView (fun b h => by
      rw [b.writeEnds_frame]
      rfl) l t
  have hview := hends t.sp.held t
  simp only [Tile.bankView, Prod.mk.injEq] at hview
  exact ⟨hview.1, hview.2.1, hview.2.2.2⟩

theorem Tile.scrubRest_keeps (t : Tile) : t.scrubRest.bankView = t.bankView ∧ t.scrubRest.groups = t.groups ∧
    t.scrubRest.scrubbing = false ∧ t.scrubRest.reg Reg.TC_STREAM = 0 := by
  refine ⟨?_, rfl, rfl, ?_⟩
  · exact (Tile.setReg_bankView _ _ (by decide)).trans ((Tile.resetRegs_bankView _ (by decide)).trans rfl)
  · have hne : Reg.TC_STREAM ≠ Reg.TC_SCAN_CTL := by decide
    rw [Tile.scrubRest, Tile.reg_setReg, if_neg hne, Tile.reg_resetRegs, if_pos (by decide)]
    rfl


/-- What is the same of a tile while the streams that waited for its clear go on. -/
def Tile.clearView (t : Tile) : Bool × Bool × Memory × Map GroupSt × Word × Word :=
  (t.scrubbing, t.asleep, t.sp.mem, t.groups, t.reg Reg.TC_STREAM, t.reg Reg.SP_PWR_STATE)

/-- A tile that is clear: no scrub runs, its scratchpad is zero but in gated banks, groups 0 to 6 hold the void pattern, and no stream
has it. -/
structure Tile.isClear (t : Tile) : Prop where
  scrubbing : t.scrubbing = false
  zero : ∀ r i, i < 512 → t.gated (bankOf r) = false → t.spByte r i = 0
  void : ∀ g k, g < 7 → t.act g k = voidWord g k
  stream : t.reg Reg.TC_STREAM = 0

theorem Tile.isClear.of_view {a b : Tile} (h : a.isClear) (hv : b.clearView = a.clearView) : b.isClear := by
  simp only [Tile.clearView, Prod.mk.injEq] at hv
  obtain ⟨hscrub, -, hmem, hgroups, hstream, hstate⟩ := hv
  refine ⟨hscrub.trans h.scrubbing, fun r i hi hg => ?_, fun g k hg => (Tile.act_of_groups hgroups g k).trans (h.void g k hg),
    hstream.trans h.stream⟩
  rw [Tile.gated, hstate] at hg
  rw [Tile.spByte, hmem]
  exact h.zero r i hi hg

theorem State.resetClaimBuckets_bankView (s : State) (n : Site) : ((s.resetClaimBuckets n).tile n).bankView = (s.tile n).bankView := by
  have hsettle : ∀ (s : State) (c : Nat), ((s.settleBucket (.tile n) c).tile n).bankView = (s.tile n).bankView := fun s c => by
    unfold State.settleBucket State.setBucket
    dsimp only
    rw [State.tile_onTile_same]
    rfl
  unfold State.resetClaimBuckets
  split
  · rfl
  · rw [State.tile_onTile_same, Tile.resetRegs_bankView _ (by decide)]
    exact foldl_keeps (fun s : State => (s.tile n).bankView) hsettle [1, 2] s

/-- A scrubbed tile is clear; whether it sleeps has not changed. -/
theorem State.endScrub_clear (s : State) (n : Site) :
    ((s.endScrub n).tile n).isClear ∧ ((s.endScrub n).tile n).asleep = (s.tile n).asleep := by
  have hclaim := s.resetClaimBuckets_bankView n
  rw [State.endScrub_eq, State.tile_onTile_same]
  generalize (s.resetClaimBuckets n).tile n = t at hclaim
  obtain ⟨hasleep, -, hstate⟩ := t.scrubRows_keeps n
  have hzero : ∀ r i, i < 512 → t.gated (bankOf r) = false → (t.scrubRows n).spByte r i = 0 := fun r i hi hg => t.scrubRows_zero n hi hg
  generalize t.scrubRows n = u at hasleep hstate hzero
  obtain ⟨hview, hvoid⟩ := u.voidGroups_void (s.env n)
  generalize (List.range 7).foldl (fun t g => t.voidGroup (s.env n) g false) u = v at hview hvoid
  obtain ⟨hrest, hgroups, hscrub, hstream⟩ := v.scrubRest_keeps
  rw [hview] at hrest
  generalize v.scrubRest = w at hrest hgroups hscrub hstream
  simp only [Tile.bankView, Prod.mk.injEq] at hrest hclaim
  obtain ⟨hasleep', -, hmem, hstate'⟩ := hrest
  refine ⟨⟨hscrub, fun r i hi hg => ?_, fun g k hg => ?_, hstream⟩, ?_⟩
  · rw [Tile.gated, hstate', hstate] at hg
    rw [Tile.spByte, hmem]
    exact hzero r i hi hg
  · rw [Tile.act_of_groups hgroups, Tile.act, hvoid g hg]
    rfl
  · rw [hasleep', hasleep, hclaim.1]

/-! ## The streams that waited for a clear go on (R30, R443, R480) -/

/-- The loom's records of a site. -/
def State.claimsOf (s : State) (n : Site) : Map LoomSite := s.loom.sites.filter fun e => e.1 == n.val

/-- What is the same of the state, of a site that no stream has claimed, while the streams that waited for its clear go on. -/
def State.clearing (n : Site) (s : State) : (Bool × Bool × Memory × Map GroupSt × Word × Word) × Map LoomSite :=
  ((s.tile n).clearView, s.claimsOf n)

theorem State.mem_claimed_iff (s : State) (n : Site) (k : StreamNo) : n ∈ s.claimed k ↔ ∃ e ∈ s.claimsOf n, e.2.stream = some k := by
  simp only [State.claimed, State.claimsOf, List.mem_filterMap, List.mem_filter, beq_iff_eq]
  constructor
  · rintro ⟨e, he, hsome⟩
    split at hsome
    · split at hsome
      next hk =>
        cases hsome
        exact ⟨e, ⟨he, rfl⟩, hk⟩
      next => cases hsome
    · cases hsome
  · rintro ⟨e, ⟨he, hn⟩, hk⟩
    refine ⟨e, he, ?_⟩
    rw [dif_pos (by rw [hn]; exact n.isLt), if_pos hk]
    exact congrArg some (Fin.ext hn)

theorem State.claimed_of_clearing {s t : State} {n : Site} (h : t.clearing n = s.clearing n) (k : StreamNo) :
    n ∈ t.claimed k ↔ n ∈ s.claimed k := by
  rw [State.mem_claimed_iff, State.mem_claimed_iff, (Prod.mk.inj h).2]

section
variable {n : Site}

theorem State.onTile_clearing (s : State) {m : Site} {f : Tile → Tile} (h : m = n → (f (s.tile m)).clearView = (s.tile m).clearView) :
    (s.onTile m f).clearing n = s.clearing n := by
  refine Prod.ext ?_ rfl
  change ((s.onTile m f).tile n).clearView = (s.tile n).clearView
  by_cases hm : n = m
  · subst hm
    rw [State.tile_onTile_same]
    exact h rfl
  · rw [State.tile_onTile_ne s f hm]

@[simp] theorem State.setPort_clearing (s : State) (p : PortIx) (x : Port) : (s.setPort p x).clearing n = s.clearing n := rfl
@[simp] theorem State.onPort_clearing (s : State) (p : PortIx) (f : Port → Port) : (s.onPort p f).clearing n = s.clearing n := rfl
@[simp] theorem State.onSteward_clearing (s : State) (f : Steward → Steward) : (s.onSteward f).clearing n = s.clearing n := rfl
@[simp] theorem State.setCtx_clearing (s : State) (k : StreamNo) (c : Ctx) : (s.setCtx k c).clearing n = s.clearing n := rfl
@[simp] theorem State.onCtx_clearing (s : State) (k : StreamNo) (f : Ctx → Ctx) : (s.onCtx k f).clearing n = s.clearing n := rfl
@[simp] theorem State.send_clearing (s : State) (o : List Out) : (s.send o).clearing n = s.clearing n := rfl
@[simp] theorem State.refuseLoom_clearing (s : State) (ix : PortIx) : (s.refuseLoom ix).clearing n = s.clearing n := rfl
@[simp] theorem State.pumpPort_clearing (s : State) (ix : PortIx) : (s.pumpPort ix).clearing n = s.clearing n := rfl

@[simp] theorem State.portLine_clearing (s : State) (ix : PortIx) (o : Out) (tag : BitVec 12) (rank : Nat) :
    (s.portLine ix o tag rank).clearing n = s.clearing n := by simp [State.portLine]

@[simp] theorem State.startOwn_clearing (s : State) (ix : PortIx) : (s.startOwn ix).clearing n = s.clearing n := by
  unfold State.startOwn
  dsimp only
  repeat' split
  all_goals simp

@[simp] theorem State.portSend_clearing (s : State) (ix : PortIx) (o : Out) (rank : Nat) : (s.portSend ix o rank).clearing n = s.clearing n := by
  unfold State.portSend
  split <;> simp [State.ownSend]

@[simp] theorem State.pickDiscovery_clearing (s : State) : s.pickDiscovery.clearing n = s.clearing n := by
  unfold State.pickDiscovery
  dsimp only
  repeat' split
  all_goals simp

@[simp] theorem State.portDown_clearing (s : State) (ix : PortIx) : (s.portDown ix).clearing n = s.clearing n := by
  unfold State.portDown
  split <;> simp

theorem Tile.dropPacket_clearView (t : Tile) (me : Site) (src : Nat) (ctl : BitVec 64) : (t.dropPacket me src ctl).clearView = t.clearView := by
  have hcount : ((t.flagBit Reg.WF_ERR 2).count Reg.WF_DROP_COUNT 1).clearView = t.clearView := by
    have hreg : ∀ o, o ≠ Reg.WF_ERR → o ≠ Reg.TC_EVT → o ≠ Reg.WF_DROP_COUNT →
        ((t.flagBit Reg.WF_ERR 2).count Reg.WF_DROP_COUNT 1).reg o = t.reg o := fun o h1 h2 h3 => by
      rw [Tile.reg_count_ne _ 1 h3, t.reg_flagBit_ne 2 h1 h2]
    rw [Tile.clearView, hreg _ (by decide) (by decide) (by decide), hreg _ (by decide) (by decide) (by decide), t.flagBit_frame]
    rfl
  unfold Tile.dropPacket
  dsimp only
  split
  · exact hcount
  · exact hcount

theorem Tile.onRouter_clearView (t : Tile) (f : RouterSt → RouterSt) : (t.onRouter f).clearView = t.clearView := rfl

theorem Tile.cutOutput_clearView (t : Tile) (me : Site) (o : Nat) : (t.cutOutput me o).clearView = t.clearView := by
  unfold Tile.cutOutput
  dsimp only
  rw [Tile.onRouter_clearView, foldl_keeps Tile.clearView, foldl_keeps Tile.clearView]
  · intro b x
    split
    · exact b.dropPacket_clearView _ _ _
    · rfl
  · intro b x
    rw [Tile.onRouter_clearView]
    split
    · exact b.dropPacket_clearView _ _ _
    · rfl

theorem Tile.resetRegs_clearView (t : Tile) {l : List Nat} (hs : Reg.TC_STREAM ∉ l) (hp : Reg.SP_PWR_STATE ∉ l) :
    (t.resetRegs l).clearView = t.clearView := by
  have hframe : t.resetRegs l = { t with regs := (t.resetRegs l).regs } :=
    List.foldlRecOn (motive := fun b : Tile => b = { t with regs := b.regs }) l _ rfl fun b hb _ _ => by
      rw [hb]
      rfl
  rw [Tile.clearView, Tile.reg_resetRegs, Tile.reg_resetRegs, if_neg hs, if_neg hp, hframe]
  rfl

@[simp] theorem State.routerOff_clearing (s : State) (m : Site) : (s.routerOff m).clearing n = s.clearing n := by
  have hcut : ∀ (s : State) (side : Nat), (match stepSide m side with
      | some k => s.onTile k fun t => t.cutOutput k ((side + 2) % 4)
      | none => s).clearing n = s.clearing n := fun s side => by
    split
    · exact s.onTile_clearing fun _ => Tile.cutOutput_clearView _ _ _
    · rfl
  have hoff : ∀ f : RouterSt, (s.onTile m fun t => { t with outq := [], router := f }).clearing n = s.clearing n := fun f =>
    s.onTile_clearing fun _ => rfl
  unfold State.routerOff
  dsimp only
  split
  · rw [State.portDown_clearing]
    exact (foldl_keeps (State.clearing n) hcut [0, 1, 2, 3] _).trans (hoff _)
  · exact (foldl_keeps (State.clearing n) hcut [0, 1, 2, 3] _).trans (hoff _)

theorem Tile.setRouter_clearView (t : Tile) (b : Map Bucket) (r : RouterSt) :
    ({ t with buckets := b, router := r } : Tile).clearView = t.clearView := rfl

@[simp] theorem State.routerUp_clearing (s : State) (m : Site) : (s.routerUp m).clearing n = s.clearing n := by
  unfold State.routerUp
  dsimp only
  have hup : ∀ (buckets : Map Bucket) (router : RouterSt), (s.onTile m fun t =>
      { t.resetRegs ([Reg.WF_LINKCAP, Reg.WF_ERR, Reg.WF_RETRY_COUNT, Reg.WF_DROP_COUNT, Reg.WF_OVER_COUNT] ++
          (List.range 8).flatMap fun c => [Reg.WF_BKT + 4 * c, Reg.WF_PBKT + 4 * c]) with
        buckets := buckets, router := router }).clearing n = s.clearing n := fun buckets router =>
    s.onTile_clearing fun _ => (Tile.setRouter_clearView _ buckets router).trans (Tile.resetRegs_clearView _ (by decide) (by decide))
  split
  · rw [State.onPort_clearing]
    exact hup _ _
  · exact hup _ _

@[simp] theorem State.applySites_clearing (s : State) (l : List (Site × BitVec 2)) : (s.applySites l).clearing n = s.clearing n := by
  unfold State.applySites
  dsimp only
  split
  · rfl
  · refine (foldl_keeps (State.clearing n) (fun (s : State) (e : Site × BitVec 2) => s.routerUp_clearing e.1) _ _).trans ?_
    exact foldl_keeps (State.clearing n) (fun (s : State) (e : Site × BitVec 2) => s.routerOff_clearing e.1) _ _

theorem Tile.setWredir_clearView (t : Tile) (side v : Nat) : (t.setWredir side v).clearView = t.clearView := by
  have hreg : ∀ o, o ≠ Reg.WF_WREDIR0 → o ≠ Reg.WF_WREDIR1 → (t.setWredir side v).reg o = t.reg o := fun o h0 h1 => by
    unfold Tile.setWredir wredirReg
    split
    · rw [Tile.reg_setReg, if_neg h0]
    · rw [Tile.reg_setReg, if_neg h1]
  rw [Tile.clearView, hreg _ (by decide) (by decide), hreg _ (by decide) (by decide)]
  rfl

@[simp] theorem State.clearDarn_clearing (s : State) (f : Site) : (s.clearDarn f).clearing n = s.clearing n := by
  unfold State.clearDarn State.onTiles
  dsimp only
  refine (foldl_keeps (State.clearing n) (fun s m => s.onTile_clearing fun _ => ?_) _ _).trans rfl
  refine foldl_keeps Tile.clearView (fun b i => ?_) _ _
  split
  · exact b.setWredir_clearView i 0
  · rfl

@[simp] theorem State.loomSend_clearing (s : State) (k : StreamNo) (mk : Option PortIx → Out) : (s.loomSend k mk).clearing n = s.clearing n := by
  unfold State.loomSend
  split <;> simp

@[simp] theorem State.wakeStream_clearing (s : State) (k : StreamNo) : (s.wakeStream k).clearing n = s.clearing n := by
  unfold State.wakeStream State.ready
  split <;> rfl

@[simp] theorem State.complete_clearing (s : State) (k : StreamNo) (d : Desc) (status info : Nat) :
    (s.complete k d status info).clearing n = s.clearing n := by simp [State.complete]

@[simp] theorem State.commitReleased_clearing (s : State) (k : StreamNo) : (s.commitReleased k).clearing n = s.clearing n := by
  unfold State.commitReleased
  dsimp only
  split
  · rfl
  · rw [foldl_keeps (State.clearing n) State.clearDarn_clearing]
    simp

@[simp] theorem State.goPorts_clearing (s : State) (k : StreamNo) : (s.goPorts k).clearing n = s.clearing n := by
  unfold State.goPorts
  split <;> simp

@[simp] theorem State.goDone_clearing (s : State) (k : StreamNo) : (s.goDone k).clearing n = s.clearing n := by
  unfold State.goDone
  dsimp only
  repeat' split
  all_goals simp

/-- Another site given up. -/
theorem State.letGo_clearing (s : State) (k : StreamNo) {m : Site} (h : n ≠ m) : (s.letGo k m).clearing n = s.clearing n := by
  have hne : n.val ≠ m.val := fun heq => h (Fin.ext heq)
  refine Prod.ext rfl ?_
  change (Map.drop s.loom.sites m.val).filter (fun e => e.1 == n.val) = _
  rw [Map.drop, List.filter_filter]
  refine List.filter_congr fun e _ => ?_
  by_cases he : e.1 = n.val <;> simp [he, hne]

theorem State.startScrub_clearing (s : State) {m : Site} (h : n ≠ m) : (s.startScrub m).clearing n = s.clearing n := by
  rw [State.startScrub_eq]
  exact s.onTile_clearing fun heq => absurd heq.symm h

/-- The tiles of a stream that ends are cleared, and no other. -/
theorem State.goTiles_clearing (s : State) (k : StreamNo) (h : n ∉ s.claimed k) : (s.goTiles k).clearing n = s.clearing n := by
  have hne : ∀ m ∈ s.claimed k, n ≠ m := fun m hm heq => h (heq ▸ hm)
  have hgone : ((s.claimed k).foldl (fun s x => s.letGo k x) s).clearing n = s.clearing n :=
    List.foldlRecOn (motive := fun u : State => u.clearing n = s.clearing n) _ _ rfl fun u hu m hm => (u.letGo_clearing k (hne m hm)).trans hu
  unfold State.goTiles
  dsimp only
  split
  · refine List.foldlRecOn (motive := fun u : State => u.clearing n = s.clearing n) _ _ ?_ fun u hu m hm =>
      (u.startScrub_clearing (hne m (List.mem_of_mem_filter hm))).trans hu
    split
    · exact hgone
    · exact hgone
  · rfl

theorem State.progress_clearing (s : State) (k : StreamNo) (h : n ∉ s.claimed k) : (s.progress k).clearing n = s.clearing n := by
  unfold State.progress
  rw [State.goDone_clearing, State.goPorts_clearing, State.commitReleased_clearing, s.goTiles_clearing k h]

/-- The streams that wait for a site that none has claimed go on. -/
theorem State.released_clearing (s : State) (h : ∀ k, n ∉ s.claimed k) : (s.released n).clearing n = s.clearing n := by
  unfold State.released
  refine List.foldlRecOn (motive := fun u : State => u.clearing n = s.clearing n) _ _ rfl fun u hu e _ => ?_
  have hnone : ∀ t : State, t.clearing n = u.clearing n → ∀ k, n ∉ t.claimed k := fun t ht k =>
    (State.claimed_of_clearing (ht.trans hu) k).not.2 (h k)
  have hwait : ∀ (t : State) (k : StreamNo), (if (t.ctx k).park == .release && (t.ctx k).releases.isEmpty then t.wakeStream k else t).clearing n =
      t.clearing n := fun t k => by
    split
    · simp
    · rfl
  split
  · dsimp only
    split
    · refine (State.progress_clearing _ _ (hnone _ ?_ _)).trans (Eq.trans ?_ hu)
      · rw [hwait]
        simp
      · rw [hwait]
        simp
    · exact hu
  · exact hu

end


/-! ## KILL_SCRUB_DONE, and the statement -/

theorem State.endScrub_loom (s : State) (n : Site) : (s.endScrub n).loom = s.loom := by
  have hclaim : (s.resetClaimBuckets n).loom = s.loom := by
    unfold State.resetClaimBuckets
    split
    · rfl
    · exact foldl_keeps State.loom (fun s c => rfl) [1, 2] s
  rw [State.endScrub_eq, State.onTile_loom, hclaim]

/-- A sleeping tile at the end of its scrub. -/
def Tile.poweredDown (t : Tile) : Tile := { t with sleeping := false, asleep := true, repairMap := [] }

/-- The end of a scrub at a site that is neither hemmed nor in a slice: powered down where it goes to sleep, and ready again. -/
theorem State.scrubDone_eq {s : State} {n : Site} (hsc : (s.tile n).scrubbing = true) (hsl : s.inSlice n = false)
    (hh : (s.tile n).hemmed = false) (hsite : s.steward.site n.val ≠ 0) : s.scrubDone n =
    (if (s.tile n).sleeping = true then ((s.endScrub n).onTile n Tile.poweredDown).onSteward fun x => x.sleepActed n
      else s.endScrub n).released n := by
  unfold State.scrubDone
  dsimp only
  rw [if_neg (by simpa using fun h => absurd h hsite), if_neg (by simp [hsc, hsl])]
  split
  · rfl
  · rw [if_neg (by simp [hh])]

theorem Tile.isClear.poweredDown {t : Tile} (h : t.isClear) : t.poweredDown.isClear := ⟨h.scrubbing, h.zero, h.void, h.stream⟩

/-- Before the streams that wait for it go on, the tile is clear, and asleep where it was to sleep. -/
theorem killScrubDone_clears {s : State} {n : Site} (h : s.inReset = false) (hsc : (s.tile n).scrubbing = true)
    (hsl : s.inSlice n = false) (hh : (s.tile n).hemmed = false) (hc : ∀ k, n ∉ s.claimed k) (hsite : s.steward.site n.val ≠ 0) :
    Completes (.killScrubDone n) s fun t => (t.tile n).isClear ∧ (t.tile n).asleep = ((s.tile n).sleeping || (s.tile n).asleep) := by
  refine completes_live (f := fun s => s.scrubDone n) rfl h ?_
  rw [State.scrubDone_eq hsc hsl hh hsite, State.tile_leaves]
  obtain ⟨hclear, hasleep⟩ := s.endScrub_clear n
  have hclaims : (s.endScrub n).claimsOf n = s.claimsOf n := by rw [State.claimsOf, s.endScrub_loom, ← State.claimsOf]
  have hdone : ∀ u : State, u.claimsOf n = s.claimsOf n → (u.tile n).isClear →
      (u.tile n).asleep = ((s.tile n).sleeping || (s.tile n).asleep) →
      ((u.released n).tile n).isClear ∧ ((u.released n).tile n).asleep = ((s.tile n).sleeping || (s.tile n).asleep) := fun u hu huc hua => by
    have hview := (Prod.mk.inj (u.released_clearing fun k hk => hc k (by rwa [State.mem_claimed_iff, hu, ← State.mem_claimed_iff] at hk))).1
    refine ⟨huc.of_view hview, ?_⟩
    simp only [Tile.clearView, Prod.mk.injEq] at hview
    exact hview.2.1.trans hua
  cases hs : (s.tile n).sleeping with
  | true =>
    rw [hs] at hdone
    rw [if_pos rfl]
    refine hdone _ hclaims ?_ ?_
    · rw [State.tile_onSteward, State.tile_onTile_same]
      exact hclear.poweredDown
    · rw [State.tile_onSteward, State.tile_onTile_same]
      rfl
  | false =>
    rw [hs] at hdone
    rw [if_neg Bool.false_ne_true]
    exact hdone _ hclaims hclear hasleep

/-- Settles O14: banks by `bankGate_gates`, `bankGated_gates` and `bankWakeEnd_wakes`, the actions of ST_SLEEP by `sleep_sleeps`,
`sleep_refused` and `wake_wakes`, and their ends by `wakeDone_wakes` and `killScrubDone_clears`. -/
theorem banksGateAndTilesSleep : Obligations.BanksGateAndTilesSleep := by
  unfold Obligations.BanksGateAndTilesSleep
  refine ⟨⟨fun s n g => bankGate_gates, fun s n b => bankGated_gates, fun s n b => bankWakeEnd_wakes⟩, fun s n => sleep_sleeps,
    fun s n => sleep_refused, fun s n => wake_wakes, fun s n => wakeDone_wakes, fun s n h hsc hsl hh hc hsite => ?_⟩
  exact (killScrubDone_clears h hsc hsl hh hc hsite).imp fun t ⟨⟨hscrub, hzero, hvoid, hstream⟩, hasleep⟩ =>
    ⟨hscrub, hasleep, hzero, hvoid, hstream⟩

end Sys2Proof.Machine


/-! # Tokens and credits at a unit's queues (O28) -/

namespace Sys2Proof.Machine

/-! ## Packets that the weft brings to a site's units (R25, R344) -/

/-- What the weft brings to the units of a powered site changes its tile, and the weft. -/
theorem completes_receivedOnUnits {c : Instr} {s : State} {n : Site} {m : Pkt → Bool} {f : Tile → Tile} {p : State → Prop}
    (he : exec c s = live s fun s => s.receive m fun s => s.onUnits n f) (h : s.inReset = false) (hp : s.powered n = true)
    (hm : s.mayGet m = true)
    (hq : ∀ t : State, t = { s with tiles := t.tiles, net := t.net } → (∀ k, k ≠ n → t.tile k = s.tile k) →
      t.tile n = f (s.tile n) → p t) : Completes c s p := by
  refine completes_received (he.trans ?_) h hm hq
  rw [live_out _ _ h, live_out _ _ h, State.receive_of_mayGet _ hm, State.receive_of_mayGet _ hm]
  exact congrArg (fun t => Host.Outcome.next (s.leaves t)) (onUnits_of_powered (s := s.deliver _) f hp)

/-- A token is taken from the weft while no slice tests the sequencers of its site (R496). -/
theorem exec_tokenArrive {s : State} {n : Site} {u : BitVec 4} {q : BitVec 3} {tok : BitVec 64} {src : TokSrc}
    (h : s.inReset = false) (ht : s.seqTested n = false) :
    exec (.tokenArrive n u q tok src) s = live s fun s => s.receive (fun p => p.dst = .site n && p.body = .token u q tok src) fun s =>
      s.onUnits n fun t => t.tokenArrive n u.toNat q.toNat tok src := by
  change execTokenArrive n u q tok src s = _
  rw [execTokenArrive, live_out _ _ h, live_out _ _ h, if_neg (by simp [ht])]

/-! ## What the return of a credit leaves as it is (R265, R266) -/

theorem Tile.returnCredit_frame (t : Tile) (me : Site) (src : TokSrc) :
    t.returnCredit me src = { t with ports := (t.returnCredit me src).ports, wires := (t.returnCredit me src).wires
                                     outq := (t.returnCredit me src).outq } := by
  unfold Tile.returnCredit
  split
  · rfl
  · cases src with
    | seq site u p path gen =>
      dsimp only
      split
      · rw [t.addCredits_frame]
      · split <;> rfl
    | loom a p => rfl

theorem Tile.dropCredit_frame (t : Tile) (me : Site) (tok : BitVec 64) (src : TokSrc) :
    t.dropCredit me tok src = { t with ports := (t.dropCredit me tok src).ports, wires := (t.dropCredit me tok src).wires
                                       outq := (t.dropCredit me tok src).outq } := by
  unfold Tile.dropCredit
  split
  · rfl
  · exact t.returnCredit_frame me src

theorem Tile.dropCredit_reg (t : Tile) (me : Site) (tok : BitVec 64) (src : TokSrc) (o : Nat) :
    (t.dropCredit me tok src).reg o = t.reg o :=
  Tile.reg_of_regs (by rw [t.dropCredit_frame]) o

theorem Tile.addCredits_portSt (t : Tile) (u p k gen : Nat) :
    (t.addCredits u p k gen).portSt u p =
      if gen = (t.portSt u p).gen then
        { t.portSt u p with credits := min ((t.portSt u p).credits + k) (t.portCredits u p)
                            outstanding := (t.portSt u p).outstanding - k }
      else t.portSt u p := by
  unfold Tile.addCredits
  dsimp only
  split
  · exact Map.get_set_same _ _ _ _
  · rfl

/-! ## Dropped tokens (R262, R462) -/

/-- Tile `b` is `a` with one more dropped token counted: no queue differs, and no register but the count and the flags. -/
def Tile.countsDrop (a b : Tile) : Prop :=
  b.queues = a.queues ∧ b.reg Reg.TC_WVDROP_COUNT = satAdd (a.reg Reg.TC_WVDROP_COUNT) 1 ∧
    ∀ o, o ≠ Reg.TC_WV_ERR → o ≠ Reg.TC_WVDROP_COUNT → b.reg o = a.reg o

theorem Tile.count_countsDrop (t : Tile) : t.countsDrop (t.count Reg.TC_WVDROP_COUNT 1) :=
  ⟨rfl, t.setReg_reg_same _ _, fun _ _ ho => t.reg_count_ne 1 ho⟩

theorem Tile.dropToken_countsDrop (t : Tile) (me : Site) (flag : Nat) (tok : BitVec 64) (src : TokSrc) :
    t.countsDrop (t.dropToken me flag tok src) := by
  have hflag : ∀ o, o ≠ Reg.TC_WV_ERR → (t.flagBit Reg.TC_WV_ERR flag).reg o = t.reg o := fun o ho => by
    rw [Tile.reg_flagBit t flag o (by decide), if_neg ho]
  obtain ⟨hqueues, hcount, hother⟩ := (t.flagBit Reg.TC_WV_ERR flag).count_countsDrop
  rw [hflag _ (by decide)] at hcount
  refine ⟨?_, (Tile.dropCredit_reg _ me tok src _).trans hcount,
    fun o he hc => (Tile.dropCredit_reg _ me tok src o).trans ((hother o he hc).trans (hflag o he))⟩
  rw [Tile.dropToken, Tile.dropCredit_frame]
  exact hqueues.trans (by rw [Tile.flagBit_frame])

theorem Tile.dropToken_flagged (t : Tile) (me : Site) {flag : Nat} (tok : BitVec 64) (src : TokSrc) (h : flag < 32) :
    bitOf ((t.dropToken me flag tok src).reg Reg.TC_WV_ERR) flag = true := by
  rw [Tile.dropToken, Tile.dropCredit_reg, Tile.reg_count_ne _ 1 (by decide)]
  exact t.bitOf_flagBit_self _ h

/-! ## Arriving tokens (R262, R305, R462) -/

/-- Token `tok` is for queue `q` of unit `u`: the queue exists, the unit takes tokens under a good pattern, and the token is no marker. -/
def Tile.takes (t : Tile) (u q : Nat) (tok : BitVec 64) : Prop :=
  queueOk u q = true ∧ 1 ≤ tokKind tok ∧ tokKind tok ≤ 3 ∧ t.takesTokens u = true ∧ (t.group (groupOfUnit u)).patbad = false

theorem Tile.tokenArrive_of_hemmed {t : Tile} (h : t.hemmed = true) (me : Site) (u q : Nat) (tok : BitVec 64) (src : TokSrc) :
    t.tokenArrive me u q tok src = t.count Reg.TC_WVDROP_COUNT 1 := by
  rw [Tile.tokenArrive, if_pos h]

theorem Tile.tokenArrive_of_takes {t : Tile} {u q : Nat} {tok : BitVec 64} (hh : t.hemmed = false) (h : t.takes u q tok) (me : Site)
    (src : TokSrc) :
    t.tokenArrive me u q tok src =
      if 16 ≤ (t.queue u q).depth then t.dropToken me 0 tok src
      else t.setQueue u q { t.queue u q with toks := (t.queue u q).toks ++ [⟨tok, src⟩] } := by
  obtain ⟨hqueue, hlow, hhigh, htakes, hpat⟩ := h
  have hno : ¬ (!queueOk u q || tokKind tok = 0 || 4 < tokKind tok || !t.takesTokens u || (t.group (groupOfUnit u)).patbad) = true := by
    simp only [hqueue, htakes, hpat, Bool.or_eq_true, decide_eq_true_eq, Bool.not_true, Bool.false_eq_true,
      false_or, or_false]
    omega
  have hmark : tokIsMark tok = false := by
    rw [tokIsMark, beq_eq_false_iff_ne]
    omega
  rw [Tile.tokenArrive, if_neg (by simp [hh]), if_neg hno]
  simp only [hmark, Bool.false_eq_true, if_false]

theorem Tile.tokenArrive_of_not_takes {t : Tile} {u q : Nat} {tok : BitVec 64} (hh : t.hemmed = false) (hmark : tokKind tok ≠ 4)
    (h : ¬ t.takes u q tok) (me : Site) (src : TokSrc) : t.tokenArrive me u q tok src = t.dropToken me 1 tok src := by
  rw [Tile.tokenArrive, if_neg (by simp [hh]), if_pos]
  by_contra hno
  simp only [Bool.or_eq_true, decide_eq_true_eq, not_or, Bool.not_eq_true, Bool.not_eq_false'] at hno
  obtain ⟨⟨⟨⟨hqueue, hzero⟩, hhigh⟩, htakes⟩, hpat⟩ := hno
  exact h ⟨hqueue, by omega, by omega, htakes, hpat⟩

@[simp] theorem Tile.queue_setQueue_same (t : Tile) (u q : Nat) (x : Queue) : (t.setQueue u q x).queue u q = x :=
  Map.get_set_same _ _ _ _

/-! ## Dropped head tokens (R312) -/

/-- The head token is the oldest one where none of its queue has been spilled. -/
theorem Tile.pop_of_toks {t : Tile} {u q : Nat} {e : QTok} {es : List QTok}
    (h : t.queue u q = { spills := [], back := [], toks := e :: es }) :
    t.pop u q = (some (e.tok, some e.src), t.setQueue u q { spills := [], back := [], toks := es }) := by
  rw [Tile.pop, h]
  rfl

/-- The flags and the count of a dropped head token; `mix` where it is a marker of another stitch (R312). -/
def Tile.flagHead (t : Tile) (mix : Bool) : Tile :=
  let t := (t.flagBit Reg.TC_EP_ERR 0).count Reg.TC_EPDROP_COUNT 1
  if mix then t.flagBit Reg.TC_EP_ERR 3 else t

theorem Tile.flagHead_true (t : Tile) : t.flagHead true = (t.flagHead false).flagBit Reg.TC_EP_ERR 3 := rfl

theorem Tile.flagHead_frame (t : Tile) (mix : Bool) : t.flagHead mix = { t with regs := (t.flagHead mix).regs } := by
  have hfalse : t.flagHead false = { t with regs := (t.flagHead false).regs } := by
    change (t.flagBit Reg.TC_EP_ERR 0).count Reg.TC_EPDROP_COUNT 1 = _
    rw [Tile.flagBit_frame]
    rfl
  cases mix with
  | false => exact hfalse
  | true => rw [Tile.flagHead_true, Tile.flagBit_frame, hfalse]

theorem Tile.flagHead_reports (t : Tile) (mix : Bool) :
    bitOf ((t.flagHead mix).reg Reg.TC_EP_ERR) 0 = true ∧
      (t.flagHead mix).reg Reg.TC_EPDROP_COUNT = satAdd (t.reg Reg.TC_EPDROP_COUNT) 1 ∧
      (mix = true → bitOf ((t.flagHead mix).reg Reg.TC_EP_ERR) 3 = true) := by
  have hflag : bitOf ((t.flagHead false).reg Reg.TC_EP_ERR) 0 = true := by
    change bitOf (((t.flagBit Reg.TC_EP_ERR 0).count Reg.TC_EPDROP_COUNT 1).reg Reg.TC_EP_ERR) 0 = true
    rw [Tile.reg_count_ne _ 1 (by decide)]
    exact t.bitOf_flagBit_self _ (by decide)
  have hcount : (t.flagHead false).reg Reg.TC_EPDROP_COUNT = satAdd (t.reg Reg.TC_EPDROP_COUNT) 1 := by
    rw [← t.reg_flagBit_ne 0 (show Reg.TC_EPDROP_COUNT ≠ Reg.TC_EP_ERR by decide) (by decide)]
    exact Tile.setReg_reg_same _ _ _
  cases mix with
  | false => exact ⟨hflag, hcount, fun h => absurd h Bool.false_ne_true⟩
  | true =>
    rw [Tile.flagHead_true]
    exact ⟨Tile.bitOf_flag_of_set _ _ _ _ _ hflag, (Tile.reg_flagBit_ne _ 3 (by decide) (by decide)).trans hcount,
      fun _ => Tile.bitOf_flagBit_self _ _ (by decide)⟩

/-- A dropped head token leaves its queue, is flagged and counted, and its credit returns. -/
theorem Tile.dropHead_eq {t : Tile} {u q : Nat} {e : QTok} {es : List QTok}
    (hq : t.queue u q = { spills := [], back := [], toks := e :: es }) (hf : t.headFate u q = .drop ∨ t.headFate u q = .dropMix)
    (me : Site) :
    t.dropHead me u q =
      ((t.setQueue u q { spills := [], back := [], toks := es }).flagHead (t.headFate u q == .dropMix)).dropCredit me e.tok e.src := by
  unfold Tile.dropHead
  dsimp only
  rw [if_pos (by simpa using hf), Tile.pop_of_toks hq]
  rfl

/-! ## The commands -/

theorem tokenArrive_queues_or_drops {s : State} {n : Site} {u : BitVec 4} {q : BitVec 3} {tok : BitVec 64} {src : TokSrc}
    (h : s.inReset = false) (hp : s.powered n = true) (ht : s.seqTested n = false)
    (hget : s.mayGet (fun p => p.dst = .site n && p.body = .token u q tok src) = true) :
    let a := s.tile n
    Completes (.tokenArrive n u q tok src) s fun t => t = { s with tiles := t.tiles, net := t.net } ∧
      (∀ m, m ≠ n → t.tile m = s.tile m) ∧
      (a.hemmed = true → a.countsDrop (t.tile n) ∧ (t.tile n).reg Reg.TC_WV_ERR = a.reg Reg.TC_WV_ERR) ∧
      (a.hemmed = false → a.takes u.toNat q.toNat tok → (a.queue u.toNat q.toNat).depth < 16 →
        ((t.tile n).queue u.toNat q.toNat).toks = (a.queue u.toNat q.toNat).toks ++ [⟨tok, src⟩] ∧
        t.tile n = { a with queues := (t.tile n).queues }) ∧
      (a.hemmed = false → a.takes u.toNat q.toNat tok → 16 ≤ (a.queue u.toNat q.toNat).depth →
        a.countsDrop (t.tile n) ∧ bitOf ((t.tile n).reg Reg.TC_WV_ERR) 0 = true) ∧
      (a.hemmed = false → tokKind tok ≠ 4 → ¬ a.takes u.toNat q.toNat tok →
        a.countsDrop (t.tile n) ∧ bitOf ((t.tile n).reg Reg.TC_WV_ERR) 1 = true) := by
  refine completes_receivedOnUnits (exec_tokenArrive h ht) h hp hget fun t hs hother htile => ⟨hs, hother, ?_⟩
  rw [htile]
  refine ⟨fun hh => ?_, fun hh htakes hd => ?_, fun hh htakes hd => ?_, fun hh hmark htakes => ?_⟩
  · rw [Tile.tokenArrive_of_hemmed hh]
    exact ⟨Tile.count_countsDrop _, Tile.reg_count_ne _ 1 (by decide)⟩
  · rw [Tile.tokenArrive_of_takes hh htakes, if_neg (Nat.not_le.2 hd), Tile.queue_setQueue_same]
    exact ⟨rfl, rfl⟩
  · rw [Tile.tokenArrive_of_takes hh htakes, if_pos hd]
    exact ⟨Tile.dropToken_countsDrop _ n 0 tok src, Tile.dropToken_flagged _ n tok src (by decide)⟩
  · rw [Tile.tokenArrive_of_not_takes hh hmark htakes]
    exact ⟨Tile.dropToken_countsDrop _ n 1 tok src, Tile.dropToken_flagged _ n tok src (by decide)⟩

/-- Settles O28: `tokenArrive_queues_or_drops` for a token, `addCredits_portSt` for a credit, and `dropHead_eq` for a head token. -/
theorem tokensAndCreditsMoveThroughQueues : Obligations.TokensAndCreditsMoveThroughQueues := by
  unfold Obligations.TokensAndCreditsMoveThroughQueues
  refine ⟨fun s n u q tok src h hp ht hget => tokenArrive_queues_or_drops h hp ht hget, fun s n u p k gen h hp hget => ?_,
    fun s n u q e es h hp hq hf => ?_⟩
  · refine completes_receivedOnUnits (f := fun t => t.addCredits u.toNat p.toNat k.toNat gen) rfl h hp hget fun t hs hother htile =>
      ⟨hs, hother, ?_⟩
    rw [htile]
    exact ⟨Tile.addCredits_frame _ _ _ _ _, Tile.addCredits_portSt _ _ _ _ _⟩
  · refine completes_onUnits (f := fun _ t => t.dropHead n u.toNat q.toNat) rfl h hp fun t ht htile => ⟨ht, ?_⟩
    let mix := (s.tile n).headFate u.toNat q.toNat == .dropMix
    let b := (s.tile n).setQueue u.toNat q.toNat { spills := [], back := [], toks := es }
    obtain ⟨hflag, hcount, hmix⟩ := b.flagHead_reports mix
    rw [htile, Tile.dropHead_eq hq hf, Tile.dropCredit_reg, Tile.dropCredit_reg]
    refine ⟨?_, hflag, hcount, fun hm => hmix (by simp [mix, hm]), ?_, ?_⟩
    all_goals rw [Tile.dropCredit_frame, Tile.flagHead_frame]
    · exact Tile.queue_setQueue_same _ _ _ _
    all_goals rfl

end Sys2Proof.Machine


/-! # A dropped firing whose port holds the reserved PATH 3 (O29) -/

namespace Sys2Proof.Machine

/-- On the reserved PATH 3 nothing is sent (R14, R289; assumption 81). -/
theorem Tile.emit_of_reservedPath {t : Tile} {u p : Nat} (h : fld (t.dstWord u p) 30 2 = 3) (e : Env) (tok : BitVec 64) :
    t.emit e u p tok = t := by
  unfold Tile.emit
  dsimp only
  rw [h, if_neg (show (3 : Nat) ≠ 0 by decide), if_neg (show (3 : Nat) ≠ 1 by decide), if_neg (show (3 : Nat) ≠ 2 by decide), ite_self]

/-- A dropped firing of unit 0 that is to emit one token on port 0. -/
def reservedPathFiring : Firing :=
  { id := 1, unit := 0, tokens := [], emits := [{ port := 0, kind := 1, epoch := 0, aux := 0, payload := 0, fromStatus := false }]
    advs := [], poison := true, dropped := true }

/-- A tile with that firing in flight and PATH 3 in the destination of the port. -/
def reservedPathFiringTile : Tile :=
  { Tile.reset with
    groups := [(0, { GroupSt.reset with active := [(50, 0xC0430000)] })]
    firings := [reservedPathFiring] }

/-- A running chiplet with that tile at site 60. -/
def reservedPathFiringChip : State := { State.reset with inReset := false, tiles := [(60, reservedPathFiringTile)] }

/-- The firing ends, and no packet waits to leave the tile. -/
theorem reservedPathFiring_emits_nothing (e : Env) : (reservedPathFiringTile.emitDropped e 0).outq = [] := by
  change (((reservedPathFiringTile.emit e 0 0 (mkToken 0 1 true 0 0)).applyAdvs reservedPathFiring).unuse e.me reservedPathFiring).outq = []
  rw [Tile.emit_of_reservedPath (by decide)]
  rfl

/-- Refutes O29: of a port that leads into the weft the statement asks only that PATH is at least 2, and on PATH 3, which only a pattern
record can store, a dropped firing that meets every hypothesis sends no token (R14, R289; assumption 81). -/
theorem not_sequencersFireOrEmitPoison : ¬ Obligations.SequencersFireOrEmitPoison := by
  intro h
  obtain ⟨t, ht, -, -, -, hemits⟩ := h.2 reservedPathFiringChip 60 0 reservedPathFiring rfl (by decide) (by decide) (by decide) rfl rfl
  have hnext : exec (.droppedFiringEmit 60 0) reservedPathFiringChip =
      .next (reservedPathFiringChip.onTile 60 fun t => t.emitDropped (reservedPathFiringChip.env 60) 0) := by
    rw [exec, execDroppedFiringEmit, live_out _ _ rfl, onUnits_of_powered _ (by decide), leaves_onTile _ _ _ rfl]
    rfl
  rw [hnext, Host.Outcome.next.injEq] at ht
  have hout : (t.tile 60).outq = [] := by
    rw [← ht, State.tile_onTile_same]
    exact reservedPathFiring_emits_nothing _
  obtain ⟨p, hp, -⟩ := hemits _ (List.mem_singleton_self _) ⟨3 * 48 + 1, by decide⟩ (by decide) (by decide)
  rw [hout] at hp
  exact List.not_mem_nil hp

end Sys2Proof.Machine
